-- ==== Sys2Proof/Word.lean ====
section
/-! DEFINITION. The word types and their plainest arithmetic. -/

namespace Sys2Proof

/-- One byte of a ring, a frame or a container. -/
abbrev Byte := BitVec 8
/-- A register (R431), an index of a ring (R63). -/
abbrev Word := BitVec 32
/-- A byte string in the order of its addresses or of its transmission. -/
abbrev Bytes := List Byte
/-- A handle (R61), a TBU count in a record (R60). -/
abbrev Quad := BitVec 64
/-- A total table over the naturals, as the list of the entries that differ from the table's default:
keys strictly rising, no entry equal to the default (`Tbl.wf`). -/
abbrev Tbl (α : Type) := List (Nat × α)

/-- Add one, staying at the greatest value (the saturating counters of the register tables). -/
def satInc {w : Nat} (x : BitVec w) : BitVec w := if x = BitVec.allOnes w then x else x + 1
/-- Add `n`, staying at the greatest value. -/
def satAdd {w : Nat} (x : BitVec w) (n : Nat) : BitVec w :=
  if x.toNat + n ≥ 2 ^ w then BitVec.allOnes w else BitVec.ofNat w (x.toNat + n)
/-- A Boolean as one bit. -/
def bit (b : Bool) : BitVec 1 := BitVec.ofBool b

end Sys2Proof
end

