-- ==== Sys2Proof/Terms.lean ====
section
/-! DEFINITION. The vocabulary that commands and state share: networks, channels, parties, outcomes that the world
outside the block decides and hands over as operands of a command. -/

namespace Sys2Proof

/-- The two Heathline networks (R14). -/
inductive Net where | hl1 | hl2
  deriving DecidableEq, Repr

/-- The two channels of a Heathline network. -/
inductive Chan where | a | b
  deriving DecidableEq, Repr

/-- The two logic feeds (R360). -/
inductive Feed where | l1 | l2
  deriving DecidableEq, Repr

/-- The parties that write registers: the two host paths, the programs of the two partitions, the runtimes that serve
ring pairs 12 to 23 (R77), the Service Processor with Stile (R56, R434). -/
inductive Party where | pcie | legacy | part0 | part1 | runtime | service
  deriving DecidableEq, Repr

/-- Where a start request comes from: the ring command of a handle, or the service USB port (R55). -/
inductive Source where
  | ring (h : Quad)
  | usb
  deriving DecidableEq, Repr

/-- An input buffer as the module reads it when the command executes (R72): the bytes, or not reachable. -/
inductive Buf where
  | bytes (b : Bytes)
  | unreachable
  deriving DecidableEq, Repr

/-- The input buffer of a command whose content an IN_SYNC standby verifies or acknowledges before the commit (R107, R115,
R246, R248), and whether it has. -/
structure SentBuf where
  buf : Buf
  standbyOk : Bool
  deriving DecidableEq, Repr

/-- One failing bit of a memory BIST (R420). -/
structure FailBit where
  /-- array ID -/
  arr : BitVec 6
  /-- word address within the array -/
  addr : BitVec 20
  /-- bit number, 0 to 71 -/
  bitNo : BitVec 7
  /-- a spare row was free and passed its own test -/
  spareGood : Bool
  deriving DecidableEq, Repr

/-- What a BIST run met (R419 to R422): the failed condition that skipped or aborted it (0 none, 1 core voltage, 2 PLL,
3 temperature), the failed logic partitions, the failing memory bits. -/
structure BistOutcome where
  skip : BitVec 2
  failMask : BitVec 16
  failing : List FailBit
  deriving DecidableEq, Repr

/-- What a body did between its latch point and its publish point, which lane code decides (R5): bytes stored through
the Writing window, by offset; variables stored, by ID; bytes of the handover area; the most that the
open undo logs together held while it ran, in KiB (R179). -/
structure Body where
  writes : List (Nat × Byte)
  vars : List (Word × Bytes)
  handover : List (Nat × Byte)
  logKib : Nat
  deriving DecidableEq, Repr

/-- What a start meets in the world (R42, R45): the BIST of step 1, the self-tests that readmit excluded lanes, whether
the slots' images still verify, whether the lane load's region signatures agree (R143), whether every init task ended. -/
structure StartInputs where
  bist : BistOutcome
  /-- the repaired or stored arrays and MRAM answer as they did: the commit banks pass their CRC, the acceptance journal
  and the epoch record pass their checks (R43) -/
  bank0Good : Bool
  bank1Good : Bool
  journalGood : Bool
  epochGood : Bool
  slotAGood : Bool
  slotBGood : Bool
  triadTest : BitVec 3
  pairTest : BitVec 2
  lanesAgree : Bool
  initDone : Bool
  /-- what the init tasks stored, all of them together (R91) -/
  initBody : Body
  deriving DecidableEq, Repr

/-- The egress event kinds of R145. -/
inductive EgressKind where
  | output | exportWrite | cmdSubmit | cplAdvance | eventLog | faultRaise | exchange | publish
  deriving DecidableEq, Repr

/-- One lane's copy of an egress event: its kind, the compared content and the lane's commit signature (R145). -/
structure EgressCopy where
  kind : EgressKind
  /-- offset, ring pair, code, reaction or item, as the kind needs -/
  key : Word
  /-- byte mask of a write -/
  mask : Byte
  /-- data bytes, entry, consumer index or region signature -/
  data : Bytes
  /-- the commit signature at this point (R150) -/
  sig : BitVec 256
  deriving DecidableEq, Repr

/-- The causes of a Control Pair mismatch, coded as CPR_MISMATCH.LAST_KIND. -/
inductive PairKind where
  | request | serviceCall | signature | l1Uncorrectable | laneException | checker
  deriving DecidableEq, Repr

/-- The ECC and parity events of R177, with the lane where one is named. -/
inductive CacheEvent where
  | l1iParity (lane : Fin 2)
  | l1dCorrected (lane : Fin 2)
  | l2Corrected
  | dramCorrected
  /-- with the KiB that the open undo logs hold (R179) -/
  | l1dUncorrectable (lane : Fin 2) (logKib : Nat)
  | l2CleanUncorrectable
  | l2DirtyUncorrectable
  | dramUncorrectable
  deriving DecidableEq, Repr

/-- How a voter or delay-register fault was found (R169). -/
inductive VoterFaultKind where | undetected | wrongInput | rail | parity
  deriving DecidableEq, Repr

/-- What the terminals of a cell show at a sample instant (R203, R219): P and M in units of 0.125 V above L−, whether
the input current is below the 0 limit of the type, whether the output current stands at its limit, is above 20 mA or
flows at all, and the supply of the group in the same units. -/
structure Terminals where
  p : Int
  m : Int
  lowCurrent : Bool
  lowCurrentM : Bool
  atLimit : Bool
  over20mA : Bool
  someCurrent : Bool
  supply : Byte
  overTemp : Bool
  deriving DecidableEq, Repr

/-- The answer of a far side to a remote-access record (R331). -/
structure Answer where
  op : Byte
  status : Byte
  tag : Word
  context : Fin 128
  data : Bytes
  deriving DecidableEq, Repr

/-- A posted-error log entry (STL_PEL_i). -/
structure Pel where
  cause : BitVec 4
  outcome : Bool
  ctx : Nat
  hl2 : Bool
  station : Nat
  tag : Word
  addr : Quad
  cycle : Word
  discFirst : Word
  discCount : BitVec 16
  far : Byte
  deriving DecidableEq, Repr

/-- A context of a mirror: number, fenced targets as (network is HL2, station), FENCE_ALL, LOST and the targets of lost
entries. -/
structure CtxMirror where
  ctx : Nat
  fences : List (Bool × Nat)
  fenceAll : Bool
  lost : BitVec 10
  lostAt : List (Bool × Nat)
  deriving DecidableEq, Repr

/-- A posted write without a mirrored answer. -/
structure PostedMirror where
  ctx : Nat
  hl2 : Bool
  station : Nat
  tag : Word
  addr : Quad
  deriving DecidableEq, Repr

/-- The service-firmware state of a mirror (R303): routing table (empty when it has not changed), log entries by index,
contexts, posted writes in flight, spare-slot grants as (network is HL2, slot, address, listings left, missed cycles). -/
structure StileMirror where
  routing : Bytes
  log : List (Nat × Pel)
  ctxs : List CtxMirror
  posted : List PostedMirror
  grants : List (Bool × Nat × Byte × Nat × Nat)
  deriving DecidableEq, Repr

/-- A non-cycle mirror item of R303, as the standby receives it. -/
inductive MirrorItem where
  | acceptance (ring : Fin 32) (handle : Quad) (tag : Word) (opcode : BitVec 16) (flags : BitVec 16) (args : Bytes) (count : Nat) (index : Word)
  | forces (l : List (Word × Word × Bool × Bytes))
  | container (part : Byte) (b : Bytes)
  | config (b : Bytes)
  | safetySet (l : List (Nat × Quad))
  | laneStates (triad : List (BitVec 3)) (pairExcluded : BitVec 2)
  | roleEpoch (e : Byte)
  | repairMinutes (m : BitVec 16)
  | stile (m : StileMirror)
  /-- a 16-bit legacy write of the staging area (R443) -/
  | staging (off : Nat) (v : BitVec 16)
  deriving DecidableEq, Repr

/-- A journal commit entry of a cycle mirror (R32, R303): the command's status, result and EXTENDED, and whether its DONE
record has been written. -/
structure JMirror where
  handle : Quad
  status : BitVec 16
  result : Bytes
  extended : Bool
  done : Bool
  deriving DecidableEq, Repr

/-- A cycle mirror (R303, R305): task, mirror sequence, published output bytes, variable values, journal commit
entries, station states as (network is HL2, address, state, MISSED, FAILS), the complete flag. -/
structure CycleMirror where
  task : Fin 17
  mseq : Quad
  kib : BitVec 16
  /-- number of the version that the task latched, and its input segments that differ from the last version mirrored: directory
  index, bytes, quality word -/
  vnum : Word
  version : List (Nat × Bytes × BitVec 16)
  /-- of task 0: the latest export buffer, the captured handover copy behind its header -/
  exportBuf : Bytes
  handover : Bytes
  /-- bank header of the last commit made: its sequence, whether the module was in RUN -/
  header : Option (Quad × Bool)
  /-- the force table: variable, element, output, value -/
  forces : List (Word × Word × Bool × Bytes)
  outputs : List (Nat × Byte)
  vars : List (Word × Bytes)
  commits : List JMirror
  stations : List (Bool × Nat × BitVec 2 × BitVec 4 × Byte)
  complete : Bool
  deriving DecidableEq, Repr

/-- A heartbeat of the pair link (R301). -/
structure HeartbeatMsg where
  /-- 0 alone, 1 active, 2 standby -/
  role : BitVec 2
  /-- SYS_MODE.MODE of the partner -/
  mode : BitVec 4
  mirrorSeq : Quad
  channelTick : Quad
  dwOff : Bool
  faultReport : Bool
  deriving DecidableEq, Repr

/-- What a PTP message other than an offset sample makes the best master clock algorithm decide (R354). -/
inductive PtpDecision where | listening | slave | master
  deriving DecidableEq, Repr

/-- A window of the hardware firewall (R397): base, size as a power of two, rights to read, write and execute. -/
structure FwWindow where
  base : Quad
  sizeLog2 : Nat
  read : Bool
  write : Bool
  exec : Bool
  deriving DecidableEq, Repr

/-- The caller of a runtime service (R103): a cyclic task with its error task, or an init task of its group. -/
structure Caller where
  task : Fin 17
  ini : Bool
  deriving DecidableEq, Repr

end Sys2Proof
end

