-- ==== Sys2Proof/Syntax.lean ====
section
/-! DEFINITION. The commands of the block, one constructor per row of spec/opcode_table.json. An operand is what the
world outside the block contributes to the step (R5, R72, R203): bytes on a wire, a handle that names an accepted
command (R61), an outcome of a test. -/

namespace Sys2Proof

/-- The commands (spec/opcode_table.json). -/
inductive Instr where
  /-- POWER_UP (R361). The higher logic feed has stood at or above 19.2 V for 10 ms, so PD0 comes up and the module
      enters START. -/
  | powerUp (l1 l2 : Byte) (slotPos : Bool) (lbase : Byte) (coreMv : BitVec 12) (temp : BitVec 16)
  /-- RESERVE_READY (R361). The hold-up supercapacitor reaches its reserve level after power-up, which makes the
      power-fail sequence available. -/
  | reserveReady
  /-- HOLDUP_READY (R361). The hold-up is charged enough that the ride-through is guaranteed. -/
  | holdupReady
  /-- FEED_LOSS (R361). A logic feed has been below 19.2 V for 1 ms; its OK bit clears and the loss is recorded in
      Hayrick. -/
  | feedLoss (f : Feed) (v : Byte)
  /-- FEED_RESTORED (R361). A logic feed has stood at or above 19.2 V for 100 ms; its OK bit is set again. -/
  | feedRestored (f : Feed) (v : Byte)
  /-- ON_HOLDUP (R362). The combined input falls below 18.5 V; the hold-up takes over and ON_HOLDUP is set. -/
  | onHoldup (v : Byte)
  /-- SUPPLY_RETURN (R362). The input returns to 19.2 V before the reserve level is reached; ON_HOLDUP clears. -/
  | supplyReturn (v : Byte)
  /-- POWER_FAIL_SEQUENCE (R363). The hold-up reaches its reserve level; acceptance stops, MRAM writes complete, the
      power-fail entry is written, outputs stop and every domain is switched off. -/
  | powerFailSequence (v : Byte)
  /-- TEMPERATURE_WARNING (R457). PWR_TEMP exceeds 115 °C, or a further 10 min pass above it, and Hayrick records a
      warning. -/
  | temperatureWarning (t : BitVec 16)
  /-- OVERTEMPERATURE (R457). PWR_TEMP has stayed above 125 °C for 1 s, and the power-fail sequence runs with
      overtemperature as its cause. -/
  | overtemperature (t : BitVec 16)
  /-- ROOT_PLL_LOSS (R372). The root PLL falls out of lock; PD0 switches to the backup PLL and a fault reaction calls
      for HALT. -/
  | rootPllLoss
  /-- REFERENCE_OSCILLATOR_LOSS (R372). The reference oscillator stops or drifts outside ±1,000 ppm; PD0 switches to
      the on-chip oscillator, REF_LOST is set and a fault reaction calls for HALT. -/
  | referenceOscillatorLoss
  /-- CROSSING_RESET (R375). One side of a clock-domain crossing is reset; the other side flushes its data and events,
      and the flush is counted. -/
  | crossingReset (n : Byte)
  /-- SRAM_SCRUB (R380). The once-per-second scrub pass of Shared SRAM corrects single-bit errors in place and counts
      them. -/
  | sramScrub (sram pd0 : Nat)
  /-- MEMORY_UNCORRECTABLE (R380). An uncorrectable ECC error is found in Shared SRAM or PD0 memory; it is recorded
      and is a fault reaction calling for HALT. -/
  | memoryUncorrectable (mem : Byte) (addr : Word)
  /-- SUPERVISOR_SELF_CHECK_FAIL (R389). The Lifeline's independent watchdog finds that the Supervisor self-check has
      failed, and the module enters HALT with cause 0x0C. -/
  | supervisorSelfCheckFail
  /-- COLD_START (R42). The cold start sequence of steps 1 to 10 runs: BIST, firmware and container verification, DRAM
      zeroing, init tasks, epoch advance, completion of old handles, network start, and leaving START. -/
  | coldStart (w : StartInputs)
  /-- WARM_START (R42). The warm start sequence runs: retentive data is restored, the journal is replayed, and the
      module re-integrates on its networks. -/
  | warmStart (w : StartInputs)
  /-- START_INTO_FOLLOW (R42). A module whose partner is active performs steps 1 to 4 and leaves START for FOLLOW to
      resynchronise. -/
  | startIntoFollow (w : StartInputs)
  /-- START_STEP_LIMIT (R45). The 20 s (warm) or 60 s (cold) limit from entry into START to the end of step 8 expires,
      and the start fails. -/
  | startStepLimit
  /-- FAIL_COUNT_EXPIRY (R47). A failed start drops out of its count 10 min of operating time after it occurred. -/
  | failCountExpiry (cold : Bool)
  /-- DOORBELL_WRITE (R64). The owner writes RING_DOORBELL_n with a new producer index; a valid value covers new
      entries, an invalid one is ignored and sets DOORBELL_ERR. -/
  | doorbellWrite (p : Party) (n : Fin 32) (v : Word)
  /-- CPL_CONS_WRITE (R65). The owner writes RING_CPL_CONS_n to free completion slots; the interrupt condition is
      evaluated again, and an invalid value sets CONS_ERR. -/
  | cplConsWrite (p : Party) (n : Fin 32) (v : Word)
  /-- TAKE_ENTRY (R69). The Supervisor takes the next command entry once completion slots allow; it checks, journals
      and writes an ACCEPTED, COMBINED or REJECTED record. -/
  | takeEntry (journalOk outOk : Bool)
  /-- PARTNER_NO_ACK (R70). The IN_SYNC standby does not acknowledge an acceptance within 20 µs; the entry is rejected
      and the standby becomes LAGGING. -/
  | partnerNoAck
  /-- IRQ_TIMER_EXPIRY (R67). The oldest undelivered record of a ring pair has waited TIMER µs, and the ring pair's
      interrupt is raised. -/
  | irqTimerExpiry (n : Fin 32)
  /-- NOP (R80). The NOP command completes with a single COMBINED record. -/
  | nop (h : Quad)
  /-- STATUS_GET (R80). The STATUS_GET command returns the mode, role, standby state, TBU count, epoch and outstanding
      handles. -/
  | statusGet (h : Quad)
  /-- HANDLE_QUERY (R80). The HANDLE_QUERY command returns the state, acceptance time and status of a handle. -/
  | handleQuery (h : Quad)
  /-- MODE_RUN (R38). The MODE_RUN command takes the module from STOP to RUN, unless it is refused; its DONE record is
      written at the earliest first latch point. -/
  | modeRun (h : Quad) (b : Body)
  /-- MODE_STOP (R49). The MODE_STOP command lets each task finish its cycle, publishes stop values at its would-be
      latch points, and enters STOP. -/
  | modeStop (h : Quad)
  /-- SERVICE_ENTER (R38). The SERVICE_ENTER command takes the module from STOP to SERVICE with the requested
      SUBSTATE. -/
  | serviceEnter (h : Quad)
  /-- SERVICE_LEAVE (R41). The SERVICE_LEAVE command returns the module from SERVICE to STOP, unless LOCKSTEP_BROKEN
      is set or BIST has failed. -/
  | serviceLeave (h : Quad)
  /-- START_WARM (R43). The START_WARM command, from a ring or the service USB port, requests a warm start, which may
      be performed as a cold start. -/
  | startWarm (src : Source)
  /-- START_COLD (R48). The START_COLD command requests a cold start; in a duplex it applies to both modules. -/
  | startCold (src : Source)
  /-- SHUTDOWN (R53). The SHUTDOWN command stops the module, makes a final commit, runs BIST, writes the shutdown-BIST
      record, and switches off every domain except PD0. -/
  | shutdown (h : Quad) (o : BistOutcome)
  /-- SHUTDOWN_DRAIN_LIMIT (R53). The 5 s that outstanding commands are allowed during shutdown expire, and the
      shutdown continues with the commands left in the journal. -/
  | shutdownDrainLimit
  /-- ROLE_SWAP (R315). The ROLE_SWAP command drains the standard tasks and waits for all cycle mirrors to be
      acknowledged before a planned role swap. -/
  | roleSwap (h : Quad)
  /-- SWAP_BOUNDARY (R315). At the swap boundary the active releases its claim and enters FOLLOW, and the standby
      advances the role epoch and becomes active. -/
  | swapBoundary
  /-- CONTAINER_LOAD (R96). The CONTAINER_LOAD command verifies and loads a standard or safety program container in
      STOP, treating forces and variables as the rules state. -/
  | containerLoad (h : Quad) (b : SentBuf) (outOk lanesAgree : Bool)
  /-- ONLINE_CHANGE (R107). The ONLINE_CHANGE command loads and verifies a rebuild of a running standard container and
      starts the on-line change phases. -/
  | onlineChange (h : Quad) (b : SentBuf)
  /-- PRE_COPY_PASS (R107). A pre-copy pass of the migration engine ends; the residue is compared with 4 MiB and with
      the 8-pass limit. -/
  | preCopyPass (residueKib : Nat)
  /-- DRAIN (R107). The drain of the partition's standard tasks ends, and the switch window begins. -/
  | drain
  /-- SWITCH_WINDOW (R107). The switch window ends when the standby acknowledges the switch: the new code and mappings
      take effect and the held tasks resume. -/
  | switchWindow (partnerAck outOk : Bool)
  /-- FORCE_SET (R105). The FORCE_SET command sets or replaces a force on an element of an image-bound standard
      variable. -/
  | forceSet (h : Quad)
  /-- FORCE_CLEAR (R106). The FORCE_CLEAR command clears one force or all of them, each at its own point. -/
  | forceClear (h : Quad)
  /-- FORCE_LIST (R466). The FORCE_LIST command writes the active forces into the output buffer. -/
  | forceList (h : Quad) (outOk : Bool)
  /-- PERSISTENT_RESET (R102). The PERSISTENT_RESET command resets a container's persistent variables in STOP and
      makes a commit. -/
  | persistentReset (h : Quad)
  /-- CONFIG_LOAD (R115). The CONFIG_LOAD command checks a configuration set, writes it to flash and the standby, and
      applies its parts. -/
  | configLoad (h : Quad) (b : SentBuf)
  /-- SAFETY_PARAM_CHANGE (R246). The SAFETY_PARAM_CHANGE command checks the password, mode and BASE, commits a safety
      parameter change set, applies it and logs it. -/
  | safetyParamChange (h : Quad) (b : SentBuf)
  /-- PASSWORD_LOCKOUT_END (R245). The 15 min lockout after five failed password checks expires. -/
  | passwordLockoutEnd
  /-- SAFETY_ACK (R234). The SAFETY_ACK command clears the named latch classes whose causes are gone, with an off-test
      where that is required. -/
  | safetyAck (h : Quad)
  /-- UPDATE_MANIFEST (R407). The UPDATE_MANIFEST command verifies a firmware manifest and makes the inactive slot
      LOADING. -/
  | updateManifest (h : Quad) (b : Buf)
  /-- UPDATE_BLOCK (R407). The UPDATE_BLOCK command verifies and writes one payload block; the slot becomes VALID when
      no block is missing. -/
  | updateBlock (h : Quad) (b : Buf) (readBackOk : Bool)
  /-- UPDATE_ARM (R408). The UPDATE_ARM command arms an activation at a time, scale and group, and READY is sent. -/
  | updateArm (h : Quad)
  /-- UPDATE_CANCEL (R411). The UPDATE_CANCEL command clears an armed activation. -/
  | updateCancel (h : Quad)
  /-- CHECK_POINT (R409). At the armed time minus 1 s, a group member reads the READY map of the first beacon and
      proceeds, or cancels. -/
  | checkPoint (beacon : Option (BitVec 256))
  /-- ACTIVATION_BOUNDARY (R410). At the activation boundary the new slot becomes ACTIVE and pending, and the module
      warm-starts on it. -/
  | activationBoundary
  /-- FUSE_RULE (R406). After 24 operating hours on a pending slot, the security-version and revocation fuses are
      blown. -/
  | fuseRule
  /-- IDENTITY_GET (R413). The IDENTITY_GET command writes the device certificate and the authority certificate into
      the output buffer. -/
  | identityGet (h : Quad) (outOk : Bool)
  /-- ATTEST (R415). The ATTEST command signs a statement of the module's state with the identity key. -/
  | attest (h : Quad) (outOk : Bool)
  /-- DEBUG_TOKEN (R417). The DEBUG_TOKEN command verifies a debug token and opens the scopes it names. -/
  | debugToken (h : Quad) (b : Buf)
  /-- DEBUG_EXPIRY (R417). The open debug scopes close at EXPIRY. -/
  | debugExpiry
  /-- BIST_RUN (R424). The BIST_RUN command saves state, runs logic and/or memory BIST, applies repairs, restores
      state and re-integrates. -/
  | bistRun (h : Quad) (o : BistOutcome)
  /-- BIST_CONDITION_CHECK (R422). The 1 ms check of core voltage, PLL and temperature during a BIST run aborts the
      run if a condition fails. -/
  | bistConditionCheck (mv : BitVec 12) (pll : Bool) (temp : BitVec 16)
  /-- BIST_DUE (R426). BST_HOURS reaches 720 h, or a further 24 h pass, and DUE is set and recorded. -/
  | bistDue
  /-- PLANT_JUMP_ACCEPT (R357). The PLANT_JUMP_ACCEPT command steps plant time by the pending jump. -/
  | plantJumpAccept (h : Quad)
  /-- STILE_TRANSFER (R329). The STILE_TRANSFER command performs a read, a write or a posted write on a port for a
      context. -/
  | stileTransfer (h : Quad) (b : Buf)
  /-- STILE_LOG_ACK (R338). The STILE_LOG_ACK command frees a posted-error log entry, or acknowledges the context's
      lost entries, and may lift fences. -/
  | stileLogAck (h : Quad)
  /-- V1_NOP (R82). The version 1 opcode NOP is performed as NOP. -/
  | v1Nop (h : Quad)
  /-- STATUS (R82). The version 1 STATUS opcode is performed as STATUS_GET, with RESULT bytes 16 to 47 set to 0. -/
  | statusV1 (h : Quad)
  /-- GO (R82). The version 1 GO opcode is performed as MODE_RUN. -/
  | goV1 (h : Quad) (b : Body)
  /-- HOLD (R82). The version 1 HOLD opcode is performed as MODE_STOP. -/
  | holdV1 (h : Quad)
  /-- RESTART (R82). The version 1 RESTART opcode is performed as START_WARM. -/
  | restartV1 (h : Quad)
  /-- INIT (R82). The version 1 INIT opcode is performed as START_COLD. -/
  | initV1 (h : Quad)
  /-- PROG_LOAD (R82). The version 1 PROG_LOAD opcode is performed as CONTAINER_LOAD of a standard container in
      partition 0. -/
  | progLoad (h : Quad) (b : SentBuf) (outOk : Bool)
  /-- FORCE_ADDR (R82). The version 1 FORCE_ADDR opcode resolves a DK-5100 image address to a variable and performs
      FORCE_SET. -/
  | forceAddr (h : Quad)
  /-- UNFORCE_ADDR (R82). The version 1 UNFORCE_ADDR opcode resolves an address and performs FORCE_CLEAR. -/
  | unforceAddr (h : Quad)
  /-- REMOTE_XFER (R82). The version 1 REMOTE_XFER opcode is performed as STILE_TRANSFER on the fixed context 116 plus
      the ring pair number. -/
  | remoteXfer (h : Quad) (b : Buf)
  /-- CYCLE_INFO (R103). The CYCLE_INFO runtime call returns the base tick, TBU count, version and OVERRUNS of the
      latch point. -/
  | cycleInfo (c : Caller)
  /-- TIME_GET (R103). The TIME_GET runtime call returns plant or network time as at the latch point. -/
  | timeGet (c : Caller) (scale : Quad)
  /-- TBU_READ (R103). The TBU_READ runtime call returns the present TBU count. -/
  | tbuRead (c : Caller)
  /-- CMD_SUBMIT (R103). The CMD_SUBMIT runtime call places a command entry in the program's ring; the doorbell
      follows at the publish point. -/
  | cmdSubmit (c : Caller) (ring : Quad) (entry : Bytes)
  /-- CPL_NEXT (R103). The CPL_NEXT runtime call copies the next completion record written before the latch point. -/
  | cplNext (c : Caller) (ring : Quad)
  /-- ERR_EVENTS (R103). The ERR_EVENTS runtime call copies the task's error-task events. -/
  | errEvents (c : Caller) (limit : Nat)
  /-- COMMIT_INFO (R103). The COMMIT_INFO runtime call returns the last commit sequence and COMMIT_LATE. -/
  | commitInfo (c : Caller)
  /-- FORCE_INFO (R103). The FORCE_INFO runtime call reports whether an element is forced. -/
  | forceInfo (c : Caller) (var elem : Word)
  /-- EVENT_LOG (R103). The EVENT_LOG runtime call writes a program-defined entry to Hayrick, subject to rate
      limiting. -/
  | eventLog (c : Caller) (code : BitVec 16) (data : Bytes)
  /-- CHANGE_INFO (R103). The CHANGE_INFO runtime call returns the on-line change count and the first-cycle flag. -/
  | changeInfo (c : Caller)
  /-- FAULT_RAISE (R103). The FAULT_RAISE runtime call records a fault and, with reaction 1, calls for HALT after the
      publish point. -/
  | faultRaise (c : Caller) (reaction : Quad) (data : Bytes)
  /-- BASE_TICK (R84). A base tick begins: the HL1 cycle, or the internal tick, which may be stretched on integration. -/
  | baseTick
  /-- LATCH_POINT (R120). At a task's input latch point Sward promotes a new version, error events are dispatched,
      pre-emption or overrun is handled, and the body starts. -/
  | latchPoint (t : Fin 17)
  /-- PUBLISH_POINT (R128). At a task's publish point Sward overlays output forces, swaps Writing and Sending, and
      copies back; the doorbells, export and handover are updated. -/
  | publishPoint (t : Fin 17) (b : Body)
  /-- RETENTIVE_COMMIT (R102). A retentive commit, due after a publish point, begins writing its changed lines to the
      other MRAM bank once any earlier commit is done. -/
  | retentiveCommit
  /-- COMMIT_MADE (R102). A commit's bank header is written, and the commit counts as made. -/
  | commitMade
  /-- INIT_TASK_TIMEOUT (R91). An init task has not completed within 5 s; this is a fault reaction. -/
  | initTaskTimeout
  /-- CHANNEL_TICK (R198). At tick boundary T_k Field Link fixes and sends command frames, and the local input
      segments assembled in the previous tick become latest. -/
  | channelTick
  /-- NETWORK_CYCLE_START (R129). A Heathline network cycle starts: the output segments are fixed from Sending and the
      undelivered cycles of failed stations are counted. -/
  | networkCycleStart (n : Net)
  /-- SAMPLE_INSTANT (R198). A cell samples its P terminal (and M in output modes) at s_k and sends its uplink frame. -/
  | sampleInstant (ch : Fin 96) (x : Terminals)
  /-- COMMAND_FRAME (R221). A cell receives a downlink command frame and applies OUT, TEST, LATCH_CLR, LOW_OPEN and
      its configuration byte. -/
  | commandFrame (ch : Fin 96) (f : Bytes)
  /-- UPLINK_FRAME (R200). Field Link receives an uplink frame and judges it valid or invalid for the tick. -/
  | uplinkFrame (ch : Fin 96) (f : Bytes)
  /-- UPLINK_DEADLINE (R198). The instant T_k + 40 µs passes; frames not complete are invalid, and the channel's
      values are held. -/
  | uplinkDeadline
  /-- COUPLER_LOST (R201). A channel has had 8 consecutive invalid frames, and COUPLER_LOST latches. -/
  | couplerLost (ch : Fin 96)
  /-- COUPLER_RECOVERED (R201). A channel has had 16 consecutive valid frames, and COUPLER_LOST clears or becomes
      clearable. -/
  | couplerRecovered (ch : Fin 96)
  /-- CELL_SUPPLY_LOSS (R204). A cell's group field supply falls below 12.0 V, and the cell stops sending. -/
  | cellSupplyLoss (ch : Fin 96)
  /-- CELL_RESTARTED (R204). A cell resumes at 14.0 V or above, starting its filter and counter afresh. -/
  | cellRestarted (ch : Fin 96)
  /-- COUNTER_EDGE (R207). An edge of the configured kind on a counter input is counted in COUNT, or COUNT_RATE is set
      for short times. -/
  | counterEdge (ch : Fin 96) (rising short : Bool)
  /-- DISCREPANCY (R210). The discrepancy timer reaches D + 1 in RISING or FALLING, and the pair enters FAULT with
      DISCREPANCY latched. -/
  | discrepancy (p : Fin 48)
  /-- INPUT_STAGE_TEST (R212). Every 256 ticks, a cell tests its input stage with an internal offset and reports
      INPUT_TEST_FAIL. -/
  | inputStageTest (ch : Fin 96) (passed : Bool)
  /-- CELL_FAULT (R212). INPUT_TEST_FAIL has stood at 1 over 257 consecutive ticks, and Field Link latches CELL_FAULT. -/
  | cellFault (ch : Fin 96)
  /-- TEST_DUE (R226). An output test falls due and begins at the next slot of the channel's offset as an off-test or
      a dark test. -/
  | testDue (ch : Fin 96)
  /-- TEST_PHASE_END (R226). A test phase or pulse ends; P and M are judged against the expected levels and faults are
      latched. -/
  | testPhaseEnd (ch : Fin 96) (x : Terminals)
  /-- OVERLOAD (R217). An output current has stood at its limit on 4 consecutive samples outside the inrush window,
      and the overload reaction follows. -/
  | overload (ch : Fin 96)
  /-- THERMAL_LIMIT (R217). A switch junction reaches its thermal limit and opens at once. -/
  | thermalLimit (ch : Fin 96)
  /-- OVERLOAD_RECLOSE (R232). One second after an overload, a standard output commanded on recloses its high side
      with a new inrush window. -/
  | overloadReclose (ch : Fin 96)
  /-- SUPPLY_LOW (R235). The group value has been below 19.2 V for 16 ticks; SUPPLY_LOW is set. -/
  | supplyLow (g : Fin 6)
  /-- CELL_UNDERVOLTAGE_TRIP (R235). A cell has measured below 16.0 V on 8 samples, opens both its switches and
      reports event 6. -/
  | cellUndervoltageTrip (ch : Fin 96)
  /-- GROUP_UNDERVOLTAGE_TRIP (R235). The group value has been below 16.0 V for 8 ticks, or a cell reported event 6;
      UV_LATCH is set and the group's outputs go off. -/
  | groupUndervoltageTrip (g : Fin 6)
  /-- SUPPLY_RECOVERY (R235). The group value has been at 20.4 V or above, with every cell valid, for 800 ticks;
      SUPPLY_LOW and UV_LATCH clear. -/
  | supplyRecovery (g : Fin 6)
  /-- HOLD_TIME_EXPIRED (R236). A silent cell's hold time passes, and it opens its switches as its output class
      requires. -/
  | holdTimeExpired (ch : Fin 96)
  /-- EGRESS_EVENT (R148). The Triad Voter judges copies of an egress event, releases the agreed tuple, and names an
      odd lane or calls for HALT. -/
  | egressEvent (c0 c1 c2 : Option EgressCopy)
  /-- LATE_LANE (R147). The third lane has not presented its copy within 64 ns, and it counts as differing. -/
  | lateLane (l : Fin 3)
  /-- LANE_EXCEPTION (R142). A lane makes an access that the fabric refuses, and this counts as a mismatch of that
      lane. -/
  | laneException (l : Fin 3)
  /-- SCRUB_PASS (R153). A TCM scrub pass ends; the recomputed region signature and code digest are compared. -/
  | scrubPass (differs : BitVec 3)
  /-- PARTIAL_SELF_TEST_COMPLETE (R161). A lane's 8 ms partial self-test ends; the lane goes to RESYNC or to EXCLUDED. -/
  | partialSelfTestComplete (l : Fin 3) (passed : Bool)
  /-- BACKGROUND_COPY_COMPLETE (R162). The background copy of TCMs into a resynchronising lane completes. -/
  | backgroundCopyComplete (l : Fin 3)
  /-- FINAL_PASS (R162). The final pass copies the tracked lines in its gap, and the lane is readmitted if the digest
      agrees. -/
  | finalPass (l : Fin 3) (fits digestOk : Bool)
  /-- RESYNC_TIMEOUT (R160). 40 ms have passed since the self-test passed without a readmission, and the lane is
      EXCLUDED. -/
  | resyncTimeout (l : Fin 3)
  /-- TEST_WINDOW (R168). The test window before a latch point or base tick begins; the voter and lockstep checker
      injections run. -/
  | testWindow (voterBad : Option VoterFaultKind) (checkerBad : Bool)
  /-- VOTER_FAULT (R169). A voter or delay-register fault closes the release gate, commands safety outputs off and
      enters HALT. -/
  | voterFault (k : VoterFaultKind)
  /-- REPAIR_TIMER_MILESTONE (R255). Half or nine tenths of the mandatory-repair time has passed, and it is recorded. -/
  | repairTimerMilestone
  /-- REPAIR_TIMER_EXPIRY (R255). The mandatory-repair timer expires, and the module enters HALT. -/
  | repairTimerExpiry
  /-- LOCKSTEP_MISMATCH (R181). The lockstep checker finds a mismatch; both lanes stop and SELF_TEST is entered, or
      takeover or HALT follows. -/
  | lockstepMismatch (k : PairKind) (logKib : Nat)
  /-- CACHE_ECC_ERROR (R177). An L1, L2 or DRAM ECC error, or a parity error, is corrected, refetched or treated as a
      mismatch or HALT. -/
  | cacheEccError (e : CacheEvent)
  /-- PAIR_SELF_TEST_COMPLETE (R182). The pair's 5 ms self-test ends; restore begins, a lane is excluded, or HALT
      follows. -/
  | pairSelfTestComplete (pass : BitVec 2)
  /-- CHECKPOINT_RESTORE (R179). Restore of the undo logs completes, and the open bodies are re-executed. -/
  | checkpointRestore
  /-- PROGRAM_ACCESS_REFUSED (R192). A program access outside the map is refused and recorded; HALT is called for
      after the publish point. -/
  | programAccessRefused (t : Fin 17) (access : Byte) (addr : Quad)
  /-- REMOTE_WINDOW_LOAD (R344). A lane load to a Stile remote window issues a remote read and stalls until answer or
      timeout. -/
  | remoteWindowLoad (t : Fin 17) (addr : Quad) (size : Nat)
  /-- REMOTE_WINDOW_STORE (R344). A lane store to a remote window issues a posted or non-posted remote write. -/
  | remoteWindowStore (t : Fin 17) (addr : Quad) (data : Bytes)
  /-- READ_TIMEOUT (R344). A context's read timeout expires; a window load returns 0xFF bytes and sets ERR, or a
      privileged read ends. -/
  | readTimeout (x : Fin 128)
  /-- BEACON (R288). A BEACON frame is received; clock offset, state-machine transitions, epoch, grants and full-
      valid-cycle judgement follow. -/
  | beaconFrame (n : Net) (port : Fin 4) (at_ : Nat) (f : Bytes)
  /-- DATA (R125). A DATA frame completes in its slot; Sward makes its buffer latest or undoes it, and station return
      counting advances. -/
  | dataFrame (n : Net) (port : Fin 4) (at_ : Nat) (f : Bytes)
  /-- COLDSTART (R280). A COLDSTART frame is received; a starter yields or a listener goes to WAIT. -/
  | coldstartFrame (n : Net) (port : Fin 4) (at_ : Nat) (f : Bytes)
  /-- CLAIM (R294). A CLAIM frame is received; the hub grants after 2 cycles, or a claimant stops. -/
  | claimFrame (n : Net) (port : Fin 4) (at_ : Nat) (f : Bytes)
  /-- DELAY (R281). A DELAY request or response frame is received; the hub answers, or the node computes D. -/
  | delayFrame (n : Net) (port : Fin 4) (at_ : Nat) (f : Bytes)
  /-- ACYCLIC (R331). An ACYCLIC frame or message is received and passed to Stile. -/
  | acyclicFrame (n : Net) (port : Fin 4) (at_ : Nat) (f : Bytes)
  /-- SLOT_START (R268). A node's own slot starts; the guardian lets the frame through or refuses it. -/
  | slotStart (n : Net) (slot : Fin 4096) (devA devB : Int)
  /-- ACCEPTANCE_WINDOW_END (R131). A slot's acceptance window ends without a valid copy; the slot is missed, and the
      station may be declared failed. -/
  | acceptanceWindowEnd (n : Net) (slot : Fin 4096)
  /-- LISTEN_TIMEOUT (R279). The listen time elapses with nothing seen, and a cold-start capable node enters
      COLDSTART. -/
  | listenTimeout (n : Net)
  /-- COLDSTART_WINDOW_END (R278). The cold-start window elapses without yielding, and the node becomes reference. -/
  | coldstartWindowEnd (n : Net)
  /-- WAIT_TIMEOUT (R278). 16 cycles pass in WAIT without a BEACON, and the node returns to LISTEN. -/
  | waitTimeout (n : Net)
  /-- OBSERVE_TIMEOUT (R278). 16 cycles pass in OBSERVE without a full valid cycle, and D is discarded. -/
  | observeTimeout (n : Net)
  /-- BEACON_LOSS (R293). No valid BEACON is received for 4 cycles, and the node returns to LISTEN. -/
  | beaconLoss (n : Net)
  /-- HUB_ASSUMES_REFERENCE (R293). The reference's inbound BEACON is missing for 2 cycles, and the hub becomes the
      reference. -/
  | hubAssumesReference (n : Net)
  /-- GUARDIAN_LIMIT (R292). 8 guardian refusals within 256 cycles make the node leave the network. -/
  | guardianLimit (n : Net)
  /-- RING_SPLIT (R263). Port 2 receives no own BEACON in 2 cycles; the channel is split and sends on port 2 as well. -/
  | ringSplit (n : Net) (c : Chan)
  /-- CLAIM_ABANDONED (R279). A claim is not granted within 8 cycles, and the claimant picks again. -/
  | claimAbandoned (n : Net)
  /-- GRANT_RELEASED (R295). A granted spare slot has been missed for 256 cycles and is released. -/
  | grantReleased (n : Net) (slot : Fin 4096)
  /-- LINK_CHANGE (R257). A Heathline port's physical layer reports its link up or down. -/
  | linkChange (n : Net) (port : Fin 4) (up master : Bool)
  /-- HEARTBEAT (R301). A heartbeat arrives on the pair link with role, mode, mirror sequence, channel tick, DW_OFF
      and fault report. -/
  | heartbeat (lane : Fin 2) (m : HeartbeatMsg)
  /-- HEARTBEAT_SEND (R301). Every 20 µs the module sends a heartbeat on each lane. -/
  | heartbeatSend
  /-- HEARTBEAT_LOSS (R302). No heartbeat has arrived on either lane for 60 µs; the standby becomes ABSENT, or the
      standby decides on takeover. -/
  | heartbeatLoss
  /-- CLAIM_RELEASED (R298). The partner's claim line shows no edge for 20 µs and counts as released. -/
  | claimReleased
  /-- CLAIM_RECOGNISED (R298). The partner's claim line has shown edges for 200 µs and counts as recognised. -/
  | claimRecognised
  /-- CLAIM_WATCHDOG_EXPIRY (R298). The Supervisor has not refreshed the claim watchdog for 100 µs, and the claim
      square wave stops. -/
  | claimWatchdogExpiry
  /-- CYCLE_MIRROR (R305). The standby holds a complete cycle mirror, applies it as a whole and acknowledges it. -/
  | cycleMirror (m : CycleMirror)
  /-- MIRROR_ACK (R304). The active receives a mirror acknowledgement; a waiting latch point proceeds and LAGGING may
      clear. -/
  | mirrorAck (t : Fin 17) (mseq : Quad)
  /-- MIRROR_STRETCH_LIMIT (R304). The mirror stretch limit ends unacknowledged; the standby becomes LAGGING and the
      task latches. -/
  | mirrorStretchLimit (t : Fin 17)
  /-- PAIR_LINK_LANE_LOSS (R301). A pair-link lane goes down; traffic continues on the other lane at half the mirror
      rate. -/
  | pairLinkLaneLoss (lane : Fin 2)
  /-- RESYNC_PHASE_COMPLETE (R318). A resynchronisation phase completes, and the next phase begins or the standby
      becomes IN_SYNC. -/
  | resyncPhaseComplete (failedCheck : BitVec 4)
  /-- CATCH_UP_TIMEOUT (R318). The 30 s catch-up limit expires, and resynchronisation returns to phase 2. -/
  | catchUpTimeout (passes : Byte) (residueKib : Word)
  /-- EXERCISE_DUE (R316). 720 h, or a further 24 h, have passed since the module last drove as active, and it is
      recorded. -/
  | exerciseDue
  /-- MESSAGE_RECEIVED (R325). Stile receives a message on a port and routes copies by the routing table, or drops it. -/
  | messageReceived (port : Fin 10) (ident : Word) (m : Bytes)
  /-- REMOTE_ANSWER (R333). A station's remote-access answer record completes a read or write, returns a credit or
      causes a posted-write failure. -/
  | remoteAnswer (n : Net) (station : Byte) (a : Answer)
  /-- RESPONSE_LIMIT (R333). The response limit passes without an answer; a read stalls, a write times out, or a
      posted write fails. -/
  | responseLimit (n : Net) (station : Byte) (x : Fin 128) (tag : Word)
  /-- SEMAPHORE_ACQUIRE (R341). A write to STL_SEM_k with ACQUIRE requests the semaphore for a context. -/
  | semaphoreAcquire (p : Party) (k : Fin 64) (x : Fin 128)
  /-- SEMAPHORE_RELEASE (R341). A write to STL_SEM_k with RELEASE frees the semaphore if CTX holds it. -/
  | semaphoreRelease (p : Party) (k : Fin 64) (x : Fin 128)
  /-- SEMAPHORE_HOLD_LIMIT (R342). A semaphore is held beyond its hold limit; Stile releases it and records the
      release. -/
  | semaphoreHoldLimit (k : Fin 64)
  /-- BUS_OFF (R345). A CAN port goes bus-off; a pending send completes with REMOTE_ERROR. -/
  | busOff (port : Fin 4)
  /-- SERVICE_WATCHDOG_EXPIRY (R399). The service firmware has not refreshed its watchdog for 100 ms; the Service
      Processor is restarted. -/
  | serviceWatchdogExpiry
  /-- PTP_SAMPLE (R356). A plant-time offset sample is fed to the servo, or refused as a pending jump. -/
  | ptpSample (e : Int) (delta : Nat)
  /-- EVENT_OFFER (R391). A source offers an event to the Hayrick writer; it is written or dropped under rate
      limiting. -/
  | eventOffer (source : Byte) (code : BitVec 16) (sev : BitVec 4) (data : Bytes) (badWrites : Nat)
  /-- TOKEN_REFILL (R394). A bucket gains a token every 64 ms, and a drop summary is written if drops are pending. -/
  | tokenRefill (code : BitVec 16)
  /-- OP_TIME_SAVE (R386). Every second the OP_TIME counter is saved to MRAM. -/
  | opTimeSave
  /-- SYS_RESTART_WARM (R51). A write of WARM with KEY 0xA5 to SYS_RESTART in HALT requests a warm start. -/
  | sysRestartWarm (p : Party) (v : Word)
  /-- SYS_RESTART_COLD (R51). A write of COLD with KEY 0xA5 to SYS_RESTART in HALT requests a cold start and clears
      HALT_LATCHED. -/
  | sysRestartCold (p : Party) (v : Word)
  /-- SYS_EVENT_CLEAR (R437). A W1C write to SYS_EVENT clears bits and re-evaluates vector 9. -/
  | sysEventClear (p : Party) (v : Word)
  /-- SYS_EVENT_MASK_WRITE (R437). A write to SYS_EVENT_MASK changes the mask and re-evaluates vector 9. -/
  | sysEventMaskWrite (p : Party) (v : Word)
  /-- HOSTCFG_LOCK (R434). Writing LOCK in SYS_HOSTCFG locks all its fields until the next entry into START. -/
  | hostcfgLock (p : Party) (v : Word)
  /-- PIN (R139). Writing PIN to 1 in SWD_SNAPLOCK pins the most recent version for the snapshot window. -/
  | pin (p : Party)
  /-- PIN_CLEAR (R139). Writing PIN to 0 releases the pinned version. -/
  | pinClear (p : Party)
  /-- SLOT_COUNTER_CAPTURE (R274). A read of a slot's CYCLES word captures its other six counters for the reading
      party. -/
  | slotCounterCapture (p : Party) (n : Net) (slot : Fin 4096)
  /-- TBU_CAPTURE (R432). A read of TBU_COUNT_LO captures the counter and both time scales for the reading party. -/
  | tbuCapture (p : Party)
  /-- HAYRICK_CAPTURE (R432). A read of HYK_RAISED captures HYK_WRITTEN and HYK_DROPPED for the reading party. -/
  | hayrickCapture (p : Party)
  /-- LEGACY_LOW_HALF_READ (R441). A legacy read of a register's low half loads the read latch with a full register
      read. -/
  | legacyLowHalfRead (addr : BitVec 24)
  /-- LEGACY_LOW_HALF_WRITE (R441). A legacy write of a low half is held in the write latch. -/
  | legacyLowHalfWrite (addr : BitVec 24) (v : BitVec 16)
  /-- LEGACY_HIGH_HALF_WRITE (R441). A legacy write of a high half performs one 32-bit write with the latched low
      half, or with 0. -/
  | legacyHighHalfWrite (addr : BitVec 24) (v : BitVec 16)
  /-- REGISTER_WRITE (R431). A write to a register without a row of its own stores the permitted fields or is ignored
      and recorded. -/
  | registerWrite (p : Party) (off : Nat) (be : Byte) (data : Bytes)
  /-- PCIE_LINK_RESET (R439). A link-down or hot reset of the PCI Express link resets only the endpoint. -/
  | pcieLinkReset
  /-- USB_RECOVERY_IMAGE (R418). Through the service USB port, a firmware image is written into a non-active slot and
      made ACTIVE once bootable. -/
  | usbRecoveryImage (manifest : Bytes) (blocks : List Bytes)
  /-- PAIR_LINK_LANE_RESTORED (R301). A pair-link lane comes up again; LANE_n is set and the mirror rate returns to 2
      MiB per 1 ms. -/
  | pairLinkLaneRestored (lane : Fin 2)
  /-- PLANT_ETHERNET_LINK_CHANGE (R354). A plant Ethernet port's link goes down or up, and the PTP port falls back to
      the other port when fallback is configured. -/
  | plantEthernetLinkChange (port : Fin 2) (up : Bool)
  /-- PTP_MESSAGE (R354). A PTP message other than an offset sample, such as Announce or Delay_Req, is received; the
      best master clock algorithm then sets PTP_STATE to listening, slave or master, and the module answers as master. -/
  | ptpMessage (d : PtpDecision) (answerTo : Option Byte)
  /-- MESSAGE_TRANSMITTED (R329). A CAN, RS-485 or UDP message finishes transmission, for CAN after a frame without
      error, and the STILE_TRANSFER write that sent it completes. -/
  | messageTransmitted (port : Fin 10)
  /-- BUS_OFF_RECOVERY (R345). A CAN port recovers from bus-off as ISO 11898-1 provides, and STL_PORT_p leaves state
      3. -/
  | busOffRecovery (port : Fin 4)
  /-- JUNCTION_COOLED (R457). After an overtemperature shutdown, the junction cools below 100 °C and the module powers
      up afresh. -/
  | junctionCooled (l1 l2 : Byte) (slotPos : Bool) (lbase : Byte) (coreMv : BitVec 12) (temp : BitVec 16)
  /-- DRAM_PATROL_SCRUB (R427). The 8-hour DRAM patrol scrub pass reads every word, corrects single-bit errors in
      place and counts them, and handles uncorrectable errors as R177 states. -/
  | dramPatrolScrub (corrected : Nat) (uncorrectable : Bool)
  /-- TCM_ECC_ERROR (R153). An ECC error in a lane's TCM is found on access; a single-bit error is corrected and
      counted, and an uncorrectable one is a fault of that lane. -/
  | tcmEccError (l : Fin 3) (uncorrectable : Bool)
  /-- FIREWALL_REFUSAL (R15). An access of the Service Processor outside its granted windows is refused by the
      hardware firewall, returning all ones for a read, and recorded in Hayrick. -/
  | firewallRefusal (access : Byte) (addr : Quad)
  /-- MIRRORED_ITEM (R303). The standby receives a non-cycle mirror item (an acceptance entry, forces, a container, a
      configuration set, a safety parameter set, lane states or the role epoch, or service-firmware state), applies
      it, and acknowledges where required. -/
  | mirroredItem (it : MirrorItem)
  /-- TEST_ANNOUNCEMENT (R238). The standby receives the active's announcement of a mode 0x8 test phase or pulse and
      checks that its own RAW of P follows it within the slot, reporting two consecutive misses to the duplex
      protocol. -/
  | testAnnouncement (ch : Fin 96) (followed : Bool)
  /-- TRANSIENT_READMISSION_EXPIRY (R160). A transient readmission of a triad lane drops out of the 24-operating-hour
      window, and TRANSIENTS decreases. -/
  | transientReadmissionExpiry (l : Fin 3)
  /-- EXCLUSION_EXPIRY (R184). A lane exclusion, of the triad or the pair, drops out of the 1,000-operating-hour
      window, and EXCLUSIONS decreases. -/
  | exclusionExpiry (triad : Bool) (lane : Fin 3)
  deriving DecidableEq, Repr

end Sys2Proof
end

