-- ==== Sys2Proof/Config.lean ====
section
/-! DEFINITION. What the spec leaves to other standards or leaves open: functions without a body. -/

namespace Sys2Proof.Config

/-- SHA3-256, as FIPS 202 gives it; the spec names it and does not restate it (log entry 5). -/
opaque sha3 : Bytes → BitVec 256
/-- SHAKE256 with the output length in bytes (log entry 5). -/
opaque shake256 : Bytes → Nat → Bytes
/-- Verification of an SLH-DSA-SHAKE-256s signature over a digest by a key (R95, R400): the key of a kind with an
identifier that the module holds, or the public key itself; kinds 0 toolchain, 1 integrator, 2 firmware, 3 debug
authority (log entry 5). -/
opaque slhVerify : (kind : Byte) → (key : Bytes) → BitVec 256 → Bytes → Bool
/-- The signature of the identity key over a byte string (R413, R415), log entry 5. -/
opaque slhSign : Bytes → Bytes
/-- Identifiers of the firmware keys F0 to F3 whose digests stand in fuses (R400), not given. -/
opaque firmwareKey : Fin 4 → Quad
/-- Public keys of the module's identity, of the device authority and of the root (R400, R413): not given. -/
opaque identityKey : Bytes
opaque authorityKey : Bytes
opaque rootKey : Bytes
/-- The signature of an issuer's key over a certificate body (R414), log entry 5. -/
opaque issuerSign : (issuer : Quad) → Bytes → Bytes
/-- Serial number of the authority certificate; start and end of the validities of the device and the authority
certificate (R414): not given. -/
opaque authoritySerial : Quad
opaque notBefore : (kind : Byte) → Quad
opaque authorityNotAfter : Quad
/-- The payload of the NaN that a NaN turns into in the other floating-point format (R111), log entry 10. -/
opaque nanPayload : Bytes → Nat → Nat
/-- The row of a word of a memory array (R420): the geometry is not given (log entry 15). -/
opaque rowOf : (arr : BitVec 6) → (addr : BitVec 20) → BitVec 20
/-- A value that the spec leaves open: a fresh one per index (log entry 3). -/
opaque freeBits : Nat → (w : Nat) → BitVec w

/-- The commit signature at a latch point of task 0, from its base tick number (R150): a digest derived from SHAKE256, whose
derivation is not given (log entry 80). -/
opaque commitInit : Word → BitVec 256

/-- An address of the DRAM program area lies in a code section of the loaded standard containers (R188), named by their
digests: where the sections are placed is not given (log entry 82). -/
opaque inCode : List (BitVec 256) → Quad → Bool

/-- The windows that the trusted firmware grants the Service Processor at each start (R398): the spec names what they lie
on and gives no base address of the Service Processor's own map (log entry 69). -/
opaque firewallGrants : List FwWindow

/-- A window of the Service Processor's map reaches a lane's tightly coupled memory, the safety parameter store, the key
store or the acceptance journal (R15): the map is not given (log entry 69). -/
opaque reachesProtected : FwWindow → Bool

/-- The partner's node address on a network (R276, R308): how the modules learn it is not given (log entry 30). -/
opaque partnerAddr : Net → Byte
/-- Vendor and device identifier that the module sends in a CLAIM (R266), not given (log entry 30). -/
opaque claimIds : Bytes

/-- What a DK-5100 image address names (R82): direction, byte of the image, bit; the family's address map is not given
(log entry 20). -/
opaque imageAddr : Word → Option (Bool × Nat × Nat)

end Sys2Proof.Config
end

