-- ==== Sys2Proof/Machine/Bytes.lean ====
section
/-! DEFINITION. Byte order, fields of byte strings, and the check values the spec defines by polynomial. -/

namespace Sys2Proof

/-- The value of a little-endian byte string (R8). -/
def leNat : Bytes → Nat
  | [] => 0
  | b :: bs => b.toNat + 256 * leNat bs

/-- The `n` low bytes of a number, little-endian (R8). -/
def leBytes : Nat → Nat → Bytes
  | 0, _ => []
  | n + 1, x => BitVec.ofNat 8 x :: leBytes n (x / 256)

/-- The value of a byte string sent most significant byte first (R8). -/
def beNat (b : Bytes) : Nat := leNat b.reverse
/-- The `n` low bytes of a number, most significant first. -/
def beBytes (n x : Nat) : Bytes := (leBytes n x).reverse

/-- Bytes `o` to `o + n - 1`. -/
def sub (b : Bytes) (o n : Nat) : Bytes := (b.drop o).take n
/-- The little-endian field of `n` bytes at offset `o`. -/
def leAt (b : Bytes) (o n : Nat) : Nat := leNat (sub b o n)
/-- The field of `n` bytes at offset `o`, most significant byte first. -/
def beAt (b : Bytes) (o n : Nat) : Nat := beNat (sub b o n)
/-- The byte at offset `o`; 0 beyond the end. -/
def byteAt (b : Bytes) (o : Nat) : Byte := b.getD o 0
/-- Bit `k` of the byte at offset `o`. -/
def bitAt (b : Bytes) (o k : Nat) : Bool := (byteAt b o).getLsbD k
/-- Every byte is 0. -/
def allZero (b : Bytes) : Bool := b.all (· == 0)
/-- The string cut or padded with zeros to `n` bytes. -/
def padTo (n : Nat) (b : Bytes) : Bytes := (b ++ List.replicate n 0).take n
/-- The string with the bytes `v` in place of those at offset `o`. -/
def patch (b : Bytes) (o : Nat) (v : Bytes) : Bytes := b.take o ++ v ++ b.drop (o + v.length)
/-- A bit vector's bytes, little-endian. -/
def le {w : Nat} (n : Nat) (x : BitVec w) : Bytes := leBytes n x.toNat

/-- One byte shifted into a remainder of `w` bits, most significant bit first, by polynomial `p`. -/
def crcStep {w : Nat} (p : BitVec w) (c : BitVec w) (x : Bool) : BitVec w :=
  if c.msb ^^ x then (c <<< 1) ^^^ p else c <<< 1
/-- The bits of a byte in the order in which a check takes them. -/
def crcBits (reflected : Bool) (b : Byte) : List Bool :=
  (List.range 8).map fun k => b.getLsbD (if reflected then k else 7 - k)
/-- The remainder over a byte string. -/
def crc {w : Nat} (p : BitVec w) (reflected : Bool) (init : BitVec w) (bs : Bytes) : BitVec w :=
  bs.foldl (fun c b => (crcBits reflected b).foldl (crcStep p) c) init

/-- CRC-16 of R199, also HCRC (R265) and CHECK (R385). -/
def crc16 (b : Bytes) : BitVec 16 := crc 0x1021 false 0xFFFF b
/-- The frame CRC of R265. -/
def crc32 (b : Bytes) : Word := (crc (w := 32) 0x04C11DB7 true 0xFFFFFFFF b).reverse ^^^ 0xFFFFFFFF
/-- CRC-32C of R407. -/
def crc32c (b : Bytes) : Word := (crc (w := 32) 0x1EDC6F41 true 0xFFFFFFFF b).reverse ^^^ 0xFFFFFFFF
/-- SCRC of R250 over SCNT and payload, from the connection seed. -/
def scrc (seed : Word) (b : Bytes) : Word := crc 0xF4ACFB13 false seed b

/-- A number of Boolean flags as a mask, the first in bit 0. -/
def maskOf : List Bool → Nat
  | [] => 0
  | b :: bs => (if b then 1 else 0) + 2 * maskOf bs

end Sys2Proof
end

