-- ==== Sys2Proof/Machine/State.lean ====
section
/-! DEFINITION. The state of the block as plain data, and the state after reset. Where a docstring says MRAM, the
field lives through a loss of logic supply. -/

namespace Sys2Proof.Machine

/-- Reasons to stop. No command of the table stops the block, so there is none: every fault reaction of the module is
itself state (R45, R50). -/
inductive Fault where
  deriving DecidableEq, Repr

/-- Reasons to refuse a command. -/
inductive Refusal where
  /-- raised only by an arm of the dispatch whose row has no meaning yet; safe -/
  | notModelled (mnemonic : String)
  deriving DecidableEq, Repr

/-- The operating modes (R36). -/
inductive Mode where | start | stop | run | follow | service | halt
  deriving DecidableEq, Repr

/-- The kinds of start (R42). -/
inductive StartKind where | cold | warm | follow
  deriving DecidableEq, Repr

/-- What the module sends out of its boundary: messages and frames that no register shows. -/
inductive Output where
  /-- an MSI-X message of a vector (R436) -/
  | msix (v : Nat)
  /-- a DMA write of an output buffer: the 16-byte descriptor and the bytes (R72) -/
  | dma (desc : Bytes) (b : Bytes)
  /-- a Heathline frame: network, port 0 to 3, the bytes after the delimiter (R264) -/
  | frame (n : Net) (port : Nat) (b : Bytes)
  /-- a command frame to a cell (R221) -/
  | cell (ch : Nat) (b : Bytes)
  /-- an uplink frame of a cell (R199) -/
  | uplink (ch : Nat) (b : Bytes)
  /-- a heartbeat on a pair-link lane (R301) -/
  | heartbeat (lane : Nat) (m : HeartbeatMsg)
  /-- a cycle mirror, or the acknowledgement of one (R303, R304) -/
  | mirror (m : CycleMirror)
  | mirrorAck (mseq : Quad)
  /-- the journal entry of an acceptance, sent to the standby (R303) -/
  | mirrorAccept (handle : Quad)
  | itemAck
  /-- a message on a Stile port (R322) -/
  | message (port : Nat) (ident : Word) (b : Bytes)
  /-- a remote-access record for a station (R331) -/
  | remote (n : Net) (station : Nat) (rec : Bytes)
  /-- an answer of the PTP port as master (R354) -/
  | ptp (kind : Byte)
  /-- the internal interrupt of the Service Processor (R56, R337) -/
  | serviceIrq
  /-- the announcement of a test phase or pulse of a mode 0x8 channel (R238) -/
  | announce (ch : Nat)
  /-- an item sent whole to the standby, to be verified or acknowledged there (R303): 0 container, 1 configuration set,
  2 safety parameter change -/
  | mirrorItem (kind : Byte) (b : Bytes)
  /-- state that the standby receives on its change (R303): lane and pair states, repair timer, service firmware -/
  | mirrorState (it : MirrorItem)
  /-- a 16-bit write of the staging area, performed on an IN_SYNC standby as well (R443) -/
  | staging (off : Nat) (v : BitVec 16)
  /-- a report of the standby to the duplex protocol: an announced pulse not seen twice (R238) -/
  | dpxReport (ch : Nat)
  deriving DecidableEq, Repr

/-- What is fixed at manufacture, in fuses or by the backplane. -/
structure Mfg where
  /-- SYS_ID.VARIANT (R4), from manufacture: DESIGN CHOICE 0 -/
  variant : BitVec 4
  /-- SYS_SERIAL (R430), from manufacture: DESIGN CHOICE 0 -/
  serial : Quad
  /-- UPD_VERSION.FUSED, the fused security version (R404, R406), from fuses: DESIGN CHOICE 0 -/
  fused : Byte
  /-- UPD_VERSION.REVOKED, the revocation fuses (R400, R406), from fuses: DESIGN CHOICE 0 -/
  revoked : BitVec 4
  /-- SLOT_POS, read at power-up (R446): DESIGN CHOICE false -/
  slotPos : Bool
  /-- LBASE, read at power-up (R446, R440): DESIGN CHOICE 0xFF -/
  lbase : Byte
  deriving DecidableEq, Repr

/-- Logic supply, domains, clocks and memory errors (16_power_clocks_memory.md). -/
structure Pwr where
  /-- logic power is present and PD0 runs (R361); false: power removed is not a mode -/
  on : Bool
  /-- off after overtemperature, until the junction has cooled (R457); reset false -/
  hotOff : Bool
  /-- PWR_FEED.L1_V; reset 0x00 -/
  l1v : Byte
  /-- PWR_FEED.L2_V; reset 0x00 -/
  l2v : Byte
  /-- PWR_FEED.L1_OK (R361); reset 0 -/
  l1ok : Bool
  /-- PWR_FEED.L2_OK (R361); reset 0 -/
  l2ok : Bool
  /-- PWR_FEED.HOLDUP_READY (R361); reset 0 -/
  holdupReady : Bool
  /-- PWR_FEED.ON_HOLDUP (R362); reset 0 -/
  onHoldup : Bool
  /-- PWR_FEED.RESERVE_READY (R361); reset 0 -/
  reserveReady : Bool
  /-- PWR_EVENTS.FEED_DROPS, saturating; reset 0 -/
  feedDrops : BitVec 16
  /-- PWR_EVENTS.RIDE_THROUGHS, saturating; reset 0 -/
  rideThroughs : BitVec 16
  /-- PWR_DOMAIN.STATE, two bits per domain (R367); reset 0x0001 -/
  domains : BitVec 16
  /-- PWR_DOMAIN.SRAM_RET while PD4 is ON (R369); reset 0 -/
  sramRet : BitVec 16
  /-- PWR_CLOCK.PLL_LOCKED (R372); reset 0 -/
  pllLocked : Bool
  /-- PWR_CLOCK.ON_BACKUP (R372); reset 0 -/
  onBackup : Bool
  /-- PWR_CLOCK.REF_LOST (R372); reset 0 -/
  refLost : Bool
  /-- PWR_CLOCK.CROSS_OVF (R374), W1C; reset 0 -/
  crossOvf : Bool
  /-- PWR_CLOCK.FLUSHES (R375), saturating; reset 0 -/
  flushes : BitVec 16
  /-- PWR_ECC.SRAM_CORRECTED (R380), saturating; reset 0 -/
  sramCorrected : BitVec 16
  /-- PWR_ECC.PD0_CORRECTED (R380), saturating; reset 0 -/
  pd0Corrected : BitVec 16
  /-- PWR_TEMP.TEMP, signed; reset 0 -/
  temp : BitVec 16
  /-- PWR_TEMP.TEMP_MAX, signed; reset 0 -/
  tempMax : BitVec 16
  /-- PWR_CORE.CORE_MV; reset 0 -/
  coreMv : BitVec 12
  /-- PWR_HOLDUP.RESERVE_US (R362); reset 0 -/
  reserveUs : BitVec 16
  /-- TBU counts at which L1+ and L2+ were last below their range (R361); reset 0 -/
  below1 : Nat
  below2 : Nat
  /-- TBU count at which the hold-up last took over (R362); reset 0 -/
  holdupAt : Nat
  /-- TBU count of the last scrub pass of the on-chip SRAM (R380); reset 0 -/
  scrubbedAt : Nat
  deriving DecidableEq, Repr

/-- One time scale of the TBU (R349, R350, R358). -/
structure Scale where
  /-- base count C_b; reset 0 -/
  base : Nat
  /-- the scale time O at C_b, in ns; reset 0 -/
  o : Int
  /-- rate adjustment r, signed, in units of 2⁻⁴⁰ (TBU_PLANT_RATE, TBU_NET_RATE); reset 0 -/
  r : Word
  /-- the servo's integral i, in units of 2⁻⁴⁰ (R358); reset 0 -/
  i : Int
  /-- the last 16 bases (count, time, rate), newest first (R350); reset none -/
  past : List (Nat × Int × Word)
  /-- consecutive samples within the lock limit (R358); reset 0 -/
  within : Nat
  /-- consecutive samples above the lock limit (R358); reset 0 -/
  above : Nat
  deriving DecidableEq, Repr

/-- The time base (15_time_base.md). -/
structure Tbu where
  /-- the TBU counter (R348), starting at 0 when PD0 comes up -/
  count : Nat
  plant : Scale
  net : Scale
  /-- TBU_STATUS.PLANT_SET (R355); reset 0 -/
  plantSet : Bool
  /-- TBU_STATUS.PLANT_LOCKED (R358); reset 0 -/
  plantLocked : Bool
  /-- TBU_STATUS.PLANT_JUMP_REFUSED (R356); reset 0 -/
  jumpRefused : Bool
  /-- TBU_STATUS.NET_LOCKED (R358); reset 0 -/
  netLocked : Bool
  /-- TBU_STATUS.PTP_STATE; reset 0 -/
  ptpState : BitVec 2
  /-- a refusal was recorded and no sample lay within the threshold since (R356); reset false -/
  refusedNow : Bool
  /-- TBU_STATUS.REFUSALS, saturating; reset 0 -/
  refusals : Byte
  /-- TBU_JUMP, the pending jump e in ns (R356); reset none -/
  jump : Option Int
  /-- TBU_PLANT_OFS, last measured offset in ns; reset 0 -/
  plantOfs : Int
  /-- TBU_NET_OFS, last measured offset in ns; reset 0 -/
  netOfs : Int
  /-- the plant Ethernet link of port 1 and of port 2 (R354): DESIGN CHOICE true -/
  eth1Up : Bool
  eth2Up : Bool
  /-- the plant Ethernet port that the PTP port uses now, false port 1 (R354): DESIGN CHOICE false -/
  ptpOn2 : Bool
  deriving DecidableEq, Repr

/-- A Hayrick entry (R385). -/
structure HykEntry where
  seq : Word
  opTime : BitVec 48
  cycles : Word
  code : BitVec 16
  source : Byte
  sevFlags : Byte
  data : Bytes
  check : BitVec 16
  deriving DecidableEq, Repr

/-- A token bucket of R393. -/
structure Bucket where
  code : BitVec 16
  tokens : Nat
  /-- pending drops (R394) -/
  drops : Word
  /-- OP_TIME of the first pending drop -/
  firstDrop : BitVec 48
  /-- severity of the last dropped event -/
  lastSev : BitVec 4
  /-- TBU count up to which the tokens gained stand in the bucket (R393) -/
  gainedAt : Nat
  deriving DecidableEq, Repr

/-- The event recorder (17_hayrick_event_recorder.md); all but the counters of a power cycle is MRAM. -/
structure Hyk where
  /-- the general partition by slot (R383); reset empty, as delivered -/
  general : Tbl (Option HykEntry)
  /-- the safety partition by slot (R383); reset empty, as delivered -/
  safety : Tbl (Option HykEntry)
  /-- HYK_GEN_NEXT.NEXT_SLOT; from MRAM: DESIGN CHOICE 0 -/
  genNext : BitVec 15
  /-- HYK_GEN_NEXT.WRAPPED; from MRAM: DESIGN CHOICE 0 -/
  genWrapped : Bool
  /-- HYK_GEN_SEQ.SEQ; from MRAM: DESIGN CHOICE 0 -/
  genSeq : Word
  /-- HYK_SAF_NEXT.NEXT_SLOT; from MRAM: DESIGN CHOICE 0 -/
  safNext : BitVec 12
  /-- HYK_SAF_NEXT.WRAPPED; from MRAM: DESIGN CHOICE 0 -/
  safWrapped : Bool
  /-- HYK_SAF_SEQ.SEQ; from MRAM: DESIGN CHOICE 0 -/
  safSeq : Word
  /-- HYK_RAISED; reset 0 -/
  raised : Word
  /-- HYK_WRITTEN; reset 0 -/
  written : Word
  /-- HYK_DROPPED; reset 0 -/
  dropped : Word
  /-- the token buckets, most recently used first (R393); reset none -/
  buckets : List Bucket
  /-- HYK_STATUS.EVICT_FAIL, saturating; reset 0 -/
  evictFail : BitVec 16
  /-- HYK_BAD.BAD_SLOTS; from MRAM: DESIGN CHOICE 0 -/
  badSlots : BitVec 16
  /-- OP_TIME in ms at power-up (R386) -/
  opBase : Nat
  /-- OP_TIME in ms as last saved to MRAM (R386); from MRAM: DESIGN CHOICE 0 -/
  opSaved : Nat
  /-- SYS_POWER_CYCLES.COUNT (R386); from MRAM: DESIGN CHOICE 0 -/
  powerCycles : Word
  /-- how the last power-off came about, byte 0 of 0x9003 (R390); MRAM: DESIGN CHOICE 0 -/
  lastOff : Byte
  deriving DecidableEq, Repr

/-- A start in progress (R42, R43). -/
structure StartReq where
  requested : StartKind
  performed : StartKind
  /-- cause of a cold substitution, coded as byte 2 of 0x1002 (R390) -/
  cause : Byte
  /-- TBU count of the entry into START -/
  entered : Nat
  /-- the cold start was forced by R47 (R44) -/
  forced : Bool
  /-- the module was in RUN at the last commit that the start found (R44) -/
  wasRun : Bool
  deriving DecidableEq, Repr

/-- The cold-init tasks that a MODE_RUN runs (R91). -/
structure InitJob where
  h : Quad
  /-- what they store -/
  body : Body
  /-- TBU count of their start, and how many counts they take -/
  since : Nat
  need : Nat
  deriving DecidableEq, Repr

/-- A MODE_STOP or SHUTDOWN that waits for the stop publications of R49. -/
structure StopJob where
  h : Quad
  /-- the stop belongs to a SHUTDOWN (R53 step 2) -/
  shutdown : Bool
  deriving DecidableEq, Repr

/-- A SHUTDOWN in progress (R53). -/
structure ShutJob where
  h : Quad
  bist : BistOutcome
  /-- TBU count at which SERVICE was entered (step 4) -/
  entered : Nat
  deriving DecidableEq, Repr

/-- Modes, starts, events and host configuration (02_modes_and_starts.md, 20_register_map.md). -/
structure Sys where
  /-- SYS_MODE.MODE (R37); reset START -/
  mode : Mode
  /-- SYS_MODE.START_KIND (R37); reset 0b00 -/
  startKind : BitVec 2
  /-- SYS_MODE.SUBSTATE (R37); reset 0 -/
  substate : BitVec 4
  /-- SYS_MODE.HALT_CAUSE (R37); reset 0x00; MRAM (R389, R51) -/
  haltCause : Byte
  /-- SYS_MODE.LOCKSTEP_BROKEN (R37, R41); reset 0; MRAM -/
  lockstepBroken : Bool
  /-- SYS_MODE.HALT_LATCHED (R37, R47); reset 0; MRAM -/
  haltLatched : Bool
  /-- SYS_MODE.COLD_SUBSTITUTED (R37, R43); reset 0 -/
  coldSubstituted : Bool
  /-- operating times in ms of the failed warm starts that still count (R47); MRAM; reset none -/
  warmFails : List Nat
  /-- operating times in ms of the failed cold starts that still count (R47); MRAM; reset none -/
  coldFails : List Nat
  /-- SYS_EVENT (R437); reset 0 -/
  event : Byte
  /-- SYS_EVENT_MASK; reset 0xFF -/
  eventMask : Byte
  /-- SYS_HOSTCFG.PROG_SEM; reset 1 -/
  progSem : Bool
  /-- SYS_HOSTCFG.PROG_W1C; reset 1 -/
  progW1c : Bool
  /-- SYS_HOSTCFG.LEGACY_WRITE; reset 1 -/
  legacyWrite : Bool
  /-- SYS_HOSTCFG.LOCK; reset 0 -/
  lock : Bool
  /-- SYS_LPAGE.PAGE; reset 0x000 -/
  lpage : BitVec 12
  /-- SYS_EPOCH.EPOCH, the handle epoch (R48); from MRAM, 0 as delivered -/
  epoch : BitVec 19
  /-- the start in progress; reset none -/
  start : Option StartReq
  /-- the MODE_RUN that waits for the earliest first latch point (R80); reset none -/
  runWait : Option Quad
  /-- the stop in progress (R49); reset none -/
  stopJob : Option StopJob
  /-- the shutdown in progress (R53); reset none -/
  shutJob : Option ShutJob
  /-- the ring pair served last by the round robin (R68); DESIGN CHOICE 31 -/
  served : Nat
  /-- the MODE_RUN whose cold-init tasks run (R91); reset none -/
  initRun : Option InitJob
  /-- kind and partition of the containers that failed verification at the last start and of which CONTAINER_LOAD has
  loaded none since (R46); reset none -/
  verifyFailed : List (Byte × Byte)
  /-- the number of the base tick in progress (R84); reset 0 -/
  baseTick : Word
  /-- TBU count of the start of the base tick in progress (R84); reset 0 -/
  tickAt : Nat
  /-- the base tick in progress is stretched to the next HL1 cycle (R85); reset false -/
  stretch : Bool
  deriving DecidableEq, Repr

/-- What the host paths hold (20_register_map.md). -/
structure HostSide where
  /-- MSI-X table, by 32-bit word 0 to 127 (R429, R436); reset: PCI Express Base Specification, vector control masked: PRESUMED -/
  msixTable : Tbl Word
  /-- MSI-X pending-bit array (R436); reset 0 -/
  pba : Word
  /-- capture of TBU_COUNT_LO by reading party: count, plant time in ns, network time in ns (R432); reset 0 -/
  tbuCap : Tbl (Nat × Int × Int)
  /-- capture of HYK_RAISED by reading party: written, dropped (R432); reset 0 -/
  hykCap : Tbl (Word × Word)
  /-- capture of a slot's CYCLES word by party and network: slot and six words (R274); reset none -/
  slotCap : Tbl (Option (Nat × List Word))
  /-- the legacy read latch: register offset and value (R441); reset none -/
  readLatch : Option (Nat × Word)
  /-- the legacy write latch: legacy address and low half (R441); reset none -/
  writeLatch : Option (BitVec 24 × BitVec 16)
  deriving DecidableEq, Repr

/-- A ring pair (R56 to R67). -/
structure Ring where
  /-- RING_CFG.BASE, in units of 64 bytes; reset 0x0000, from entry into START the geometry in force (R57, R67) -/
  base : BitVec 14
  /-- RING_CFG.DEPTH_LOG2; reset 0x8 -/
  depthLog2 : BitVec 4
  /-- RING_CFG.CMDSET; reset per R56 -/
  cmdset : BitVec 2
  /-- RING_CFG.OWNER; reset per R56 -/
  owner : BitVec 3
  /-- RING_CFG.ENABLED; reset 0 -/
  enabled : Bool
  /-- RING_STATUS.RESTARTED; reset 1 -/
  restarted : Bool
  /-- RING_STATUS.TAKEOVER; reset 0 -/
  takeover : Bool
  /-- RING_STATUS.REPLAY_DONE; reset 0 -/
  replayDone : Bool
  /-- RING_STATUS.DOORBELL_ERR; reset 0 -/
  doorbellErr : Bool
  /-- RING_STATUS.CONS_ERR; reset 0 -/
  consErr : Bool
  /-- RING_STATUS.ACCEPT_HELD; reset 0 -/
  acceptHeld : Bool
  /-- RING_STATUS.GEN; reset 0 -/
  gen : BitVec 16
  /-- RING_DOORBELL.CMD_PROD; reset 0 -/
  cmdProd : Word
  /-- RING_CMD_CONS.CMD_CONS; reset 0 -/
  cmdCons : Word
  /-- RING_CPL_PROD.CPL_PROD; reset 0 -/
  cplProd : Word
  /-- RING_CPL_CONS.CPL_CONS; reset 0 -/
  cplCons : Word
  /-- RING_IRQ.THRESH; reset 0x01 -/
  thresh : Byte
  /-- RING_IRQ.TIMER; reset 0 -/
  timer : BitVec 10
  /-- RING_IRQ.MASK; reset 0 -/
  mask : Bool
  /-- the sequence of the next acceptance (R61); MRAM; 1 as the first of an epoch -/
  seq : BitVec 40
  /-- undelivered records: index, TBU count when written, and whether they count toward the threshold, oldest first
  (R67, R155); reset none -/
  undelivered : List (Word × Nat × Bool)
  /-- indices of entries, not taken yet, that partition 1 submitted (R329); reset none -/
  from1 : List Word
  /-- records that wait for free completion slots: bytes, whether they count toward the threshold, and whether one is the
  last of a replay (R63, R73); reset none -/
  backlog : List (Bytes × Bool × Bool)
  /-- indices of entries that programs submitted and whose cycle has not published (R88); reset none -/
  subs : List Word
  deriving DecidableEq, Repr

/-- Progress of a journalled command (R32). -/
inductive Phase where
  /-- accepted; its commit is not journalled -/
  | accepted
  /-- begun, commit not journalled -/
  | executing
  /-- commit journalled with status and result -/
  | committed
  /-- DONE record written at a completion index -/
  | doneWritten
  deriving DecidableEq, Repr

/-- An entry of the acceptance journal (R30, R32, R73); MRAM. -/
structure JEntry where
  handle : Quad
  ring : Nat
  tag : Word
  /-- the opcode of version 2 that is performed -/
  opcode : BitVec 16
  flags : BitVec 16
  args : Bytes
  /-- TBU count at acceptance -/
  accepted : Nat
  /-- command ring index of the entry -/
  index : Word
  /-- the ring pair uses command set version 1 (R81) -/
  v1 : Bool
  phase : Phase
  status : BitVec 16
  result : Bytes
  /-- EXTENDED of the record -/
  extended : Bool
  /-- the single record of a class Q command (R29) -/
  combined : Bool
  /-- completion index of the written DONE record -/
  doneAt : Word
  /-- its commit was journalled before the start or takeover that will write the record: REPLAYED (R73) -/
  replay : Bool
  deriving DecidableEq, Repr

/-- Byte-addressed memories (R57, R443). -/
structure Mem where
  /-- ring memory, 1 MiB; an unlisted byte reads 0: DESIGN CHOICE -/
  ring : Tbl Byte
  /-- the legacy staging area, 64 MiB of DRAM, zeroed at a cold start (R443) -/
  staging : Tbl Byte
  /-- words of Shared SRAM, 8 MiB, as accesses by fabric address left them (R377, R379; log entry 81); an unlisted word reads
  0: DESIGN CHOICE -/
  sram : Tbl Quad
  /-- the accesses of the bank cycle in progress: its TBU count, the word, the bits set and cleared through aliases -/
  bankCycle : Option (Nat × Nat × Quad × Quad)
  /-- the copy of ring memory and Shared SRAM that an on-demand self-test restores (R424); reset none -/
  saved : Option (Tbl Byte × Tbl Quad)
  deriving DecidableEq, Repr

/-- A slot of a Heathline schedule (R269). -/
structure SlotDesc where
  slot : Nat
  kind : Byte
  node : Byte
  /-- S_i of the inbound part in ns, none for 0xFFFF_FFFF -/
  inOff : Option Nat
  /-- S_i of the outbound part in ns, none for 0xFFFF_FFFF -/
  outOff : Option Nat
  len : Nat
  trailer : Bool
  sizeClass : Byte
  deriving DecidableEq, Repr

/-- A Heathline schedule (R269). -/
structure Schedule where
  ident : Word
  gen : Byte
  netId : Byte
  cycleNs : Nat
  slots : List SlotDesc
  /-- the reserved bytes and bits of header and descriptors are 0 (R270) -/
  clean : Bool
  /-- header bytes 4 to 15 and all descriptors, over which SCHEDULE_ID is formed -/
  body : Bytes
  deriving DecidableEq, Repr

/-- An image segment as the configuration set declares it (R114, R116). -/
structure Segment where
  isOut : Bool
  /-- 0 HL1, 1 HL2, 2 local -/
  source : Byte
  /-- station address, or group -/
  station : Nat
  index : Nat
  slot : Nat
  size : Nat
  /-- 0 LAST, 1 CONFIGURED, 2 ZERO -/
  subst : Byte
  substOff : Nat
  imageOff : Nat
  deriving DecidableEq, Repr

/-- A configured station (R114). -/
structure StationCfg where
  net : Net
  addr : Nat
  failLimit : Nat
  returnLimit : Nat
  respLimit : Nat
  coldStart : Bool
  deriving DecidableEq, Repr

/-- A field channel of the configuration set (R114). -/
structure ChanCfg where
  mode : Byte
  type : Byte
  filter : Byte
  edge : Byte
  deriving DecidableEq, Repr

/-- The geometry of a ring pair in the configuration set (R114). -/
structure RingGeo where
  depthLog2 : Byte
  cmdset : Byte
  base : BitVec 16
  deriving DecidableEq, Repr

/-- An entry of the routing table (R324). -/
structure Route where
  srcPort : Byte
  dstPort : Byte
  transform : Byte
  valid : Bool
  cont : Bool
  srcId : Word
  srcMask : Word
  dstId : Word
  deriving DecidableEq, Repr

/-- A context of the configuration set (R114, R328). -/
structure CtxCfg where
  owner : Byte
  credits : Nat
  timeoutMs : Nat
  deriving DecidableEq, Repr

/-- A semaphore of the configuration set (R341). -/
structure SemCfg where
  /-- 0 HL1, 1 HL2, 0xFF none -/
  net : Byte
  station : Nat
  holdMs : Nat
  deriving DecidableEq, Repr

/-- A remote window (R343). -/
structure WindowCfg where
  base : Nat
  size : Nat
  partition : Byte
  net : Byte
  station : Nat
  ctx : Nat
  normal : Bool
  volatile : Bool
  posted : Bool
  remote : Nat
  deriving DecidableEq, Repr

/-- A UDP endpoint (R347). -/
structure EndpointCfg where
  localPort : Nat
  remotePort : Nat
  remote : Bytes
  deriving DecidableEq, Repr

/-- An activation group (R408). -/
structure GroupCfg where
  number : Byte
  net : Byte
  members : BitVec 256
  deriving DecidableEq, Repr

/-- A configuration set (R114). -/
structure ConfigSet where
  setId : Word
  build : Word
  /-- items of PARAMETERS by ID × 65,536 + index, absent where the default holds -/
  params : Tbl (Option Quad)
  rings : List RingGeo
  channels : List ChanCfg
  sched1 : Option Schedule
  sched2 : Option Schedule
  segments : List Segment
  stations : List StationCfg
  substitutes : Bytes
  routing : List Route
  contexts : List CtxCfg
  semaphores : List SemCfg
  windows : List WindowCfg
  endpoints : List EndpointCfg
  groups : List GroupCfg
  deriving DecidableEq, Repr

/-- The configuration sets (R114, R115). -/
structure Cfg where
  /-- the set stored in the NOR flash (R402); none as delivered: DESIGN CHOICE -/
  stored : Option Bytes
  /-- the set in force; reset the defaults of R114 -/
  cur : ConfigSet
  /-- the parts in force that a stored set changes only at a start: geometry (R115) -/
  rings : List RingGeo
  deriving DecidableEq, Repr

/-- A task of a container (R97). -/
structure TaskDecl where
  task : Nat
  type : Byte
  priority : Nat
  policy : Byte
  periodUs : Nat
  offsetUs : Nat
  stack : Nat
  parent : Nat
  deriving DecidableEq, Repr

/-- A variable of a container (R98). -/
structure VarDecl where
  id : Word
  type : Byte
  cls : Byte
  forceable : Bool
  reinit : Bool
  inBound : Bool
  outBound : Bool
  exported : Bool
  offset : Nat
  count : Nat
  size : Nat
  commitTask : Nat
  parent : Word
  init : Word
  deriving DecidableEq, Repr

/-- An image mapping of a container (R100). -/
structure MapDecl where
  var : Word
  isOut : Bool
  source : Byte
  /-- station address or channel number -/
  station : Nat
  byteOff : Nat
  bitOff : Nat
  task : Nat
  bits : Nat
  stop : Quad
  deriving DecidableEq, Repr

/-- A loaded program container (R93 to R100) with the present values of its variables. -/
structure Container where
  kind : Byte
  /-- the partition it is loaded into -/
  part : Byte
  id : Word
  build : Word
  paramDigest : BitVec 256
  retLayout : Word
  perLayout : Word
  digest : BitVec 256
  /-- the CODE and CONST sections -/
  code : Bytes
  constData : Bytes
  tasks : List TaskDecl
  vars : List VarDecl
  maps : List MapDecl
  expIds : List Word
  /-- loaded by CONTAINER_LOAD since the last start (R91) -/
  fresh : Bool
  /-- the value of each variable -/
  vals : List (Word × Bytes)
  deriving DecidableEq, Repr

/-- A force (R105). -/
structure Force where
  var : Word
  elem : Word
  isOut : Bool
  value : Bytes
  deriving DecidableEq, Repr

/-- A retentive commit in an MRAM bank (R102). -/
structure Commit where
  seq : Quad
  /-- CONTAINER_ID, RET_LAYOUT, PER_LAYOUT of every loaded container -/
  layouts : List (Word × Word × Word)
  digests : List (BitVec 256)
  forces : List Force
  /-- the module was in RUN at the commit (R44) -/
  inRun : Bool
  /-- container identity, variable, value -/
  vals : List (Word × Word × Bytes)
  deriving DecidableEq, Repr

/-- A commit that falls due: its tasks and the values at their publish points (R102). -/
structure CommitJob where
  tasks : List Nat
  commit : Commit
  deriving DecidableEq, Repr

/-- An on-line change in progress (R107). -/
structure Olc where
  h : Quad
  /-- SYS_OLC.PHASE -/
  phase : BitVec 3
  /-- the longest-period task has published in phase 3, so that tasks are held (R107) -/
  drained : Bool
  /-- TBU count of the start of phase 4 -/
  switchAt : Nat
  part : Byte
  next : Container
  /-- the new build's bytes, for the flash -/
  image : Bytes
  dropForces : Bool
  desc : Bytes
  /-- carried data in KiB (R109) -/
  carriedKib : Nat
  deriving DecidableEq, Repr

/-- Containers, variables, forces, commits and the on-line change (04_cyclic_execution.md). -/
structure Prog where
  /-- the loaded safety container; reset none -/
  safety : Option Container
  /-- the loaded standard container of partition 0; reset none -/
  std0 : Option Container
  /-- the loaded standard container of partition 1; reset none -/
  std1 : Option Container
  /-- containers in the NOR flash (R402): kind, partition, bytes; none as delivered: DESIGN CHOICE -/
  flash : List (Byte × Byte × Bytes)
  /-- the force table, in order of variable ID and element (R105); reset empty -/
  forces : List Force
  /-- MRAM commit bank 0 (R102); as delivered none -/
  bank0 : Option Commit
  /-- MRAM commit bank 1 (R102); as delivered none -/
  bank1 : Option Commit
  /-- the bank written last is bank 1 -/
  last1 : Bool
  /-- sequence of the last commit made (R103); from MRAM: 0 as delivered -/
  commitSeq : Quad
  /-- commits due that wait (R102); reset none -/
  due : List CommitJob
  /-- the commit being written (R102); reset none -/
  writing : Option CommitJob
  /-- COMMIT_LATE (R102); reset 0 -/
  commitLate : Word
  /-- a FORCE_SET or FORCE_CLEAR whose points are still to come: handle, and task with false for its latch point, true
  for its publish point (R106); reset none -/
  forceJob : Option (Quad × List (Nat × Bool))
  /-- a PERSISTENT_RESET that waits for its commit, with the container's identity (R102); reset none -/
  persistWait : Option (Quad × Word)
  /-- the on-line change in progress (R107); reset none -/
  olc : Option Olc
  /-- SYS_OLC.PASSES; reset 0 -/
  passes : Byte
  /-- SYS_OLC.PARTITION; reset 0 -/
  olcPart : Bool
  /-- SYS_OLC.CHANGES; reset 0 -/
  changes : BitVec 16
  deriving DecidableEq, Repr

/-- An error-task event (R92, R103). -/
structure ErrEvent where
  kind : BitVec 16
  /-- network or group -/
  net : Byte
  /-- station or channel -/
  station : Byte
  data : Word
  count : Nat
  deriving DecidableEq, Repr

/-- What a runtime call returned: return code, results, bytes copied to the caller's buffer (R103). -/
structure RtReturn where
  code : Word
  results : List Quad
  buffer : Bytes
  deriving DecidableEq, Repr

/-- A cyclic task (R83 to R92). -/
structure Task where
  /-- the task is declared by a loaded container -/
  present : Bool
  /-- SYS_TASKSTAT.STATE; reset 0 -/
  state : BitVec 3
  /-- SYS_TASKSTAT.POLICY; reset 0 -/
  haltPolicy : Bool
  /-- SYS_TASKSTAT.PRIORITY; reset 0 -/
  priority : BitVec 4
  /-- SYS_TASKSTAT.OVERRUN; reset 0 -/
  overrun : Bool
  /-- SYS_TASKSTAT.STRETCHED; reset 0 -/
  stretched : Bool
  /-- SYS_TASKSTAT.OVERRUNS; reset 0 -/
  overruns : BitVec 16
  /-- SYS_TASKTIME.LAST_NS; reset 0 -/
  lastNs : Word
  /-- SYS_TASKMAX.MAX_NS; reset 0 -/
  maxNs : Word
  /-- TBU count of the last latch point -/
  latchAt : Nat
  /-- base tick number of the last latch point -/
  latchTick : Word
  /-- TBU count of the latch point that falls in the period in progress; none once it has fallen (R86) -/
  due : Option Nat
  /-- a body runs, between latch point and publish point -/
  running : Bool
  /-- the error task runs before the body (R92) -/
  errRuns : Bool
  /-- version number of Current (R119); none when no version is held -/
  cur : Option Word
  /-- version number of Previous (R119) -/
  prev : Option Word
  /-- kept events, at most 63 ordinary ones (R92) -/
  events : List ErrEvent
  /-- events lost to the overflow event, and the TBU count at which the first of them arose (R92) -/
  lost : Nat
  lostAt : Nat
  /-- the stop publication of R49 has been made -/
  stopped : Bool
  /-- latched at least once since RUN was entered -/
  latched : Bool
  /-- latch points skipped in the running cycle (R89) -/
  skipped : Nat
  /-- held by an on-line change, a role swap or a recovery (R107, R183) -/
  held : Bool
  /-- a latch point fell while the task was held -/
  heldLatch : Bool
  /-- TBU count of the first latch point held or skipped without being an overrun (R107, R183) -/
  heldAt : Nat
  /-- ordinary events, and whether the overflow event, that the last latch point dispatched and that are unread (R92) -/
  dispatched : Nat
  dispLost : Bool
  /-- a stretch that event 0x0006 will carry, in µs -/
  stretchUs : Nat
  /-- entries submitted in the cycle, whose doorbells are written at the publish point: ring pair and index (R88) -/
  doorbells : List (Nat × Word)
  /-- consumer indices to write at the publish point (R180) -/
  consumers : List (Nat × Word)
  /-- a FAULT_RAISE or refused access calls for HALT after the publish point: the cause (R103, R192) -/
  haltAfter : Option Byte
  /-- bytes of the export window the task holds (R159) -/
  expHeld : Bytes
  /-- the first cycle after an on-line change runs (R103) -/
  firstAfterChange : Bool
  /-- the body in progress is one of R183: re-executed, or latched at the end of recovery -/
  reexec : Bool
  /-- the body in progress is a re-execution on the checkpoint (R180, R181) -/
  rerun : Bool
  /-- an on-line change has switched and the task has not latched since (R103, event 0x0007) -/
  changeDue : Bool
  /-- completion records written before the latch point, per ring pair: the producer index at the latch point (R77) -/
  seenProd : List (Nat × Word)
  /-- a cycle mirror of the task awaits its acknowledgement (R304) -/
  unacked : Option Quad
  /-- the latch point waits for the mirror acknowledgement (R304) -/
  mirrorWait : Bool
  /-- what the last runtime call returned -/
  ret : RtReturn
  /-- what the last load through a remote window returned to the lane (R344) -/
  loaded : Bytes
  deriving DecidableEq, Repr

/-- An input segment (R119, R130). -/
structure InSeg where
  /-- unforced contents of the latest buffer (R136) -/
  raw : Bytes
  /-- payload of the last frame that passed R125, also while the segment is substituted (R133) -/
  last : Bytes
  valid : Bool
  subst : Bool
  /-- channel of that frame -/
  lastSrc : BitVec 2
  /-- quality SOURCE: 0 channel A, 1 channel B, 2 local, 3 none -/
  source : BitVec 2
  /-- quality AGE, saturating at 15 -/
  age : BitVec 4
  /-- a valid frame has ever been delivered (R132) -/
  everGood : Bool
  /-- TBU count of the last valid frame (R121) -/
  goodAt : Nat
  /-- quality SUPPLY_LOW of a local segment -/
  supplyLow : Bool
  deriving DecidableEq, Repr

/-- A frozen version of the input image (R120): bytes and quality word of each input segment, in directory order. -/
structure Version where
  num : Word
  at_ : Nat
  tick : Word
  segs : List (Bytes × BitVec 16)
  deriving DecidableEq, Repr

/-- The state of a station in Sward (SWD_STN_k_n). -/
structure Station where
  /-- STATE: 0 not configured, 1 live, 2 failed, 3 returning -/
  state : BitVec 2
  /-- MISSED -/
  missed : BitVec 4
  /-- FAILS, modulo 2⁸ -/
  fails : Byte
  /-- UNDELIVERED, saturating -/
  undelivered : BitVec 16
  /-- consecutive good cycles counted toward the return (R133) -/
  good : Nat
  /-- declared failed, so that event 0x0003 is due at a fixing point (R134) -/
  declared : Bool
  /-- tasks to which event 0x0003 has been raised since the declaration -/
  told : List Nat
  /-- a slot of the running cycle was missed, a slot was received good -/
  missNow : Bool
  goodNow : Nat
  deriving DecidableEq, Repr

/-- The process-image engine (05_sward_process_image.md). -/
structure Swd where
  /-- input segments by directory index; reset empty buffers -/
  ins : Tbl InSeg
  /-- Writing buffer of each output segment, by directory index -/
  writing : Tbl Bytes
  /-- Sending buffer of each output segment -/
  sending : Tbl Bytes
  /-- Fixed buffer of each output segment -/
  fixed : Tbl Bytes
  /-- versions held by tasks or the host, or most recent, newest first -/
  versions : List Version
  /-- SWD_BANKSTAT.LIVE_MAX; reset 0 -/
  liveMax : BitVec 6
  /-- SWD_BANKSTAT.BUFFERS, B of R124; reset 0 -/
  buffers : BitVec 6
  /-- SWD_BANKSTAT.REFUSED_CFG; reset 0 -/
  refusedCfg : Bool
  /-- SWD_VERSION.VERSION; reset 0 -/
  version : Word
  /-- SWD_SNAPLOCK.PIN; reset 0 -/
  pin : Bool
  /-- the pinned version: SWD_SNAPLOCK.PINNED and SWD_SNAPVER; reset none -/
  pinned : Option Word
  /-- SWD_UNDO.COUNT; reset 0 -/
  undo : Word
  /-- a version has been promoted since entry into START (R139) -/
  promoted : Bool
  /-- stations by network (HL2 adds 256) and address -/
  stations : Tbl Station
  /-- tasks that have published each output segment, by directory index (R134) -/
  publishers : Tbl (List Nat)
  deriving DecidableEq, Repr

/-- The states of a triad lane (R160). -/
inductive LaneState where | inVote | selfTest | resync | excluded | permanent
  deriving DecidableEq, Repr

/-- The two tightly coupled memories of a lane, 1 MiB each, by the division of R141: what commands put there. Stacks (data,
0x0E_0000 to 0x0F_7FFF) and the carried-register save area hold what lane code leaves, which no command shows (log entry
80). While no safety container is loaded they are held with their contents zero (R369). -/
structure Tcm where
  /-- code, 0x00_0000 to 0x0D_FFFF: the CODE section, then CONST -/
  code : Bytes
  /-- code, 0x0E_0000 to 0x0F_FFFF: the runtime of the trusted firmware, by its version -/
  runtime : BitVec 16
  /-- data, 0x00_0000 to 0x0D_FFFF: the variables by ID -/
  vars : List (Word × Bytes)
  /-- data, 0x0F_8000 to 0x0F_8FFF: the constants by index (R244) -/
  consts : Tbl Quad
  /-- data, 0x0F_9000 to 0x0F_CFFF: the connection table, items by number (R244) -/
  connTab : List (Nat × Quad)
  deriving DecidableEq, Repr

/-- A lane of the Safety Triad. -/
structure Lane where
  /-- its tightly coupled memories (R140) -/
  tcm : Tcm
  /-- the partial self-test has destroyed their contents (R161), which are open until they are loaded or copied afresh;
  reset false -/
  destroyed : Bool
  /-- the commit signature, as the lane presented it last (R150); DESIGN CHOICE 0 -/
  commit : BitVec 256
  /-- the region signature, as of the last publish request, load or copy (R151); DESIGN CHOICE 0 -/
  region : BitVec 256
  /-- state (R160); EXCLUDED and PERMANENT from MRAM (R164); DESIGN CHOICE inVote as delivered -/
  state : LaneState
  /-- TRI_LANE.CORRECTED, saturating; reset 0 -/
  corrected : Byte
  /-- operating times in ms of transient readmissions in the 24 h window: TRANSIENTS; MRAM -/
  transients : List Nat
  /-- operating times in ms of exclusions in the 1,000 h window: EXCLUSIONS; MRAM -/
  exclusions : List Nat
  /-- TBU count at which SELF_TEST, then RESYNC, was entered -/
  since : Nat
  /-- kind of the mismatch that took the lane out -/
  kind : BitVec 4
  /-- the background copy has completed (R162) -/
  copied : Bool
  /-- readmitted, IN_VOTE from the next latch point or base tick (R160) -/
  ready : Bool
  deriving DecidableEq, Repr

/-- What the Agreement Exchange holds frozen for a cycle of task 0 (R155). -/
structure Exchange where
  tick : Word
  count : Nat
  version : Word
  overruns : BitVec 16
  plant : Int
  net : Int
  commitSeq : Quad
  commitLate : Word
  handover : Bytes
  /-- events lost to the overflow event, and when the first arose -/
  lost : Nat
  lostAt : Nat
  deriving DecidableEq, Repr

/-- Triple storage, read by majority (R154). -/
structure Triple where
  a : Exchange
  b : Exchange
  c : Exchange
  deriving DecidableEq, Repr

/-- The Safety Triad (06_safety_triad.md). -/
structure Tri where
  lane0 : Lane
  lane1 : Lane
  lane2 : Lane
  /-- TRI_STATE.VOTER_FAULT; reset 0 -/
  voterFault : Bool
  /-- TRI_STATE.DEBUG; reset 0 -/
  debug : Bool
  /-- the voter's release gate is closed (R169, R171); reset false -/
  gateClosed : Bool
  /-- TRI_MISMATCH.LAST_LANE; reset 0b11 -/
  lastLane : BitVec 2
  /-- TRI_MISMATCH.LAST_KIND; reset 0 -/
  lastKind : BitVec 4
  /-- TRI_MISMATCH.COUNT; reset 0 -/
  mismatches : BitVec 16
  /-- TRI_MISTICK.TICK; reset 0 -/
  misTick : Word
  /-- the mandatory-repair timer: operating time in ms at which it expires; MRAM; none when not running (R255) -/
  repairEnd : Option Nat
  /-- the whole time of the running timer in ms -/
  repairSpan : Nat
  /-- the lane for which the timer started -/
  repairLane : Byte
  /-- milestones recorded: 0, 1 half, 2 nine tenths (R255) -/
  repairStage : Nat
  /-- TRI_VOTERTEST.PASSES; reset 0 -/
  passes : Word
  /-- the latest export buffer, 2,048 bytes (R159); reset empty, read as zeros -/
  expLatest : Tbl Byte
  /-- the export buffer being written (R159) -/
  expFilling : Tbl Byte
  /-- the publish request of the running cycle of task 0 has been released (R149) -/
  publishOk : Bool
  /-- safety cycles, else base ticks, since the last scrub pass ended (R153); reset 0 -/
  scrub : Nat
  /-- the Agreement Exchange -/
  xchg : Triple
  deriving DecidableEq, Repr

/-- The Control Pair (07_control_pair.md). -/
structure Cpr where
  /-- CPR_STATE.RECOVERY; reset 0 -/
  recovery : BitVec 2
  /-- CPR_STATE.EXCLUDED; from MRAM: DESIGN CHOICE 0 -/
  excluded : BitVec 2
  /-- CPR_STATE.PERMANENT; from MRAM: DESIGN CHOICE 0 -/
  permanent : BitVec 2
  /-- split mode is in force (R186); reset false -/
  split : Bool
  /-- CPR_MISMATCH.LAST_KIND; reset 0 -/
  lastKind : BitVec 4
  /-- CPR_MISMATCH.REEXECS, saturating; reset 0 -/
  reexecs : Byte
  /-- CPR_MISMATCH.COUNT; reset 0 -/
  mismatches : BitVec 16
  /-- CPR_MISTICK.TICK; reset 0 -/
  misTick : Word
  /-- CPR_CHKPT.LOG_MAX_KIB; reset 0 -/
  logMax : BitVec 14
  /-- CPR_CHKPT.CHKPT_OVF, saturating; reset 0 -/
  chkptOvf : BitVec 16
  /-- CPR_LANE_0.CORRECTED, saturating; reset 0 -/
  corrected0 : BitVec 16
  /-- CPR_LANE_1.CORRECTED, saturating; reset 0 -/
  corrected1 : BitVec 16
  /-- operating times in ms of exclusions of P0 in the 1,000 h window; MRAM -/
  exclusions0 : List Nat
  /-- operating times in ms of exclusions of P1 in the 1,000 h window; MRAM -/
  exclusions1 : List Nat
  /-- CPR_L2.L2_CORRECTED, saturating; reset 0 -/
  l2Corrected : BitVec 16
  /-- CPR_L2.DRAM_CORRECTED, saturating; reset 0 -/
  dramCorrected : BitVec 16
  /-- TBU count of the last DRAM patrol pass (R427); reset 0 -/
  patrolAt : Nat
  /-- TBU count at which SELF_TEST was entered (R183) -/
  since : Nat
  /-- the handover area in the Control Pair's address map (R157, R188), 4 KiB -/
  handover : Tbl Byte
  /-- the handover copy of the last publish point: TBU count, task, bytes (R157); reset zero -/
  handCopy : Nat × Byte × Tbl Byte
  deriving DecidableEq, Repr

/-- The dual-channel pair states (R210). -/
inductive PairState where | off | rising | on | falling | fault
  deriving DecidableEq, Repr

/-- The test or pulse that a cell runs (R226). -/
inductive TestPhase where | idle | offH | offL | darkH | darkL
  deriving DecidableEq, Repr

/-- The cell beyond the coupler (R194, R199, R203 to R207, R215 to R222). -/
structure Cell where
  /-- the cell has supply and sends (R204): DESIGN CHOICE false -/
  powered : Bool
  /-- mode, type, edge, filter, pulse, keep-alive and hold time of the configuration block in force (R222) -/
  mode : BitVec 4
  type3 : Bool
  edge : BitVec 2
  filter : BitVec 4
  pulse : Byte
  keepOff : Bool
  holdMs : BitVec 16
  /-- a configuration block has been applied since the cell's start (R222) -/
  configured : Bool
  /-- bytes of the block being received and the block received in the 16 ticks before (R222) -/
  rxBlock : Bytes
  prevBlock : Bytes
  /-- the raw sample and its run length toward the filter (R205) -/
  raw : Bool
  run : Nat
  /-- the filtered level (R205) -/
  filt : Bool
  /-- M at the last sample, in the output modes (R219) -/
  mLevel : Bool
  /-- READBACK at the last sample (R224); high side, low side closed, M, DEFERRED at it (R224, log entry 74) -/
  readback : Bool
  shot : BitVec 4
  /-- CELL_RESTARTED is due until a frame has been valid (R204) -/
  restarted : Bool
  /-- the supply measured since the cell stopped sending below 12.0 V (R204) -/
  seenSupply : Option Byte
  /-- COUNT (R207) -/
  count : BitVec 16
  /-- frames that still carry COUNT_RATE (R207) -/
  rate : Nat
  /-- INPUT_TEST_FAIL of the most recent input-stage test (R212) -/
  testFail : Bool
  /-- ticks since the tick that the 256 ticks of R212 count from -/
  stageTicks : Nat
  /-- the high-side switch is closed -/
  hi : Bool
  /-- the low-side switch is closed -/
  lo : Bool
  /-- OUT of the last valid command frame -/
  out : Bool
  /-- the test phase or pulse the cell runs, the TBU count of its start, and its width in 25 µs (R226) -/
  test : TestPhase
  testAt : Nat
  testUnits : Nat
  /-- switch-on deferred to the end of the phase (R229) -/
  deferred : Bool
  /-- the cell's own latched EVENT code (R224): 2 to 4, 6, 7 -/
  ownLatch : BitVec 3
  /-- event 1 or 5 of the phase that ended (R224) -/
  phaseEvent : BitVec 3
  /-- the current stood at its limit at the last sample, and on how many consecutive samples (R217) -/
  atLimit : Bool
  limitRun : Nat
  /-- consecutive samples with P at 1 while off, P at 0 while on, supply below 16.0 V (R232, R235) -/
  stuckRun : Nat
  openRun : Nat
  uvRun : Nat
  /-- TBU count of the last switch-on from the off state (R216) -/
  onSince : Nat
  /-- TBU count of the last valid command frame (R236) -/
  lastValid : Nat
  /-- TBU count of the overload that opened the high side of a standard output, none when closed or not overloaded (R232) -/
  reclose : Option Nat
  /-- LOW_OPEN holds the low side open (R221) -/
  lowOpen : Bool
  /-- tick sequence the cell expects -/
  seq : BitVec 4
  /-- supply measured at the last sample, cell overtemperature -/
  supply : Byte
  overTemp : Bool
  /-- the configuration block in force, 16 bytes (R222) -/
  inForce : Bytes
  /-- a valid command frame has arrived since the last sample (R198) -/
  gotCmd : Bool
  deriving DecidableEq, Repr

/-- The logic side of a channel (R195 to R214, R223 to R236). -/
structure Channel where
  /-- FLD_CH.MODE; reset 0 -/
  mode : BitVec 4
  /-- FLD_CH.TYPE; reset 0 -/
  type3 : Bool
  /-- FLD_CH.FILTER; reset 0x5 -/
  filter : BitVec 4
  /-- FLD_CH.EDGE; reset 0 -/
  edge : BitVec 2
  /-- FLD_CH.COUPLER_LOST (R201); reset 0 -/
  couplerLost : Bool
  /-- FLD_CH.CELL_FAULT (R212); reset 0 -/
  cellFault : Bool
  /-- FLD_CH.INVALID, saturating; reset 0 -/
  invalid : BitVec 16
  /-- consecutive invalid, consecutive valid frames (R201) -/
  badRun : Nat
  goodRun : Nat
  /-- a valid frame was received in this tick; a frame was judged in this tick -/
  validNow : Bool
  judged : Bool
  /-- RAW, FILT, READBACK, CELL_RESTARTED, COUNT, DIAG of the last valid frame (R199) -/
  raw : Bool
  filt : Bool
  readback : Bool
  restarted : Bool
  count : BitVec 16
  diag : Byte
  supply : Byte
  /-- high side, low side closed, M, DEFERRED of the last valid frame (R224, log entry 74) -/
  outStat : BitVec 4
  /-- consecutive ticks with INPUT_TEST_FAIL at 1, at 0 (R212) -/
  failTicks : Nat
  passTicks : Nat
  /-- FLD_OUT.CMD, the command sent in the last tick; reset 0 -/
  cmd : Bool
  /-- FLD_OUT.LATCHES, latch classes (R233); reset 0 -/
  latches : Byte
  /-- FLD_OUT.OFFSET; reset 0 -/
  offset : BitVec 4
  /-- FLD_OUT.PULSE; reset 0x08 -/
  pulse : BitVec 6
  /-- FLD_OUT.PERIOD; reset 0x064 -/
  period : BitVec 10
  /-- FLD_TSCHED, FLD_TEXEC, FLD_TABORT (R230); reset 0 -/
  tsched : Word
  texec : Word
  tabort : Word
  /-- TBU count at which the next test falls due (R226); none when untested -/
  due : Option Nat
  /-- the phase under way or awaited: the test in progress (R226) -/
  test : TestPhase
  /-- `test` is the second phase of a test and awaits its slot -/
  second : Bool
  /-- a due test awaits the next slot of the channel's offset (R226) -/
  await : Bool
  /-- the command went to 1 during off-test phase H (R229) -/
  demand : Bool
  /-- a phase or pulse ran in the running slot; the channel's frames and command allow R231 in it -/
  slotTest : Bool
  slotOk : Bool
  /-- the test of an acknowledgement has ended, and whether it passed (R234) -/
  testDone : Option Bool
  /-- the test in progress was requested by SAFETY_ACK: handle and mask (R234) -/
  ackTest : Option (Quad × Byte)
  /-- OPEN_LOAD of the last off-test (R224) -/
  openLoad : Bool
  /-- the command must be 0 for a tick before the output switches on again (R234) -/
  needOff : Bool
  /-- UNDERVOLTAGE of a standard output awaits a command of 0 (R235) -/
  uvWait : Bool
  /-- RAW at the start of the running test slot, and whether it changed (R231) -/
  slotRaw : Bool
  slotMoved : Bool
  /-- LATCH_CLR is sent with the next frame -/
  latchClr : Bool
  /-- mode 0x8 in FOLLOW: TBU count of the last announcement, whether it was of a second phase, and in how many consecutive
  tests the first and the second pulse were not seen (R238) -/
  annAt : Nat
  annSecond : Bool
  missFirst : Nat
  missSecond : Nat
  /-- the configuration block being sent (R222) -/
  block : Bytes
  deriving DecidableEq, Repr

/-- A dual-channel pair (R209, R210). -/
structure DualPair where
  /-- FLD_DISC.STATE; reset OFF -/
  state : PairState
  /-- FLD_DISC.TIMER; reset 0 -/
  timer : BitVec 16
  /-- FLD_DISC.STEPS; reset 0x064 -/
  steps : BitVec 11
  /-- the discrepancy time from the next channel tick on (R247); reset 0x064 -/
  nextSteps : BitVec 11
  /-- FLD_DISC.ANTIVALENT; reset 0 -/
  antivalent : Bool
  /-- the timer runs -/
  running : Bool
  /-- DISCREPANCY is latched (R210) -/
  discrepancy : Bool
  /-- SAFE of the pair in the last evaluated tick -/
  safe : Bool
  deriving DecidableEq, Repr

/-- A group (R194, R235). -/
structure Group where
  /-- FLD_GROUP.SUPPLY; reset 0 -/
  supply : Byte
  /-- FLD_GROUP.SUPPLY_LOW; reset 0 -/
  supplyLow : Bool
  /-- FLD_GROUP.CELLS_VALID; reset 0 -/
  cellsValid : BitVec 16
  /-- FLD_OGRP.UV_LATCH; reset 0 -/
  uvLatch : Bool
  /-- FLD_OGRP.UV_TRIPS, saturating; reset 0 -/
  uvTrips : BitVec 16
  /-- consecutive ticks below 19.2 V, below 16.0 V, at 20.4 V or above (R235) -/
  lowTicks : Nat
  tripTicks : Nat
  okTicks : Nat
  /-- a cell of the group reported event 6 (R235) -/
  event6 : Bool
  deriving DecidableEq, Repr

/-- Field Link and the cells (08_field_inputs.md, 09_field_outputs.md). -/
structure Fld where
  chans : Tbl Channel
  cells : Tbl Cell
  pairs : Tbl DualPair
  groups : Tbl Group
  /-- FLD_LINK.TICKS; reset 0 -/
  ticks : Word
  /-- T_k + 40 µs of the running tick has passed (R198) -/
  deadline : Bool
  /-- every safety output is held off: voter fault, debug or HALT (R169, R171, R50) -/
  safetyOff : Bool
  /-- Field Link sends LOW_OPEN and transmits no more (R50) -/
  silent : Bool
  /-- TBU count of the last channel tick at which command frames were sent (R301) -/
  lastTick : Nat
  /-- the channels as the last channel tick found them, for a segment published on its count (R129) -/
  prior : Tbl Channel
  /-- a SAFETY_ACK whose off-tests run: handle, mask, channels, latches cleared so far (R234) -/
  ackJob : Option (Quad × Byte × List Nat × Nat)
  deriving DecidableEq, Repr

/-- Node states of R278, coded as HLA_NODE.STATE. -/
inductive NodeState where
  | off | listen | coldstart | wait | sync | observe | integrated | reference
  deriving DecidableEq, Repr

/-- The seven counters of a slot (R274). -/
structure SlotCnt where
  cycles : Word
  validA : Word
  invalidA : Word
  emptyA : Word
  validB : Word
  invalidB : Word
  emptyB : Word
  deriving DecidableEq, Repr

/-- What has arrived of a slot in the running cycle, per channel: 0 nothing, 1 valid, 2 invalid (R273), 3 its window has
ended. -/
structure SlotRx where
  a : BitVec 2
  b : BitVec 2
  deriving DecidableEq, Repr

/-- A delay request that the hub answers (R281): requester, sequence, receive times on the channels, the cycle of the
answer. -/
structure DelayAsk where
  addr : Byte
  seq : Byte
  t2a : Option Int
  t2b : Option Int
  due : Word
  deriving DecidableEq, Repr

/-- Delay measurement, upstream ports and the way into the network (R261, R281 to R288). -/
structure HlJoin where
  /-- the upstream port is port 2, by channel (R261); none while none is known -/
  upA : Option Bool
  upB : Option Bool
  /-- the upstream port from the next cycle on -/
  turnA : Option Bool
  turnB : Option Bool
  /-- nothing inbound is sent on the channel in this cycle (R261) -/
  muteA : Bool
  muteB : Bool
  /-- ports that received an OUTBOUND beacon in this cycle and in the previous one -/
  seenNow : BitVec 4
  seenPrev : BitVec 4
  /-- the delay requests in flight, at most the last two: t1 on the channels, sequence (R281, R285) -/
  asked : List (Int × Int × Byte)
  /-- the next sequence: DESIGN CHOICE 0 at start -/
  seq : Byte
  /-- as hub: requests to answer -/
  asks : List DelayAsk
  /-- COLDSTART of the network's cold start was seen; the start phase runs (R283) -/
  sawCold : Bool
  startPhase : Bool
  /-- the single step of R283 has been made -/
  stepped : Bool
  /-- estimates used by search requests, by channel (R285) -/
  tries : Nat
  triesB : Nat
  /-- the beacon from which a full valid cycle is observed: CYCLE, network time of its start, still clean (R287) -/
  observe : Option (Word × Int × Bool)
  /-- schedule time and arrival of an outbound frame of this cycle, by channel (R284) -/
  passA : Option (Int × Int)
  passB : Option (Int × Int)
  /-- channel B's copy of this cycle's BEACON was used: its frame start, and the network scale, lock and count of large
  offsets before it, for a copy on channel A at the same instant (R288) -/
  beatB : Option (Nat × Scale × Bool × Nat)
  deriving DecidableEq, Repr

/-- A Heathline controller (11, 12, 20: HLA_*, HLB_*). -/
structure HlNet where
  /-- HLA_CFG.GEN; reset 0 -/
  gen : BitVec 4
  /-- HLA_CFG.NET_ID; reset 0 -/
  netId : Byte
  /-- HLA_NODE.ADDRESS; from configuration: 1 by default (R114) -/
  addr : Byte
  /-- wiring form and use of port 2 (R259); reset 0 -/
  wiring : Byte
  port2 : Byte
  /-- the schedule in force (HLA_SCHED, HLA_CYCLE, HLA_CFG.SLOTS); reset none -/
  sched : Option Schedule
  /-- HLA_NODE.STATE; reset 0 -/
  state : NodeState
  /-- HLA_NODE.SCHED_MISMATCH; reset 0 -/
  mismatch : Bool
  /-- HLA_NODE.SEARCH; reset 0 -/
  search : Bool
  /-- HLA_NODE.ATTEMPT; reset 0; kept since power-up (R280) -/
  attempt : Byte
  /-- HLA_STATUS.SPLIT_A, SPLIT_B; reset 0 -/
  splitA : Bool
  splitB : Bool
  /-- HLA_STATUS.HUB; reset 0 -/
  hub : Bool
  /-- HLA_STATUS.HUB_ADDR; reset 0 -/
  hubAddr : Byte
  /-- HLA_STATUS.REF_ADDR; reset 0 -/
  refAddr : Byte
  /-- HLA_STATUS.EPOCH, the role epoch followed; reset 0 -/
  epoch : Byte
  /-- HLA_CYCNUM.CYCLE; reset 0 -/
  cycle : Word
  /-- TBU count of the start of the cycle in progress -/
  cycleAt : Nat
  /-- HLA_STRAY_A, HLA_STRAY_B, saturating; reset 0 -/
  strayA : Word
  strayB : Word
  /-- HLA_SLOT counters by slot; reset 0 -/
  counters : Tbl SlotCnt
  /-- what arrived in the running cycle, by slot -/
  rx : Tbl SlotRx
  /-- HLA_DELAY_A, HLA_DELAY_B: D in ns; none while none is held; reset none -/
  dA : Option Nat
  dB : Option Nat
  /-- results further off than 100 ns, one kept (R286) -/
  offA : Option Nat
  offB : Option Nat
  /-- HLA_GUARD: cycles of the refusals in the last 256 cycles; REFUSED_A, REFUSED_B, LEAVES -/
  refusals : List Word
  refusedA : Byte
  refusedB : Byte
  leaves : Byte
  /-- HLA_PORT: LINK_UP and MASTER by port, RING_RETURN by channel, LINK_DROPS -/
  linkUp : BitVec 4
  master : BitVec 4
  ringReturn : BitVec 2
  drops : Tbl (BitVec 16)
  /-- HLA_LOSS.LAST_CAUSE, LOSSES; reset 0 -/
  lossCause : BitVec 2
  losses : Byte
  /-- TBU count at which LISTEN, COLDSTART, WAIT or OBSERVE was entered or restarted -/
  since : Nat
  /-- a valid BEACON was received in this cycle; cycles in a row that closed without one (R293) -/
  beaconNow : Bool
  noBeacon : Nat
  /-- consecutive beacons with |θ| above G/4 (R293) -/
  bigTheta : Nat
  /-- delay measurement and joining -/
  join : HlJoin
  /-- the CLAIM this node makes: slot, cycles since (R294) -/
  claim : Option (Nat × Nat)
  /-- as hub: claims received: slot, address, consecutive cycles, cycle of the last (R294) -/
  claims : List (Nat × Byte × Nat × Word)
  /-- as hub: grants in force: slot, address, listings left, missed cycles (R295) -/
  grants : List (Nat × Byte × Nat × Nat)
  /-- the node's own grant (R295) -/
  own : Option Nat
  /-- grants of the last BEACON; slots that the node has stopped claiming (R294) -/
  listed : List (Nat × Byte)
  barred : List Nat
  /-- nodes that sent READY in this cycle and in the previous one (R266) -/
  readyNow : BitVec 256
  readyPrev : BitVec 256
  /-- copies of the own BEACON seen at port 2 in this cycle, by channel; cycles without one (R263) -/
  ringSeen : BitVec 2
  ringMissA : Nat
  ringMissB : Nat
  /-- network time, in ns, of the start of the cycle -/
  cycleTime : Int
  /-- the module takes part again since step 9 of the last start (R274) -/
  up : Bool
  /-- while not integrated: ports on which an own frame is sent, from and until which TBU count (R277) -/
  busy : List (Nat × Nat × Nat)
  deriving DecidableEq, Repr

/-- The duplex (13_duplex_redundancy.md). -/
structure Dpx where
  /-- SYS_DPX_ROLE.ROLE; reset 0 -/
  role : BitVec 2
  /-- SYS_DPX_ROLE.STANDBY; reset 0 -/
  standby : BitVec 2
  /-- SYS_DPX_ROLE.PHASE; reset 0 -/
  phase : BitVec 3
  /-- SYS_DPX_ROLE.EPOCH, the role epoch (R464); from MRAM, 0 at manufacture -/
  epoch : Byte
  /-- SYS_DPX_ROLE.OWN_CLAIM; reset 0 -/
  ownClaim : Bool
  /-- SYS_DPX_ROLE.PARTNER_CLAIM; reset 0 -/
  partnerClaim : Bool
  /-- SYS_DPX_ROLE.LANE_0, LANE_1; reset 0 -/
  lane0 : Bool
  lane1 : Bool
  /-- SYS_DPX_ROLE.INCOMPAT; reset 0 -/
  incompat : BitVec 4
  /-- SYS_DPX_MIRROR; reset 0 -/
  lastKib : BitVec 16
  maxKib : BitVec 16
  /-- SYS_DPX_STRETCH; reset 0 -/
  stretches : BitVec 16
  lags : BitVec 16
  /-- SYS_DPX_EXERCISE.HOURS as the operating ms of the last drive as active; MRAM -/
  droveAt : Nat
  /-- SYS_DPX_EXERCISE.DUE; reset 0 -/
  due : Bool
  /-- SYS_DPX_COUNT; from MRAM: DESIGN CHOICE 0 -/
  takeovers : BitVec 16
  swaps : BitVec 16
  /-- SYS_DPX_GAP.GAP_NS; reset 0 -/
  gapNs : Word
  /-- TBU count of the takeover decision whose gap is still to be measured -/
  decidedAt : Option Nat
  /-- the last heartbeat received and its TBU count; reset none -/
  lastBeat : Option HeartbeatMsg
  beatAt : Nat
  /-- the partner is in FOLLOW and heartbeats are seen -/
  partnerSeen : Bool
  /-- a module without heartbeat or claim of a partner is alone (R297) -/
  mseq : Quad
  /-- tasks that still have to acknowledge within their limit: phase 4, or LAGGING (R302, R318) -/
  catchUp : List Nat
  /-- DW_OFF of this module (R301) -/
  dwOff : Bool
  /-- mode 0x8 channels stay 0 until this TBU count (R311) -/
  dwHold : Nat
  /-- a planned swap waits for its boundary: the ROLE_SWAP handle, none for R166 and R185 (R315) -/
  swap : Option (Option Quad)
  /-- the longest-period task has published in the drain of a role swap (R315) -/
  swapDrained : Bool
  /-- on the standby: mode of the active at its last mirrored cycle (R38), sequence of the last mirror held -/
  partnerRun : Bool
  lastMirror : Quad
  /-- networks whose hub role is still to be taken after a takeover (R307), first BEACON cycles (R309) -/
  takeHub1 : Bool
  takeHub2 : Bool
  graceHl1 : Nat
  graceHl2 : Nat
  /-- this module sends a fault report in its heartbeats (R301) -/
  faultReport : Bool
  /-- TBU count at which the own claim was asserted (R299) -/
  claimAt : Nat
  /-- after a planned swap: the former active is IN_SYNC from the first mirror it acknowledges (R315) -/
  swapBack : Bool
  /-- on the standby, as mirrored (R303): posted writes without an answer; lane and pair states and minutes of the repair
  timer of the active -/
  posted : List PostedMirror
  partnerLanes : List (BitVec 3)
  partnerPair : BitVec 2
  partnerRepair : BitVec 16
  /-- the newest version mirrored, by directory index: sent on the active, held on the standby (R303, R310); reset none -/
  mirrored : Tbl (Bytes × BitVec 16)
  /-- on the standby: containers and sets of commands that have not committed, as they were sent (R107, R305, R320) -/
  staged : List MirrorItem
  /-- TBU counts of the entry into the phase and of the last heartbeat sent; reset 0 -/
  phaseAt : Nat
  beatSent : Nat
  /-- the exercise milestone recorded last, in operating hours since the last drive; 0 none (R316) -/
  milestone : Nat
  /-- the service-firmware state mirrored last (R303) -/
  stileSent : Option StileMirror
  deriving DecidableEq, Repr

/-- A context (STL_CTX_n, R328, R330, R337). -/
structure Ctx where
  /-- OWNER; per configuration -/
  owner : BitVec 3
  /-- CREDITS; per configuration -/
  credits : Nat
  /-- credits held by posted writes in flight or queued -/
  held : Nat
  /-- ERR; reset 0 -/
  err : Bool
  /-- FENCE_ALL; reset 0 -/
  fenceAll : Bool
  /-- fenced targets: network is HL2, station (FENCES) -/
  fences : List (Bool × Nat)
  /-- LOST, saturating; reset 0 -/
  lost : BitVec 10
  /-- targets of lost entries (R338) -/
  lostAt : List (Bool × Nat)
  /-- the write tag of the next posted write (R330); 1 after entry into START -/
  tag : Word
  deriving DecidableEq, Repr

/-- A remote request in a target's queue (R330, R333). -/
structure Req where
  ctx : Nat
  hl2 : Bool
  station : Nat
  /-- 1 read, 2 write, 3 posted write (R331) -/
  op : Byte
  tag : Word
  addr : Quad
  len : Nat
  data : Bytes
  /-- the STILE_TRANSFER that waits, none for a posted write already DONE or a window access -/
  h : Option Quad
  sent : Bool
  /-- network cycle in which it was sent -/
  cycle : Word
  /-- a busy answer has been received -/
  busy : Bool
  /-- a stalled window load that is issued again (R344): posted writes may pass it -/
  again : Bool := false
  /-- the output buffer descriptor of a read -/
  desc : Bytes
  /-- an access through a remote window (R344): task, window, TBU count of its start -/
  win : Option (Nat × Nat × Nat)
  deriving DecidableEq, Repr

/-- A semaphore (STL_SEM_k). -/
structure Sem where
  owner : BitVec 7
  held : Bool
  /-- TBU count of the acquisition (R342) -/
  since : Nat
  deriving DecidableEq, Repr

/-- A Stile port (STL_PORT_p). -/
structure StlPort where
  state : BitVec 2
  tec : Byte
  recErr : Byte
  /-- the transmit queue: identifier, bytes, the STILE_TRANSFER that waits (R323) -/
  queue : List (Word × Bytes × Option Quad)
  deriving DecidableEq, Repr

/-- Stile (14_stile_bridge.md). -/
structure Stl where
  ctxs : Tbl Ctx
  sems : Tbl Sem
  log : Tbl (Option Pel)
  ports : Tbl StlPort
  /-- mailbox receive queues by context (R323) -/
  boxes : Tbl (List Bytes)
  /-- requests queued or in flight, in acceptance order -/
  reqs : List Req
  /-- fragments of the acyclic message being received: network is HL2, source, message identifier, next index, bytes -/
  partial_ : List (Bool × Byte × BitVec 16 × Nat × Bytes)
  /-- STL_LOST; reset 0 -/
  lost : Word
  /-- STL_DROPS.NO_ROUTE, OVERFLOW; reset 0 -/
  noRoute : BitVec 16
  overflow : BitVec 16
  /-- restarts of the service firmware since entry into START (R399) -/
  spRestarts : Byte
  /-- TBU count at which the Service Processor is back after its last restart (R399); reset 0 -/
  backAt : Nat
  /-- sequence of the remote-access message identifier, modulo 256 (R331): DESIGN CHOICE 0 -/
  msgSeq : Byte
  /-- transaction tag of the next read or non-posted write (R331): DESIGN CHOICE 1 -/
  txTag : Word
  /-- fragments that wait for the next slots: network is HL2, ACYCLIC payload, context and tag of the request they carry -/
  frags : List (Bool × Bytes × Option (Nat × Word))
  deriving DecidableEq, Repr

/-- Slot states of R402. -/
inductive SlotState where | empty | loading | valid | active
  deriving DecidableEq, Repr

/-- A firmware slot (R402, R403). -/
structure FwSlot where
  state : SlotState
  /-- the manifest's bytes, header and digest list with signature -/
  manifest : Bytes
  secVersion : Byte
  revoke : BitVec 4
  tfVersion : BitVec 16
  sfVersion : BitVec 16
  mirrorVersion : BitVec 16
  hwIssues : BitVec 16
  blocks : Nat
  keyId : Quad
  digest : BitVec 256
  /-- digests of the payload blocks -/
  digests : List (BitVec 256)
  /-- block numbers still missing -/
  missing : List Nat
  deriving DecidableEq, Repr

/-- An armed activation (R408). -/
structure Arming where
  sec : Quad
  ns : Word
  plant : Bool
  group : Byte
  /-- TBU count of the armed time -/
  count : Nat
  /-- the check point has been passed (R409) -/
  checked : Bool
  deriving DecidableEq, Repr

/-- Firmware slots, activation, debug (18_firmware_trust_and_update.md). -/
structure Upd where
  slotA : FwSlot
  slotB : FwSlot
  /-- UPD_STATUS.ACTIVE_SLOT, true for B; MRAM: DESIGN CHOICE A -/
  activeB : Bool
  /-- UPD_STATUS.PENDING (R405); MRAM: DESIGN CHOICE 0 -/
  pending : Bool
  /-- the armed activation: ARMED, GROUP, SCALE, UPD_ARM; reset none -/
  armed : Option Arming
  /-- UPD_STATUS.READY; reset 0 -/
  ready : Bool
  /-- UPD_STATUS.FALLBACK; reset 0 -/
  fallback : Bool
  /-- UPD_STATUS.DEBUG_SCOPE; reset 0 -/
  scope : BitVec 3
  /-- EXPIRY of the open scopes in plant-time seconds (R417) -/
  expiry : Quad
  /-- operating ms counted on the pending slot (R406), and the start of the span that counts now; reset 0, none -/
  fuseMs : Nat
  fuseSince : Option Nat
  /-- recovery has made a slot ACTIVE that no cold start has used yet (R55, R418); MRAM; reset false -/
  recovered : Bool
  /-- the windows of R398 onto registers, ring memory and read windows are granted, since step 2 of a start; reset false -/
  granted : Bool
  /-- the table of the hardware firewall, up to 64 windows (R397, R398); reset none granted: DESIGN CHOICE (log entry 69) -/
  firewall : List FwWindow
  deriving DecidableEq, Repr

/-- The shutdown-BIST record (R423); MRAM. -/
structure BistRecord where
  good : Bool
  cycles : Word
  inLimits : Bool
  failMask : BitVec 16
  unrepaired : Nat
  added : Nat
  opTime : Nat
  deriving DecidableEq, Repr

/-- Built-in self-test (19_self_test.md). -/
structure Bst where
  /-- BST_STATUS.RUNNING; reset 0 -/
  running : BitVec 2
  /-- BST_STATUS.DUE; reset 0 -/
  due : Bool
  /-- BST_STATUS.SKIPPED, SKIP_CAUSE; reset 0 -/
  skipped : Bool
  skipCause : BitVec 2
  /-- BST_STATUS.LAST_KIND; from MRAM: DESIGN CHOICE 0 -/
  lastKind : BitVec 2
  /-- BST_STATUS.RECORD_VALID; reset 0 -/
  recordValid : Bool
  /-- BST_STATUS.FAILED; reset 0 -/
  failed : Bool
  /-- BST_LOGIC.FAIL_MASK; from MRAM: DESIGN CHOICE 0 -/
  failMask : BitVec 16
  /-- BST_MEM.UNREPAIRED; from MRAM: DESIGN CHOICE 0 -/
  unrepaired : BitVec 16
  /-- the repair map: array and row of each spare row assigned (R423), SPARES_USED; MRAM: DESIGN CHOICE none -/
  repairs : List (BitVec 6 × BitVec 20)
  /-- operating ms at the last complete run: BST_HOURS (R426); MRAM: DESIGN CHOICE 0 -/
  ranAt : Nat
  /-- BST_FAIL_i, BST_FADDR_i: the first 16 failing bits of the last run, with REPAIRED; reset none -/
  fails : List (FailBit × Bool)
  /-- the shutdown-BIST record (R54, R423); MRAM: DESIGN CHOICE none -/
  record : Option BistRecord
  /-- the on-demand run in progress: its handle and what it meets; reset none -/
  job : Option (Quad × BistOutcome)
  /-- operating ms of the last entry that the run is due (R426); reset 0 -/
  dueAt : Nat
  deriving DecidableEq, Repr

/-- A safety connection as the runtime of the safety program holds it (R251, R252). -/
structure SafConn where
  /-- OPERATIONAL, not FAILED (R251); at start: DESIGN CHOICE FAILED (log entry 40) -/
  ok : Bool
  /-- SCNT of the last accepted message; none before the first valid one after a start -/
  last : Option Word
  /-- network time in ns at which the last fresh message was accepted -/
  freshAt : Int
  /-- consecutive fresh messages since the connection became FAILED -/
  streak : Nat
  /-- the payload that the safety program is given: zeros while FAILED -/
  payload : Bytes
  /-- of an output connection: SCNT of its last message; at start: DESIGN CHOICE 0, so that the first message carries 1 -/
  scnt : Word
  deriving DecidableEq, Repr

/-- The safety parameter store (10_safety_functions.md); MRAM but for the connections. -/
structure Saf where
  /-- items by ID × 65,536 + index, absent where the default holds (R242); as delivered none -/
  items : Tbl (Option Quad)
  /-- salt and hash of the password (R245); none as delivered -/
  password : Option (BitVec 128 × BitVec 256)
  /-- consecutive AUTH_FAILED completions (R245); DESIGN CHOICE 0 -/
  fails : Nat
  /-- the lockout of R245 runs; operating ms of its start -/
  lockout : Option Nat
  /-- the change number, 24 bits (R249); MRAM: DESIGN CHOICE 0 -/
  changeNo : BitVec 24
  /-- a change waits to take effect: its handle, the RESULT of its DONE record, the TBU count of its commit (R247) -/
  applying : Option (Quad × Bytes × Nat)
  /-- the safety connections by number (R251, R252); reset none -/
  conns : Tbl SafConn
  deriving DecidableEq, Repr

/-- The state of the block. -/
structure State where
  /-- the queue of the commands that wait, first in, first out -/
  pending : List Instr
  /-- the MODEL's own: index of the next free value (log entry 3); DESIGN CHOICE 0 -/
  free : Nat
  /-- the MODEL's own: what the module has sent, newest first (log entry 4); DESIGN CHOICE none -/
  sent : List Output
  mfg : Mfg
  pwr : Pwr
  tbu : Tbu
  hyk : Hyk
  sys : Sys
  host : HostSide
  rings : Tbl Ring
  journal : List JEntry
  mem : Mem
  cfg : Cfg
  prog : Prog
  tasks : Tbl Task
  swd : Swd
  tri : Tri
  cpr : Cpr
  fld : Fld
  hl1 : HlNet
  hl2 : HlNet
  dpx : Dpx
  stl : Stl
  upd : Upd
  bst : Bst
  saf : Saf
  deriving DecidableEq, Repr

/-! The state after reset: every register at its Reset column, MRAM as delivered, no logic power. -/

/-- As delivered (log entry 2). -/
def Mfg.reset : Mfg := ⟨0, 0, 0, 0, false, 0xFF⟩

/-- Registers of R361 to R382 at their Reset column, no power. -/
def Pwr.reset : Pwr :=
  { on := false, hotOff := false, l1v := 0, l2v := 0, l1ok := false, l2ok := false, holdupReady := false,
    onHoldup := false, below1 := 0, below2 := 0, holdupAt := 0, scrubbedAt := 0, reserveReady := false, feedDrops := 0, rideThroughs := 0, domains := 1, sramRet := 0,
    pllLocked := false, onBackup := false, refLost := false, crossOvf := false, flushes := 0, sramCorrected := 0,
    pd0Corrected := 0, temp := 0, tempMax := 0, coreMv := 0, reserveUs := 0 }

/-- A time scale before its first base (R353). -/
def Scale.reset : Scale := ⟨0, 0, 0, 0, [], 0, 0⟩

/-- The time base at its Reset column. -/
def Tbu.reset : Tbu :=
  { count := 0, plant := .reset, net := .reset, plantSet := false, plantLocked := false, jumpRefused := false,
    netLocked := false, ptpState := 0, refusedNow := false, refusals := 0, jump := none, plantOfs := 0, netOfs := 0, eth1Up := true,
    eth2Up := true, ptpOn2 := false }

/-- An empty recorder. -/
def Hyk.reset : Hyk :=
  { general := [], safety := [], genNext := 0, genWrapped := false, genSeq := 0, safNext := 0, safWrapped := false,
    safSeq := 0, raised := 0, written := 0, dropped := 0, buckets := [], evictFail := 0, badSlots := 0, opBase := 0,
    opSaved := 0, powerCycles := 0, lastOff := 0 }

/-- Modes and host configuration at their Reset column. -/
def Sys.reset : Sys :=
  { mode := .start, startKind := 0, substate := 0, haltCause := 0, lockstepBroken := false, haltLatched := false,
    coldSubstituted := false, warmFails := [], coldFails := [], event := 0, eventMask := 0xFF, progSem := true,
    progW1c := true, legacyWrite := true, lock := false, lpage := 0, epoch := 0, start := none, runWait := none,
    stopJob := none, shutJob := none, served := 31, initRun := none, verifyFailed := [], baseTick := 0, tickAt := 0,
    stretch := false }

/-- An endpoint with every MSI-X vector masked. -/
def HostSide.reset : HostSide :=
  { msixTable := [], pba := 0, tbuCap := [], hykCap := [], slotCap := [], readLatch := none, writeLatch := none }

/-- RING_CFG_n.OWNER (R56). -/
def ringOwner (n : Nat) : BitVec 3 :=
  if n < 8 then 0 else if n < 12 then 1 else if n < 20 then 2 else if n < 24 then 3 else if n < 28 then 4 else 5
/-- RING_CFG_n.CMDSET by default (R56). -/
def ringSet (n : Nat) : BitVec 2 := if 8 ≤ n ∧ n < 12 then 1 else 2

/-- A ring pair at its Reset column (R67). -/
def Ring.reset (n : Nat) : Ring :=
  { base := 0, depthLog2 := 8, cmdset := ringSet n, owner := ringOwner n, enabled := false,
    restarted := true, takeover := false, replayDone := false, doorbellErr := false, consErr := false,
    acceptHeld := false, gen := 0, cmdProd := 0, cmdCons := 0, cplProd := 0, cplCons := 0, thresh := 1, timer := 0,
    mask := false, seq := 1, undelivered := [], from1 := [], backlog := [], subs := [] }

def Mem.reset : Mem := ⟨[], [], [], none, none⟩

/-- The default geometry of a ring pair (R57). -/
def RingGeo.reset (n : Nat) : RingGeo := ⟨8, (ringSet n).setWidth 8, BitVec.ofNat 16 (n * 512)⟩
/-- A channel that is not used (R114). -/
def ChanCfg.reset : ChanCfg := ⟨0, 1, 5, 0⟩
/-- The set in which every section is absent (R114). -/
def ConfigSet.reset : ConfigSet :=
  { setId := 0, build := 0, params := [], rings := (List.range 32).map RingGeo.reset,
    channels := List.replicate 96 .reset, sched1 := none, sched2 := none, segments := [], stations := [],
    substitutes := [], routing := [], contexts := [], semaphores := [], windows := [], endpoints := [], groups := [] }
def Cfg.reset : Cfg := ⟨none, .reset, (List.range 32).map RingGeo.reset⟩

def Prog.reset : Prog :=
  { safety := none, std0 := none, std1 := none, flash := [], forces := [], bank0 := none, bank1 := none,
    last1 := false, commitSeq := 0, due := [], writing := none, commitLate := 0, forceJob := none, persistWait := none, olc := none,
    passes := 0, olcPart := false, changes := 0 }

/-- A task that no container declares. -/
def Task.reset : Task :=
  { present := false, state := 0, haltPolicy := false, priority := 0, overrun := false, stretched := false,
    overruns := 0, lastNs := 0, maxNs := 0, latchAt := 0, latchTick := 0, due := none, running := false, errRuns := false, cur := none, prev := none,
    events := [], lost := 0, lostAt := 0, stopped := false, latched := false, skipped := 0, held := false, heldLatch := false,
    heldAt := 0, dispatched := 0, dispLost := false, stretchUs := 0, doorbells := [], consumers := [], haltAfter := none, expHeld := [], firstAfterChange := false,
    reexec := false, rerun := false, changeDue := false, seenProd := [], unacked := none, mirrorWait := false,
    ret := ⟨0, [], []⟩, loaded := [] }

def InSeg.reset : InSeg := ⟨[], [], false, false, 0, 3, 0, false, 0, false⟩
/-- SWD_STN_k_n at its Reset column. -/
def Station.reset : Station := ⟨0, 0, 0, 0, 0, false, [], false, 0⟩
def Swd.reset : Swd :=
  { ins := [], writing := [], sending := [], fixed := [], versions := [], liveMax := 0, buffers := 0,
    refusedCfg := false, version := 0, pin := false, pinned := none, undo := 0, promoted := false, stations := [],
    publishers := [] }

def Tcm.reset : Tcm := ⟨[], 0, [], [], []⟩
def Lane.reset : Lane := ⟨.reset, false, 0, 0, .inVote, 0, [], [], 0, 0, false, false⟩
def Exchange.reset : Exchange := ⟨0, 0, 0, 0, 0, 0, 0, 0, [], 0, 0⟩
def Triple.reset : Triple := ⟨.reset, .reset, .reset⟩
def Tri.reset : Tri :=
  { lane0 := .reset, lane1 := .reset, lane2 := .reset, voterFault := false, debug := false, gateClosed := false,
    lastLane := 3, lastKind := 0, mismatches := 0, misTick := 0, repairEnd := none,
    repairSpan := 0, repairLane := 0, repairStage := 0, passes := 0, expLatest := [], expFilling := [],
    publishOk := false, scrub := 0, xchg := .reset }
def Cpr.reset : Cpr :=
  { recovery := 0, excluded := 0, permanent := 0, split := false, lastKind := 0, reexecs := 0,
    mismatches := 0, misTick := 0, logMax := 0, chkptOvf := 0, corrected0 := 0, corrected1 := 0, exclusions0 := [],
    exclusions1 := [], l2Corrected := 0, dramCorrected := 0, patrolAt := 0, since := 0, handover := [], handCopy := (0, 0, []) }

/-- A cell without field supply. -/
def Cell.reset : Cell :=
  { powered := false, mode := 0, type3 := false, edge := 0, filter := 5, pulse := 8, keepOff := false, holdMs := 1000,
    configured := false, rxBlock := [], prevBlock := [], raw := false, run := 0, filt := false, mLevel := false,
    readback := false, shot := 0, restarted := false, seenSupply := none, count := 0, rate := 0, testFail := false,
    stageTicks := 0, hi := false, lo := false, out := false,
    test := .idle, testAt := 0, testUnits := 0, deferred := false, ownLatch := 0, phaseEvent := 0, atLimit := false, limitRun := 0, stuckRun := 0,
    openRun := 0, uvRun := 0, onSince := 0, lastValid := 0, reclose := none, lowOpen := false, seq := 0, supply := 0,
    overTemp := false, inForce := [], gotCmd := false }
/-- FLD_CH_n, FLD_OUT_n and the test counters at their Reset column. -/
def Channel.reset : Channel :=
  { mode := 0, type3 := false, filter := 5, edge := 0, couplerLost := false, cellFault := false, invalid := 0,
    badRun := 0, goodRun := 0, validNow := false, judged := false, raw := false, filt := false, readback := false,
    restarted := false, count := 0, diag := 0, supply := 0, outStat := 0, failTicks := 0, passTicks := 0, cmd := false, latches := 0,
    offset := 0, pulse := 8, period := 0x64, tsched := 0, texec := 0, tabort := 0, due := none, test := .idle,
    second := false, await := false, demand := false, slotTest := false, slotOk := false, testDone := none,
    ackTest := none, openLoad := false, needOff := false, uvWait := false, slotRaw := false,
    slotMoved := false, latchClr := false, annAt := 0, annSecond := false, missFirst := 0,
    missSecond := 0, block := [] }
/-- FLD_DISC_p at its Reset column. -/
def DualPair.reset : DualPair := ⟨.off, 0, 0x64, 0x64, false, false, false, false⟩
def Group.reset : Group := ⟨0, false, 0, false, 0, 0, 0, 0, false⟩
def Fld.reset : Fld :=
  { chans := [], cells := [], pairs := [], groups := [], ticks := 0, deadline := false, safetyOff := false,
    silent := false, lastTick := 0, prior := [], ackJob := none }

def SlotCnt.reset : SlotCnt := ⟨0, 0, 0, 0, 0, 0, 0⟩
def SlotRx.reset : SlotRx := ⟨0, 0⟩
def HlJoin.reset : HlJoin :=
  { upA := none, upB := none, turnA := none, turnB := none, muteA := false, muteB := false, seenNow := 0, seenPrev := 0,
    asked := [], seq := 0, asks := [], sawCold := false, startPhase := false, stepped := false, tries := 0, triesB := 0,
    observe := none, passA := none, passB := none, beatB := none }
/-- A network that is not configured, its registers at their Reset column. -/
def HlNet.reset : HlNet :=
  { gen := 0, netId := 0, addr := 1, wiring := 0, port2 := 0, sched := none, state := .off, mismatch := false,
    search := false, attempt := 0, splitA := false, splitB := false, hub := false, hubAddr := 0, refAddr := 0,
    epoch := 0, cycle := 0, cycleAt := 0, strayA := 0, strayB := 0, counters := [], rx := [], dA := none, dB := none,
    offA := none, offB := none, refusals := [], refusedA := 0, refusedB := 0, leaves := 0, linkUp := 0, master := 0,
    ringReturn := 0, drops := [], lossCause := 0, losses := 0, since := 0, beaconNow := false, noBeacon := 0,
    bigTheta := 0, join := .reset, claim := none, claims := [], grants := [], own := none, listed := [], barred := [],
    readyNow := 0, readyPrev := 0, ringSeen := 0, ringMissA := 0, ringMissB := 0, cycleTime := 0, up := false, busy := [] }

def Dpx.reset : Dpx :=
  { role := 0, standby := 0, phase := 0, epoch := 0, ownClaim := false, partnerClaim := false, lane0 := false,
    lane1 := false, incompat := 0, lastKib := 0, maxKib := 0, stretches := 0, lags := 0, droveAt := 0, due := false,
    takeovers := 0, swaps := 0, gapNs := 0, decidedAt := none, lastBeat := none, beatAt := 0, partnerSeen := false,
    mseq := 0, catchUp := [], dwOff := false, dwHold := 0, swap := none, swapDrained := false, partnerRun := false, lastMirror := 0,
    takeHub1 := false, takeHub2 := false, graceHl1 := 0, graceHl2 := 0, faultReport := false, claimAt := 0,
    swapBack := false, posted := [], partnerLanes := [], partnerPair := 0, partnerRepair := 0, mirrored := [], staged := [],
    phaseAt := 0, beatSent := 0, milestone := 0, stileSent := none }

/-- A context of an absent CONTEXTS section (R114). -/
def Ctx.reset : Ctx :=
  { owner := 0, credits := 0, held := 0, err := false, fenceAll := false, fences := [], lost := 0, lostAt := [],
    tag := 1 }
def Sem.reset : Sem := ⟨0, false, 0⟩
def StlPort.reset : StlPort := ⟨0, 0, 0, []⟩
def Stl.reset : Stl :=
  { ctxs := [], sems := [], log := [], ports := [], boxes := [], reqs := [], partial_ := [], lost := 0, noRoute := 0,
    overflow := 0, spRestarts := 0, backAt := 0, msgSeq := 0, txTag := 1, frags := [] }

/-- A slot as delivered (log entry 2): the manifest's fields 0 but for the firmware versions, which R1 bounds to 1.4 or
later with major version 1 in the slot that runs. -/
def FwSlot.reset (st : SlotState) (version : BitVec 16) : FwSlot :=
  { state := st, manifest := [], secVersion := 0, revoke := 0, tfVersion := version, sfVersion := version, mirrorVersion := 0,
    hwIssues := 0xFFFF, blocks := 0, keyId := 0, digest := 0, digests := [], missing := [] }
def Upd.reset : Upd :=
  { slotA := .reset .active 0x0104, slotB := .reset .empty 0, activeB := false, pending := false, armed := none, ready := false,
    fallback := false, scope := 0, expiry := 0, fuseMs := 0,
    fuseSince := none, recovered := false, granted := false, firewall := [] }
def Bst.reset : Bst :=
  { running := 0, due := false, skipped := false, skipCause := 0, lastKind := 0, recordValid := false, failed := false,
    failMask := 0, unrepaired := 0, repairs := [], ranAt := 0, fails := [], record := none, job := none,
    dueAt := 0 }
def Saf.reset : Saf :=
  { items := [], password := none, fails := 0, lockout := none, changeNo := 0, applying := none,
    conns := [] }
/-- A connection before the first message after a start. -/
def SafConn.reset : SafConn := ⟨false, none, 0, 0, [], 0⟩

/-- The block right after reset: unpowered, every register at its Reset column, MRAM as delivered. -/
def State.reset : State :=
  { pending := [], free := 0, sent := [], mfg := .reset, pwr := .reset, tbu := .reset, hyk := .reset, sys := .reset,
    host := .reset, rings := [], journal := [], mem := .reset, cfg := .reset, prog := .reset, tasks := [],
    swd := .reset, tri := .reset, cpr := .reset, fld := .reset, hl1 := .reset, hl2 := .reset, dpx := .reset,
    stl := .reset, upd := .reset, bst := .reset, saf := .reset }

/-- Outcomes of a command. -/
abbrev Res := Host.Outcome State Fault Refusal

end Sys2Proof.Machine
end

