-- ==== Sys2Proof/Machine/Tbl.lean ====
section
/-! DEFINITION. Total tables over the naturals: reading, writing, the canonical form. -/

namespace Sys2Proof

/-- The entry of index `i`; the default `d i` when the table lists none. -/
def Tbl.get {α : Type} (d : Nat → α) : Tbl α → Nat → α
  | [], i => d i
  | (j, a) :: t, i => if j = i then a else Tbl.get d t i

/-- The table without an entry of index `i`. -/
def Tbl.erase {α : Type} : Tbl α → Nat → Tbl α
  | [], _ => []
  | (j, a) :: t, i => if j = i then Tbl.erase t i else (j, a) :: Tbl.erase t i

/-- The table with the entry `(i, a)` in its place. -/
def Tbl.ins {α : Type} : Tbl α → Nat → α → Tbl α
  | [], i, a => [(i, a)]
  | (j, b) :: t, i, a =>
    if i < j then (i, a) :: (j, b) :: t else if i = j then (i, a) :: t else (j, b) :: Tbl.ins t i a

/-- The table in which index `i` holds `a`: no entry when `a` is the default. -/
def Tbl.set {α : Type} [DecidableEq α] (d : Nat → α) (t : Tbl α) (i : Nat) (a : α) : Tbl α :=
  if a = d i then Tbl.erase t i else Tbl.ins t i a

/-- The table in which index `i` holds `f` of what it held. -/
def Tbl.upd {α : Type} [DecidableEq α] (d : Nat → α) (t : Tbl α) (i : Nat) (f : α → α) : Tbl α :=
  Tbl.set d t i (f (Tbl.get d t i))

/-- `upd` at each index of a list, in its order. -/
def Tbl.updAll {α : Type} [DecidableEq α] (d : Nat → α) (f : Nat → α → α) (is : List Nat) (t : Tbl α) : Tbl α :=
  is.foldl (fun t i => Tbl.upd d t i (f i)) t

/-- Canonical form: keys strictly rising above a bound, no entry equal to the default. -/
def Tbl.wfFrom {α : Type} [DecidableEq α] (d : Nat → α) : Nat → Tbl α → Bool
  | _, [] => true
  | n, (i, a) :: t => decide (n ≤ i) && decide (a ≠ d i) && Tbl.wfFrom d (i + 1) t

/-- Canonical form of a whole table. -/
def Tbl.wf {α : Type} [DecidableEq α] (d : Nat → α) (t : Tbl α) : Bool := Tbl.wfFrom d 0 t

/-- What a byte of memory that nothing has written reads as (log entry 6). -/
def byte0 : Nat → Byte := fun _ => 0

/-- The `n` bytes from address `a` on. -/
def Tbl.bytes (t : Tbl Byte) (a n : Nat) : Bytes := (List.range n).map fun k => Tbl.get byte0 t (a + k)

/-- The memory with a byte string stored from address `a` on, lowest address first. -/
def Tbl.store : Tbl Byte → Nat → Bytes → Tbl Byte
  | t, _, [] => t
  | t, a, b :: bs => Tbl.store (Tbl.set byte0 t a b) (a + 1) bs

end Sys2Proof
end

