-- ==== Sys2Proof/Machine/Update.lean ====
section
/-! DEFINITION. Updates of one part of the state: each touches the part it names and nothing else. -/

namespace Sys2Proof.Machine

/-- Change only `mfg`. -/
def State.modMfg (s : State) (f : Mfg → Mfg) : State := { s with mfg := f s.mfg }
/-- Change only `pwr`. -/
def State.modPwr (s : State) (f : Pwr → Pwr) : State := { s with pwr := f s.pwr }
/-- Change only `tbu`. -/
def State.modTbu (s : State) (f : Tbu → Tbu) : State := { s with tbu := f s.tbu }
/-- Change only `hyk`. -/
def State.modHyk (s : State) (f : Hyk → Hyk) : State := { s with hyk := f s.hyk }
/-- Change only `sys`. -/
def State.modSys (s : State) (f : Sys → Sys) : State := { s with sys := f s.sys }
/-- Change only `host`. -/
def State.modHost (s : State) (f : HostSide → HostSide) : State := { s with host := f s.host }
/-- Change only `mem`. -/
def State.modMem (s : State) (f : Mem → Mem) : State := { s with mem := f s.mem }
/-- Change only `cfg`. -/
def State.modCfg (s : State) (f : Cfg → Cfg) : State := { s with cfg := f s.cfg }
/-- Change only `prog`. -/
def State.modProg (s : State) (f : Prog → Prog) : State := { s with prog := f s.prog }
/-- Change only `swd`. -/
def State.modSwd (s : State) (f : Swd → Swd) : State := { s with swd := f s.swd }
/-- Change only `tri`. -/
def State.modTri (s : State) (f : Tri → Tri) : State := { s with tri := f s.tri }
/-- Change only `cpr`. -/
def State.modCpr (s : State) (f : Cpr → Cpr) : State := { s with cpr := f s.cpr }
/-- Change only `fld`. -/
def State.modFld (s : State) (f : Fld → Fld) : State := { s with fld := f s.fld }
/-- Change only `hl1`. -/
def State.modHl1 (s : State) (f : HlNet → HlNet) : State := { s with hl1 := f s.hl1 }
/-- Change only `hl2`. -/
def State.modHl2 (s : State) (f : HlNet → HlNet) : State := { s with hl2 := f s.hl2 }
/-- Change only `dpx`. -/
def State.modDpx (s : State) (f : Dpx → Dpx) : State := { s with dpx := f s.dpx }
/-- Change only `stl`. -/
def State.modStl (s : State) (f : Stl → Stl) : State := { s with stl := f s.stl }
/-- Change only `upd`. -/
def State.modUpd (s : State) (f : Upd → Upd) : State := { s with upd := f s.upd }
/-- Change only `bst`. -/
def State.modBst (s : State) (f : Bst → Bst) : State := { s with bst := f s.bst }
/-- Change only `saf`. -/
def State.modSaf (s : State) (f : Saf → Saf) : State := { s with saf := f s.saf }
/-- Change only the queue. -/
def State.modPending (s : State) (f : List Instr → List Instr) : State := { s with pending := f s.pending }
/-- Change only the acceptance journal. -/
def State.modJournal (s : State) (f : List JEntry → List JEntry) : State := { s with journal := f s.journal }
/-- Change only the ring pairs. -/
def State.modRings (s : State) (f : Tbl Ring → Tbl Ring) : State := { s with rings := f s.rings }
/-- Change only the tasks. -/
def State.modTasks (s : State) (f : Tbl Task → Tbl Task) : State := { s with tasks := f s.tasks }
/-- Change only ring pair `n`. -/
def State.modRing (s : State) (n : Nat) (f : Ring → Ring) : State := { s with rings := Tbl.upd Ring.reset s.rings n f }
/-- Change only task `n`. -/
def State.modTask (s : State) (n : Nat) (f : Task → Task) : State := { s with tasks := Tbl.upd (fun _ => Task.reset) s.tasks n f }
/-- Send something out of the module (log entry 4). -/
def State.emit (s : State) (o : Output) : State := { s with sent := o :: s.sent }
/-- Step past a free value (log entry 3). -/
def State.bump (s : State)  : State := { s with free := s.free + 1 }

/-- Ring pair `n`. -/
def State.ring (s : State) (n : Nat) : Ring := Tbl.get Ring.reset s.rings n
/-- Task `n`. -/
def State.task (s : State) (n : Nat) : Task := Tbl.get (fun _ => Task.reset) s.tasks n
/-- Channel `n`, logic side. -/
def State.chan (s : State) (n : Nat) : Channel := Tbl.get (fun _ => Channel.reset) s.fld.chans n
/-- Cell `n`. -/
def State.cell (s : State) (n : Nat) : Cell := Tbl.get (fun _ => Cell.reset) s.fld.cells n
/-- Dual-channel pair `n`: channels 2n and 2n + 1. -/
def State.dual (s : State) (n : Nat) : DualPair := Tbl.get (fun _ => DualPair.reset) s.fld.pairs n
/-- Group `g`. -/
def State.group (s : State) (g : Nat) : Group := Tbl.get (fun _ => Group.reset) s.fld.groups g
/-- A network's controller. -/
def State.net (s : State) : Net → HlNet
  | .hl1 => s.hl1
  | .hl2 => s.hl2
/-- Context `x`. -/
def State.ctx (s : State) (x : Nat) : Ctx := Tbl.get (fun _ => Ctx.reset) s.stl.ctxs x
/-- Semaphore `k`. -/
def State.sem (s : State) (k : Nat) : Sem := Tbl.get (fun _ => Sem.reset) s.stl.sems k
/-- Stile port `p`. -/
def State.port (s : State) (p : Nat) : StlPort := Tbl.get (fun _ => StlPort.reset) s.stl.ports p
/-- Posted-error log entry `i`. -/
def State.pel (s : State) (i : Nat) : Option Pel := Tbl.get (fun _ => none) s.stl.log i
/-- Sward's view of a station: HL2 stands 256 above HL1. -/
def State.station (s : State) (n : Net) (a : Nat) : Station :=
  Tbl.get (fun _ => Station.reset) s.swd.stations (a + if n = .hl2 then 256 else 0)

/-- Change only a channel's logic side. -/
def State.modChan (s : State) (n : Nat) (f : Channel → Channel) : State :=
  s.modFld fun x => { x with chans := Tbl.upd (fun _ => Channel.reset) x.chans n f }
/-- Change only a cell. -/
def State.modCell (s : State) (n : Nat) (f : Cell → Cell) : State :=
  s.modFld fun x => { x with cells := Tbl.upd (fun _ => Cell.reset) x.cells n f }
/-- Change only a dual-channel pair. -/
def State.modDual (s : State) (n : Nat) (f : DualPair → DualPair) : State :=
  s.modFld fun x => { x with pairs := Tbl.upd (fun _ => DualPair.reset) x.pairs n f }
/-- Change only a group. -/
def State.modGroup (s : State) (g : Nat) (f : Group → Group) : State :=
  s.modFld fun x => { x with groups := Tbl.upd (fun _ => Group.reset) x.groups g f }
/-- Change only one network's controller. -/
def State.modNet (s : State) (n : Net) (f : HlNet → HlNet) : State :=
  match n with
  | .hl1 => s.modHl1 f
  | .hl2 => s.modHl2 f
/-- Change only a context. -/
def State.modCtx (s : State) (x : Nat) (f : Ctx → Ctx) : State :=
  s.modStl fun t => { t with ctxs := Tbl.upd (fun _ => Ctx.reset) t.ctxs x f }
/-- Change only a semaphore. -/
def State.modSem (s : State) (k : Nat) (f : Sem → Sem) : State :=
  s.modStl fun t => { t with sems := Tbl.upd (fun _ => Sem.reset) t.sems k f }
/-- Change only a Stile port. -/
def State.modPort (s : State) (p : Nat) (f : StlPort → StlPort) : State :=
  s.modStl fun t => { t with ports := Tbl.upd (fun _ => StlPort.reset) t.ports p f }
/-- Change only Sward's view of a station. -/
def State.modStation (s : State) (n : Net) (a : Nat) (f : Station → Station) : State :=
  s.modSwd fun w =>
    { w with stations := Tbl.upd (fun _ => Station.reset) w.stations (a + if n = .hl2 then 256 else 0) f }

end Sys2Proof.Machine
end

