-- ==== Sys2Proof/Machine/Ops.lean ====
section
/-! DEFINITION. Operations that every family uses: time, interrupts, SYS_EVENT, the event recorder. -/

namespace Sys2Proof.Machine

/-! ## Time -/

/-- TBU counts per microsecond and per millisecond (R348). -/
def countsUs : Nat := 500
def countsMs : Nat := 500000
/-- The TBU count now (R348). -/
def State.now (s : State) : Nat := s.tbu.count
/-- OP_TIME in ms (R386). -/
def State.opMs (s : State) : Nat := s.hyk.opBase + s.tbu.count / countsMs
/-- Milliseconds of an operating hour. -/
def msHour : Nat := 3600000
/-- The reading of a time scale at a count, in ns: O + 2 d + floor(2 d r / 2⁴⁰) (R349). -/
def Scale.at (c : Scale) (count : Nat) : Int :=
  let d : Int := (count : Int) - c.base
  c.o + 2 * d + (2 * d * c.r.toInt) / 1099511627776
/-- Plant time and network time now, in ns. -/
def State.plantNow (s : State) : Int := s.tbu.plant.at s.tbu.count
def State.netNow (s : State) : Int := s.tbu.net.at s.tbu.count

/-! ## Modes and domains -/

/-- SYS_MODE.MODE (R36). -/
def modeCode : Mode → BitVec 4
  | .start => 1 | .stop => 2 | .run => 3 | .follow => 4 | .service => 5 | .halt => 6
/-- SYS_MODE (R37). -/
def Sys.modeWord (y : Sys) : Word :=
  BitVec.ofNat 32 ((modeCode y.mode).toNat + y.startKind.toNat * 16 + y.substate.toNat * 256
    + y.haltCause.toNat * 65536 + maskOf [y.lockstepBroken, y.haltLatched, y.coldSubstituted] * 16777216
    + Nat.min 3 y.warmFails.length * 268435456 + Nat.min 3 y.coldFails.length * 1073741824)
/-- The state of domain `n` in PWR_DOMAIN: 0 OFF, 1 ON, 2 RETENTION (R367). -/
def Pwr.dom (p : Pwr) (n : Nat) : Nat := p.domains.toNat / 4 ^ n % 4
/-- Domain `n` is ON. -/
def State.domOn (s : State) (n : Nat) : Bool := s.pwr.on && s.pwr.dom n == 1
/-- PWR_DOMAIN.STATE with the domains of the list ON. -/
def domainWord (on : List Nat) : BitVec 16 := BitVec.ofNat 16 (on.foldl (fun a n => a + 4 ^ n) 0)
/-- The standby of this active module is IN_SYNC (R302). -/
def State.inSync (s : State) : Bool := s.dpx.role == 1 && s.dpx.standby == 2

/-! ## Interrupts of the PCI Express path -/

/-- The MSI-X table before anything is written: every vector masked (log entry 7). -/
def msixDefault (i : Nat) : Word := if i % 4 = 3 then 1 else 0
/-- Vector `v` is masked in the MSI-X table. -/
def HostSide.masked (h : HostSide) (v : Nat) : Bool := (Tbl.get msixDefault h.msixTable (4 * v + 3)).getLsbD 0
/-- Raise a vector: the message, or its pending bit while it is masked (R436); nothing while PD5 is off. -/
def State.msix (s : State) (v : Nat) : State :=
  if s.domOn 5 then
    if s.host.masked v then s.modHost fun h => { h with pba := h.pba ||| (1 <<< v) } else s.emit (.msix v)
  else s

/-- The SYS_EVENT bits that are set and unmasked (R437). -/
def Sys.eventsOn (y : Sys) : Byte := y.event &&& ~~~ y.eventMask
/-- Set SYS_EVENT bit `k`; vector 9 when the unmasked set turns from empty to non-empty (R437). -/
def State.setEvent (s : State) (k : Nat) : State :=
  let t := s.modSys fun y => { y with event := y.event ||| (1 <<< k) }
  if s.sys.eventsOn = 0 ∧ t.sys.eventsOn ≠ 0 then t.msix 9 else t
/-- The evaluation after a write to SYS_EVENT or SYS_EVENT_MASK (R437). -/
def State.reevents (s : State) : State := if s.sys.eventsOn ≠ 0 then s.msix 9 else s

/-! ## The event recorder -/

/-- Hayrick sources (R388). -/
def srcSup : Byte := 1
def srcTri : Byte := 2
def srcPair : Byte := 3
def srcSward : Byte := 4
def srcNet : Net → Byte
  | .hl1 => 5
  | .hl2 => 6
def srcField : Byte := 7
def srcStile : Byte := 8
def srcTbu : Byte := 10
def srcPower : Byte := 11
def srcBist : Byte := 12
def srcFirewall : Byte := 13
def srcBoot : Byte := 14
def srcHyk : Byte := 15
def srcHost : Byte := 16

/-- The entry goes to the safety partition (R384). -/
def safetyEntry (src : Byte) (code : BitVec 16) : Bool :=
  src == srcTri || code.toNat / 4096 == 5 || code.toNat / 256 == 0x1F
/-- The code is of a rate-limited class (R387). -/
def limitedCode (code : BitVec 16) : Bool :=
  let c := code.toNat
  (0x1000 ≤ c && c < 0x1F00) || (0x2000 ≤ c && c < 0x5000) || (0x6000 ≤ c && c < 0x9000)
/-- Slots of a partition (R383). -/
def hykSlots (saf : Bool) : Nat := if saf then 4096 else 28672
/-- The sequence after `q` (R386). -/
def nextSeq (q : Word) : Word := if q = 0xFFFFFFFF then 1 else q + 1
/-- Bytes 0 to 29 of an entry, all that CHECK covers (R385). -/
def HykEntry.body (e : HykEntry) : Bytes :=
  le 4 e.seq ++ le 6 e.opTime ++ le 4 e.cycles ++ le 2 e.code ++ [e.source, e.sevFlags] ++ padTo 12 e.data
/-- The 32 bytes of a slot (R385). -/
def HykEntry.bytes (e : HykEntry) : Bytes := e.body ++ le 2 e.check

/-- Put an entry into the next slot of a partition, its sequence and CHECK filled in (R385, R386). -/
def Hyk.put (h : Hyk) (saf : Bool) (e : HykEntry) : Hyk :=
  if saf then
    let e := { e with seq := nextSeq h.safSeq }
    { h with safety := Tbl.set (fun _ => none) h.safety h.safNext.toNat (some { e with check := crc16 e.body })
             safWrapped := h.safWrapped || (h.safNext == 0 && h.safSeq != 0)
             safNext := BitVec.ofNat 12 ((h.safNext.toNat + 1) % 4096), safSeq := e.seq }
  else
    let e := { e with seq := nextSeq h.genSeq }
    { h with general := Tbl.set (fun _ => none) h.general h.genNext.toNat (some { e with check := crc16 e.body })
             genWrapped := h.genWrapped || (h.genNext == 0 && h.genSeq != 0)
             genNext := BitVec.ofNat 15 ((h.genNext.toNat + 1) % 28672), genSeq := e.seq }

/-- A slot whose contents are open: what a failed MRAM write leaves (log entry 9). -/
def openEntry (k : Nat) : HykEntry :=
  { seq := Config.freeBits k 32, opTime := Config.freeBits (k + 1) 48, cycles := Config.freeBits (k + 2) 32,
    code := Config.freeBits (k + 3) 16, source := Config.freeBits (k + 4) 8, sevFlags := Config.freeBits (k + 5) 8,
    data := (List.range 12).map fun j => Config.freeBits (k + 6 + j) 8, check := Config.freeBits (k + 18) 16 }
/-- Skip a slot whose write failed twice: its sequence is not reused and BAD_SLOTS counts (R392). -/
def Hyk.skip (h : Hyk) (saf : Bool) (k : Nat) : Hyk :=
  let h := { h with badSlots := satInc h.badSlots }
  if saf then
    { h with safety := Tbl.set (fun _ => none) h.safety h.safNext.toNat (some (openEntry k))
             safNext := BitVec.ofNat 12 ((h.safNext.toNat + 1) % 4096), safSeq := nextSeq h.safSeq
             safWrapped := h.safWrapped || (h.safNext == 0 && h.safSeq != 0) }
  else
    { h with general := Tbl.set (fun _ => none) h.general h.genNext.toNat (some (openEntry k))
             genNext := BitVec.ofNat 15 ((h.genNext.toNat + 1) % 28672), genSeq := nextSeq h.genSeq
             genWrapped := h.genWrapped || (h.genNext == 0 && h.genSeq != 0) }
/-- Skip `n` slots. -/
def Hyk.skips (saf : Bool) : Nat → Nat → Hyk → Hyk
  | 0, _, h => h
  | n + 1, k, h => Hyk.skips saf n (k + 32) (h.skip saf k)

/-- What the rate limit says of an event (R393). -/
inductive Verdict where | write | writeUnlimited | drop
  deriving DecidableEq, Repr

/-- The list without the last bucket that holds 16 tokens and no pending drops: the least recently used one. -/
def dropIdle : List Bucket → Option (List Bucket)
  | [] => none
  | b :: bs =>
    match dropIdle bs with
    | some r => some (b :: r)
    | none => if b.tokens = 16 ∧ b.drops = 0 then some bs else none

/-- An accepted event of a rate-limited code meets its bucket (R393). -/
def Hyk.limit (h : Hyk) (code : BitVec 16) (sev : BitVec 4) (opTime : BitVec 48) : Hyk × Verdict :=
  match h.buckets.find? (·.code == code) with
  | some b =>
    let rest := h.buckets.filter (·.code != code)
    if b.tokens = 0 then
      ({ h with buckets := { b with drops := b.drops + 1, lastSev := sev
                                    firstDrop := if b.drops = 0 then opTime else b.firstDrop } :: rest }, .drop)
    else ({ h with buckets := { b with tokens := b.tokens - 1 } :: rest }, .write)
  | none =>
    let new : Bucket := ⟨code, 15, 0, 0, 0, opTime.toNat⟩
    if h.buckets.length < 1024 then ({ h with buckets := new :: h.buckets }, .write)
    else
      match dropIdle h.buckets with
      | some r => ({ h with buckets := new :: r }, .write)
      | none => ({ h with evictFail := satInc h.evictFail }, .writeUnlimited)

/-- SEV_FLAGS (R385). -/
def sevFlags (sev : BitVec 4) (saf summary reexec standby : Bool) : Byte :=
  BitVec.ofNat 8 (sev.toNat + 16 * maskOf [saf, summary, reexec, standby])

/-- The entry an event becomes, before its sequence (R385, R391). -/
def State.entryOf (s : State) (src : Byte) (code : BitVec 16) (sevFl : Byte) (data : Bytes) : HykEntry :=
  { seq := 0, opTime := BitVec.ofNat 48 s.opMs, cycles := s.hyk.powerCycles, code := code, source := src,
    sevFlags := sevFl, data := padTo 12 data, check := 0 }

/-- The writer accepts an event: it is counted, then written or dropped (R391 to R393); `bad` slots fail first (R392).
The Boolean says whether it was written. -/
def State.offer (s : State) (src : Byte) (code : BitVec 16) (sev : BitVec 4) (data : Bytes) (reexec : Bool)
    (bad : Nat) : State × Bool :=
  let saf := safetyEntry src code
  let e := s.entryOf src code (sevFlags sev saf false reexec (s.sys.mode == .follow)) data
  let h := { s.hyk with raised := s.hyk.raised + 1 }
  let (h, v) := if limitedCode code then h.limit code sev e.opTime else (h, .write)
  match v with
  | .drop => ({ s with hyk := { h with dropped := h.dropped + 1 } }, false)
  | _ =>
    let h := { h with written := h.written + 1 }
    ({ s with hyk := (Hyk.skips saf bad s.free h).put saf e, free := s.free + 32 * bad }, true)

/-- Raise an event of the module's own; its MRAM writes verify. -/
def State.raise (s : State) (src : Byte) (code : BitVec 16) (sev : BitVec 4) (data : Bytes) : State :=
  (s.offer src code sev data false 0).1

/-- Entry 0x1001 (R390). -/
def State.raiseMode (s : State) (before after : Mode) (sub : BitVec 4) (trigger : Nat) : State :=
  s.raise srcSup 0x1001 2
    (le 1 (modeCode before) ++ le 1 (modeCode after) ++ le 1 sub ++ leBytes 1 trigger ++ le 4 s.sys.baseTick)
/-- The fuse rule's count goes on or rests (R406): it runs in RUN, and in FOLLOW as an IN_SYNC standby. -/
def State.fuseMark (s : State) : State :=
  let counts := s.upd.pending && (s.sys.mode == .run || (s.sys.mode == .follow && s.dpx.standby == 2))
  s.modUpd fun u => { u with
    fuseMs := u.fuseMs + (match u.fuseSince with | some t => s.opMs - t | none => 0)
    fuseSince := if counts then some s.opMs else none }
/-- Change the mode: the SYS_MODE fields, the entry, the event (R38, SYS_EVENT); debug scopes close on leaving SERVICE
(R417). -/
def State.setMode (s : State) (m : Mode) (sub : BitVec 4) (trigger : Nat) : State :=
  let b := s.sys.mode
  let s := if b = .service ∧ m ≠ .service then
      (s.modUpd fun u => { u with scope := 0 }).modTri fun t => { t with debug := false } else s
  ((((s.modSys fun y => { y with mode := m, substate := sub }).raiseMode b m sub trigger)).setEvent 0).fuseMark

/-! ## The hardware firewall (R15, R397) -/

/-- The window lets an access to an address pass: 0 read, 1 write, 2 execute. -/
def windowPasses (access : Byte) (a : Nat) (w : FwWindow) : Bool :=
  decide (w.base.toNat ≤ a ∧ a < w.base.toNat + 2 ^ w.sizeLog2) &&
    (if access = 0 then w.read else if access = 1 then w.write else access == 2 && w.exec)
/-- A granted window lets an access of the Service Processor pass. -/
def State.windowAdmits (s : State) (access : Byte) (addr : Quad) : Bool := s.upd.firewall.any (windowPasses access addr.toNat)
/-- An access that the firewall refuses is recorded and not performed (R15, code 0x2002). -/
def State.firewallRefused (s : State) (access : Byte) (addr : Quad) : State :=
  s.raise srcFirewall 0x2002 4 ([access, 0, 0, 0] ++ le 8 addr)
/-- The windows let an access to every address from `a` up to `e` pass; `k` bounds how many windows it may run through. -/
def windowsCover (ws : List FwWindow) (access : Byte) : Nat → Nat → Nat → Bool
  | 0, a, e => decide (e ≤ a)
  | k + 1, a, e =>
    let r := ((ws.filter (windowPasses access a)).map fun w => w.base.toNat + 2 ^ w.sizeLog2).foldl Nat.max a
    decide (e ≤ a) || (decide (a < r) && windowsCover ws access k r e)

/-- The cycle length in ns. -/
def HlNet.cycleNs (x : HlNet) : Nat := (x.sched.map (·.cycleNs)).getD 1

/-- The Service Processor runs: PD3 is ON, no restart and no on-demand self-test is in progress (R366, R399, R424). -/
def State.stileUp (s : State) : Bool := s.domOn 3 && decide (s.stl.backAt ≤ s.now) && s.bst.job.isNone

/-- The init tasks of step 6 may run: the start has not reached the end of step 8. -/
def State.initStart (s : State) : Option StartReq :=
  if s.sys.mode = .start ∧ s.sys.substate ≠ 9 then s.sys.start else none
/-- An item is sent whole to an IN_SYNC standby (R303). -/
def State.sendItem (s : State) (kind : Byte) (b : Bytes) : State := if s.inSync then s.emit (.mirrorItem kind b) else s

/-- State that a standby which receives mirrors is sent on its change (R303). -/
def State.sendState (s : State) (it : MirrorItem) : State :=
  if s.dpx.role = 1 ∧ s.dpx.standby ≠ 0 then s.emit (.mirrorState it) else s
/-- A partner module is there (R297). -/
def State.partnerPresent (s : State) : Bool := s.dpx.standby != 0 || s.dpx.partnerSeen || s.dpx.partnerClaim

/-- Conditional update. -/
def State.iff (s : State) (c : Bool) (f : State → State) : State := if c then f s else s

end Sys2Proof.Machine
end

