-- ==== Sys2Proof/Machine/Params.lean ====
section
/-! DEFINITION. Items of the configuration set and of the safety parameter set, with their defaults. -/

namespace Sys2Proof.Machine

/-- Index of the network in the items of R114. -/
def netIx : Net → Nat
  | .hl1 => 0
  | .hl2 => 1

/-- Default of an item of PARAMETERS (R114); item 0x0124 depends on the wiring form and stands in `ConfigSet.param`. -/
def paramDefault (id ix : Nat) : Nat :=
  match id with
  | 0x0102 => 1
  | 0x0104 => 1000
  | 0x0105 => 10
  | 0x0112 => 1000
  | 0x0122 => 1
  | 0x0130 => 100000
  | 0x0135 => 1
  | 0x0136 => 1
  | 0x0137 => if ix = 0 then 2 + 6 * 256 else 1 + 4 * 256
  | 0x0143 => 64
  | 0x0150 => 500 + 2 * 65536
  | 0x0151 => 115200 + 4 * 2 ^ 40
  | _ => 0
/-- The value of an item in force (R114). -/
def ConfigSet.param (c : ConfigSet) (id ix : Nat) : Nat :=
  match Tbl.get (fun _ => none) c.params (id * 65536 + ix) with
  | some (v : Quad) => v.toNat
  | none =>
    if id = 0x0124 then
      match Tbl.get (fun _ => none) c.params (0x0123 * 65536 + ix) with
      | some (w : Quad) => if w = 1 then 2 else 0
      | none => 0
    else paramDefault id ix
/-- The schedule that a configuration set gives a network. -/
def ConfigSet.sched (c : ConfigSet) : Net → Option Schedule
  | .hl1 => c.sched1
  | .hl2 => c.sched2
/-- A configured station. -/
def ConfigSet.station? (c : ConfigSet) (n : Net) (a : Nat) : Option StationCfg :=
  c.stations.find? fun x => x.net == n && x.addr == a
/-- An item of the configuration set in force. -/
def State.param (s : State) (id ix : Nat) : Nat := s.cfg.cur.param id ix

/-! ## The safety parameter set (R242, R243) -/

/-- Default of an item of the safety parameter set; none for an item that is then not present (R242). -/
def safDefault (id ix : Nat) : Nat :=
  match id with
  | 0x0002 => 1
  | 0x0003 => 5
  | 0x0004 => ix % 16
  | 0x0010 => 100
  | 0x0011 => 100
  | 0x0012 => 8
  | 0x0013 => 20
  | 0x0014 => 5
  | 0x0015 => 72
  | _ => 0
/-- The raw item, absent when it is not set (R242). -/
def safRaw (t : Tbl (Option Quad)) (id ix : Nat) : Option Quad := Tbl.get (fun _ => none) t (id * 65536 + ix)
/-- The value of an item, its default where it is not set (R242). -/
def safItem (t : Tbl (Option Quad)) (id ix : Nat) : Nat :=
  match safRaw t id ix with
  | some v => v.toNat
  | none => safDefault id ix
/-- Known ID, index and range of an item (R242). -/
def safKnown (id ix v : Nat) : Bool :=
  match id with
  | 0x0001 => decide (ix < 96) && decide (v ∈ [0, 2, 3, 4, 7, 8])
  | 0x0002 => decide (ix < 96) && decide (v ∈ [1, 3])
  | 0x0003 => decide (ix < 96) && decide (2 ≤ v ∧ v ≤ 8)
  | 0x0004 => decide (ix < 96) && decide (v < 16)
  | 0x0005 => decide (ix < 2048) && decide (v / 2 ^ 32 % 256 ≤ 1) && decide (v / 2 ^ 48 % 256 < 8)
      && decide (1 ≤ v / 2 ^ 56 ∧ v / 2 ^ 56 ≤ 15)
  | 0x0006 => decide (ix = 0) && decide (v ≤ 1)
  | 0x0007 => decide (ix ≤ 8)
  | 0x0008 => decide (ix < 4) || (decide (ix = 4) && decide (8 ≤ v ∧ v ≤ 32))
  | 0x0010 => decide (ix < 48) && decide (1 ≤ v ∧ v ≤ 2000)
  | 0x0011 => decide (ix < 96) && decide (2 ≤ v ∧ v ≤ 1000)
  | 0x0012 => decide (ix < 96) && decide (4 ≤ v ∧ v ≤ 32)
  | 0x0013 => decide (ix = 0) && decide (1 ≤ v ∧ v ≤ 500)
  | 0x0014 => decide (ix = 0) && decide (1 ≤ v ∧ v ≤ 5)
  | 0x0015 => decide (ix = 0) && decide (1 ≤ v ∧ v ≤ 720)
  | 0x0020 => decide (ix < 512)
  | _ => false
/-- The item belongs to the structural part (R242); 0x0008 counts as structural (R245). -/
def safStructural (id : Nat) : Bool := id < 0x0010
/-- An item as the digests take it (R243). -/
def safBytes (k : Nat) (v : Option Quad) : Bytes :=
  match v with
  | none => []
  | some v => leBytes 2 (k / 65536) ++ leBytes 2 (k % 65536) ++ leBytes 8 v.toNat
/-- The structural digest (R243). -/
def structDigest (t : Tbl (Option Quad)) : BitVec 256 :=
  Config.sha3 ((t.filter fun p => safStructural (p.1 / 65536)).flatMap fun p => safBytes p.1 p.2)
/-- The set digest (R243). -/
def setDigest (t : Tbl (Option Quad)) : BitVec 256 := Config.sha3 (t.flatMap fun p => safBytes p.1 p.2)
/-- A safety connection: seed, network, station, segment index, is an input, W (R242). -/
structure Conn where
  number : Nat
  seed : Nat
  net : Net
  station : Nat
  index : Nat
  isIn : Bool
  w : Nat
  deriving DecidableEq, Repr
/-- The connections that a set holds. -/
def conns (t : Tbl (Option Quad)) : List Conn :=
  t.filterMap fun (k, v) =>
    if k / 65536 = 5 then v.map fun v =>
      ⟨k % 65536, v.toNat % 2 ^ 32, if v.toNat / 2 ^ 32 % 256 = 1 then .hl2 else .hl1, v.toNat / 2 ^ 40 % 256,
        v.toNat / 2 ^ 48 % 4, v.toNat / 2 ^ 50 % 2 = 0, v.toNat / 2 ^ 56⟩
    else none

/-- Input modes and output modes (R195). -/
def isInputMode (m : Nat) : Bool := 1 ≤ m && m ≤ 5
def isOutputMode (m : Nat) : Bool := 6 ≤ m && m ≤ 8
/-- Modes 0x7 and 0x8: tested, with latches (R215, R233). -/
def isSafetyOut (m : Nat) : Bool := m == 7 || m == 8
/-- The safety modes (R195). -/
def isSafetyMode (m : Nat) : Bool := (2 ≤ m && m ≤ 4) || isSafetyOut m
/-- The mode of a channel under a safety set and the channel section of a configuration set (R195). -/
def chanMode (t : Tbl (Option Quad)) (chs : List ChanCfg) (c : Nat) : Nat :=
  let m := safItem t 1 c
  if m ≠ 0 then m else ((chs[c]?).map (·.mode.toNat)).getD 0
/-- Input type and filter of a channel under both sets. -/
def chanType (t : Tbl (Option Quad)) (chs : List ChanCfg) (c : Nat) : Nat :=
  if safItem t 1 c ≠ 0 then safItem t 2 c else ((chs[c]?).map (·.type.toNat)).getD 1
def chanFilter (t : Tbl (Option Quad)) (chs : List ChanCfg) (c : Nat) : Nat :=
  if safItem t 1 c ≠ 0 then safItem t 3 c else ((chs[c]?).map (·.filter.toNat)).getD 5

/-- Both channels of every dual-channel pair carry the same mode, type and filter (R196). -/
def pairsOk (t : Tbl (Option Quad)) : Bool :=
  (List.range 48).all fun p =>
    let a := safItem t 1 (2 * p)
    let b := safItem t 1 (2 * p + 1)
    !(a == 3 || a == 4 || b == 3 || b == 4) ||
      (a == b && safItem t 2 (2 * p) == safItem t 2 (2 * p + 1) && safItem t 3 (2 * p) == safItem t 3 (2 * p + 1))
/-- Every tested channel of a group has its own offset (R225). -/
def offsetsOk (t : Tbl (Option Quad)) : Bool :=
  (List.range 6).all fun g => decide
    (((List.range 16).filter fun j => isSafetyOut (safItem t 1 (16 * g + j))).map fun j => safItem t 4 (16 * g + j)).Nodup
/-- No channel has a mode in both sets (R195). -/
def modesApart (t : Tbl (Option Quad)) (chs : List ChanCfg) : Bool :=
  (List.range 96).all fun c => safItem t 1 c == 0 || ((chs[c]?).map (·.mode.toNat)).getD 0 == 0
/-- No channel in an input mode is bound by an output mapping (R196). -/
def mappingsOk (t : Tbl (Option Quad)) (chs : List ChanCfg) (cs : List Container) : Bool :=
  cs.all fun c => c.maps.all fun m =>
    !(m.isOut && m.source == 2) || !isInputMode (chanMode t chs m.station)
/-- The rules of R242 for a whole set: R195, R196, R225, R236, seeds and watchdogs. -/
def safSetOk (t : Tbl (Option Quad)) (cfg : ConfigSet) (cs : List Container) : Bool :=
  pairsOk t && offsetsOk t && modesApart t cfg.channels && mappingsOk t cfg.channels cs &&
  cs.all (fun c => c.kind != 1 || (c.tasks.filter (·.type == 0)).all fun k =>
    decide (2 * k.periodUs ≤ 1000 * safItem t 0x13 0)) &&
  (conns t).all (fun c => c.seed != 0 &&
    decide (c.w ≤ ((cfg.station? c.net c.station).map (·.failLimit)).getD 3)) &&
  decide ((conns t).map fun c => (c.net, c.seed)).Nodup

/-- The safety constants of a set (R242, R244); an item not listed is 0. -/
def constTable (t : Tbl (Option Quad)) : Tbl Quad :=
  (List.range 512).foldl (fun c i => Tbl.set (fun _ => 0) c i (BitVec.ofNat 64 (safItem t 0x20 i))) []
/-- An item of the safety parameter set in force. -/
def State.safety (s : State) (id ix : Nat) : Nat := safItem s.saf.items id ix
/-- The mode of a channel in force (R195). -/
def State.modeOf (s : State) (c : Nat) : Nat := chanMode s.saf.items s.cfg.cur.channels c
/-- The loaded containers: safety, partition 0, partition 1. -/
def Prog.loaded (p : Prog) : List Container := p.safety.toList ++ p.std0.toList ++ p.std1.toList

end Sys2Proof.Machine
end

