-- ==== Sys2Proof/Machine/Lanes.lean ====
section
/-! DEFINITION. Lane states of the Safety Triad and of the Control Pair, their records, the mandatory-repair timer
(R160, R164, R181, R184, R255). -/

namespace Sys2Proof.Machine

/-! ## The triad's lanes -/

/-- A lane of the triad. -/
def Tri.lane (t : Tri) (l : Nat) : Lane := if l = 0 then t.lane0 else if l = 1 then t.lane1 else t.lane2
/-- Change only one lane. -/
def State.modLane (s : State) (l : Nat) (f : Lane → Lane) : State :=
  s.modTri fun t =>
    if l = 0 then { t with lane0 := f t.lane0 } else if l = 1 then { t with lane1 := f t.lane1 }
    else { t with lane2 := f t.lane2 }
/-- The lane whose memories a resynchronisation copies: the one in vote with the lowest number (R162). -/
def Tri.source (t : Tri) : Lane :=
  if t.lane0.state = .inVote then t.lane0 else if t.lane1.state = .inVote then t.lane1 else t.lane2
/-- Change the lanes that satisfy a condition. -/
def State.modLanes (s : State) (p : Lane → Bool) (f : Lane → Lane) : State :=
  let g (x : Lane) : Lane := if p x then f x else x
  s.modTri fun t => { t with lane0 := g t.lane0, lane1 := g t.lane1, lane2 := g t.lane2 }
/-- A value read out of triple storage: what two copies hold alike (R154). -/
def Triple.read (x : Triple) : Exchange := if x.a = x.b ∨ x.a = x.c then x.a else x.b
/-- The same value in all three copies. -/
def Triple.all (x : Exchange) : Triple := ⟨x, x, x⟩

/-! ## The lanes' memories (R16, R141, R143, R162, R244) -/

/-- The connection table of a safety parameter set (items 0x0005). -/
def connTable (t : Tbl (Option Quad)) : List (Nat × Quad) :=
  t.filterMap fun (k, v) => if k / 65536 = 5 then v.map fun v => (k % 65536, v) else none
/-- What the lane load of a start or of a container load puts into a lane; zeros while no safety container is loaded
(R143, R369). -/
def State.tcmImage (s : State) : Tcm :=
  match s.prog.safety with
  | none => .reset
  | some c =>
    { code := c.code ++ c.constData, runtime := (if s.upd.activeB then s.upd.slotB else s.upd.slotA).tfVersion, vars := c.vals
      consts := constTable s.saf.items, connTab := connTable s.saf.items }
/-- The Supervisor loads every lane alike, as a resynchronisation of all three (R16, R143); their region signatures, a
digest that is not given, are equal (log entry 80). -/
def State.loadLanes (s : State) : State :=
  (s.modLanes (fun _ => true) fun x =>
    { x with tcm := s.tcmImage, destroyed := false, region := Config.freeBits s.free 256 }).bump
/-- The Supervisor writes the constants and the connection table into every lane (R244). -/
def State.writeConsts (s : State) : State :=
  (s.modLanes (fun _ => true) fun x =>
    { x with tcm := { x.tcm with consts := constTable s.saf.items, connTab := connTable s.saf.items }
             region := Config.freeBits s.free 256 }).bump
/-- The constants of every lane are those of the set in force, or no safety container is loaded (R244). -/
def State.constsWritten (s : State) : Bool :=
  s.prog.safety.isNone || [s.tri.lane0, s.tri.lane1, s.tri.lane2].all fun x => x.tcm.consts == constTable s.saf.items
/-- The variables of the safety program in the lanes' memories: stored by the lanes in vote, or written into all three by
the Supervisor (R16, R172). -/
def State.storeVars (s : State) (all : Bool) : State :=
  s.modLanes (fun x => all || x.state == .inVote) fun x =>
    { x with tcm := { x.tcm with vars := ((s.prog.safety.map (·.vals)).getD []) } }

/-- State codes of 0x5010 (R390). -/
def LaneState.code : LaneState → Nat
  | .inVote => 0
  | .selfTest => 1
  | .resync => 2
  | .excluded => 3
  | .permanent => 4
/-- Lanes in a state, lane 0 in bit 0 (TRI_STATE). -/
def Tri.mask (t : Tri) (x : LaneState) : Nat := maskOf [t.lane0.state == x, t.lane1.state == x, t.lane2.state == x]
/-- All three lanes are IN_VOTE. -/
def Tri.allIn (t : Tri) : Bool := t.mask .inVote == 7
/-- A lane is EXCLUDED or PERMANENT: 1oo2D. -/
def Tri.oneOutOfTwo (t : Tri) : Bool := t.mask .excluded != 0 || t.mask .permanent != 0
/-- TRANSIENTS and EXCLUSIONS of TRI_LANE_n and EXCLUSIONS of CPR_LANE_n: at most 2. -/
def countTwo (l : List Nat) : Nat := Nat.min 2 l.length
/-- Happenings within the last `h` operating hours (R160, R184). -/
def withinHours (h now : Nat) (l : List Nat) : List Nat := l.filter fun t => now < t + h * msHour

/-- The lane and pair states go to the standby (R303). -/
def State.sendLanes (s : State) : State :=
  s.sendState (.laneStates ([s.tri.lane0, s.tri.lane1, s.tri.lane2].map fun x => BitVec.ofNat 3 x.state.code)
    (s.cpr.excluded ||| s.cpr.permanent))
/-- A lane changes its state; the change is recorded (R160, code 0x5010). -/
def State.laneState (s : State) (l : Nat) (st : LaneState) : State :=
  let x := s.tri.lane l
  let s := (s.modLane l fun x => { x with state := st }).sendLanes
  s.raise srcTri 0x5010 (if st = .inVote then 2 else 4)
    ([BitVec.ofNat 8 l, BitVec.ofNat 8 x.state.code, BitVec.ofNat 8 st.code, x.kind.setWidth 8] ++ le 4 s.sys.baseTick
      ++ leBytes 1 (countTwo x.transients) ++ leBytes 1 (countTwo x.exclusions))
/-- The whole triad at entry into START: a lane in SELF_TEST or RESYNC is loaded afresh with the others (R143, R164). -/
def State.lanesAtStart (s : State) : State :=
  [0, 1, 2].foldl (fun s l =>
    let st := (s.tri.lane l).state
    let s := if st = .selfTest ∨ st = .resync then s.laneState l .inVote else s
    s.modLane l fun x => { x with corrected := 0, copied := false, ready := false }) s
/-- A lane as MRAM holds it through a loss of power (R164). -/
def Lane.kept (x : Lane) : Lane :=
  { Lane.reset with
    state := if x.state = .selfTest ∨ x.state = .resync then .inVote else x.state
    transients := x.transients, exclusions := x.exclusions }

/-! ## The mandatory-repair timer (R255) -/

/-- REMAIN_MIN of TRI_REPAIR: the whole time less the operating minutes passed; 0xFFFF while it does not run. -/
def State.repairRemain (s : State) : Nat :=
  match s.tri.repairEnd with
  | none => 0xFFFF
  | some e => (e - s.opMs + 59999) / 60000
/-- Record a stage of the timer: 1 started, 2 half, 3 nine tenths, 4 expired, 5 stopped (R390). -/
def State.repairRecord (s : State) (stage : Nat) : State :=
  (s.sendState (.repairMinutes (BitVec.ofNat 16 s.repairRemain))).raise srcSup 0x5011 (if stage = 4 then 6 else 3)
    ([BitVec.ofNat 8 stage, s.tri.repairLane, 0, 0] ++ leBytes 4 s.repairRemain)
/-- Start the timer for a lane; one that runs keeps its expiry (R247). -/
def State.repairStart (s : State) (l span : Nat) : State :=
  if s.tri.repairEnd.isSome then s else
  (s.modTri fun t => { t with
    repairEnd := some (s.opMs + span), repairSpan := span, repairLane := BitVec.ofNat 8 l
    repairStage := 0 }).repairRecord 1
/-- Stop the timer on a readmission. -/
def State.repairStop (s : State) : State :=
  if s.tri.repairEnd.isSome then
    (s.repairRecord 5).modTri fun t => { t with repairEnd := none, repairStage := 0 }
  else s

/-! ## The pair's lanes -/

/-- CPR_STATE.MODE: 0 not running, 1 checked, 2 single, 3 split (R181, R186). -/
def State.pairMode (s : State) : Nat :=
  if !s.domOn 2 then 0 else if s.cpr.split then 3 else if s.cpr.excluded ||| s.cpr.permanent ≠ 0 then 2 else 1
/-- State codes of 0x3004 (R390). -/
def State.pairCode (s : State) : Nat :=
  if s.cpr.recovery = 1 then 1 else if s.pairMode = 2 then 3 else if s.cpr.recovery = 2 then 2 else 0
/-- Record a change of the pair's state: states, kind, lane excluded or 0xFF (R181, code 0x3004). -/
def State.raisePairState (s : State) (before after : Nat) (kind : BitVec 4) (lane : Byte) (sev : BitVec 4) : State :=
  s.sendLanes.raise srcPair 0x3004 sev
    ([BitVec.ofNat 8 before, BitVec.ofNat 8 after, kind.setWidth 8, lane] ++ le 4 s.sys.baseTick)
/-- Exclusions of a lane of the pair. -/
def Cpr.exclusions (p : Cpr) (l : Nat) : List Nat := if l = 0 then p.exclusions0 else p.exclusions1
/-- Change the exclusions of a lane of the pair. -/
def State.modExclusions (s : State) (l : Nat) (f : List Nat → List Nat) : State :=
  s.modCpr fun p => if l = 0 then { p with exclusions0 := f p.exclusions0 } else { p with exclusions1 := f p.exclusions1 }

end Sys2Proof.Machine
end

