-- ==== Sys2Proof/Machine/Container.lean ====
section
/-! DEFINITION. Program containers: layout, limits, variables, conversion of values (R93 to R101, R111, R465). -/

namespace Sys2Proof.Machine

/-- Cut a section into entries of `n` bytes. -/
def chunks (n : Nat) : Nat → Bytes → List Bytes
  | 0, _ => []
  | k + 1, b => b.take n :: chunks n k (b.drop n)
/-- All whole entries of `n` bytes. -/
def entries (n : Nat) (b : Bytes) : List Bytes := chunks n (b.length / n) b

/-- A directory entry of R94: type, offset, length; none when a reserved field is not 0. -/
def dirEntry (e : Bytes) : Option (Nat × Nat × Nat) :=
  if leAt e 2 2 = 0 ∧ leAt e 12 4 = 0 then some (leAt e 0 2, leAt e 4 4, leAt e 8 4) else none
/-- A directory of `n` entries at byte 64, all inside `len` bytes, aligned to 64, of known types, none twice. -/
def directory (b : Bytes) (n len maxType : Nat) : Option (List (Nat × Nat × Nat)) :=
  match (entries 16 (sub b 64 (16 * n))).mapM dirEntry with
  | none => none
  | some d =>
    if d.length = n ∧ d.all (fun (t, o, l) => 1 ≤ t && t ≤ maxType && o % 64 == 0 && 64 + 16 * n ≤ o && o + l ≤ len)
        ∧ (d.map (·.1)).Nodup then some d else none
/-- The bytes of a section; none when it is absent. -/
def secOf (b : Bytes) (d : List (Nat × Nat × Nat)) (t : Nat) : Option Bytes :=
  (d.find? (·.1 == t)).map fun (_, o, l) => sub b o l

/-- An entry of the TASKS section (R97). -/
def parseTask (e : Bytes) : Option TaskDecl :=
  if (byteAt e 1).toNat ≤ 3 ∧ allZero (sub e 21 11) then
    some ⟨(byteAt e 0).toNat, byteAt e 1, (byteAt e 2).toNat, byteAt e 3, leAt e 4 4, leAt e 8 4, leAt e 16 4,
      (byteAt e 20).toNat⟩
  else none
/-- The size in bytes that a type code fixes (R99); 0 where SIZE is free. -/
def typeSize (t : Nat) : Option Nat :=
  match t with
  | 0x01 => some 1 | 0x02 => some 1 | 0x03 => some 2 | 0x04 => some 4 | 0x05 => some 8 | 0x06 => some 1
  | 0x07 => some 2 | 0x08 => some 4 | 0x09 => some 8 | 0x0A => some 4 | 0x0B => some 8 | 0x0C => some 1
  | 0x0D => some 2 | 0x0E => some 4 | 0x0F => some 8 | 0x10 => some 8 | 0x11 => some 12 | 0x12 => some 0
  | 0x13 => some 0
  | _ => none
/-- An entry of the VARIABLES section (R98). -/
def parseVar (e : Bytes) : Option VarDecl :=
  match typeSize (leAt e 4 2) with
  | none => none
  | some n =>
    let size := leAt e 16 4
    if (n = 0 ∨ n = size) ∧ (byteAt e 6).toNat ≤ 2 ∧ (byteAt e 7).toNat < 32 ∧ allZero (sub e 21 3) then
      some { id := BitVec.ofNat 32 (leAt e 0 4), type := byteAt e 4, cls := byteAt e 6, forceable := bitAt e 7 0
             reinit := bitAt e 7 1, inBound := bitAt e 7 2, outBound := bitAt e 7 3, exported := bitAt e 7 4
             offset := leAt e 8 4, count := leAt e 12 4, size := size, commitTask := (byteAt e 20).toNat
             parent := BitVec.ofNat 32 (leAt e 24 4), init := BitVec.ofNat 32 (leAt e 28 4) }
    else none
/-- An entry of the IMAGE_MAP section (R100). -/
def parseMap (e : Bytes) : Option MapDecl :=
  let isOut := byteAt e 4 == 1
  if (byteAt e 4).toNat ≤ 1 ∧ (byteAt e 5).toNat ≤ 2 ∧ (byteAt e 12).toNat ≤ 7 ∧ (isOut ∨ byteAt e 13 = 0)
      ∧ (byteAt e 5 = 2 → leAt e 6 2 ≤ 95 ∧ leAt e 8 4 ≤ if isOut then 0 else 3) then
    some { var := BitVec.ofNat 32 (leAt e 0 4), isOut := isOut, source := byteAt e 5, station := leAt e 6 2
           byteOff := leAt e 8 4, bitOff := (byteAt e 12).toNat, task := (byteAt e 13).toNat, bits := leAt e 14 2
           stop := BitVec.ofNat 64 (leAt e 16 8) }
  else none

/-- The initial value of a variable, from CONST (R98). -/
def VarDecl.initial (v : VarDecl) (const : Bytes) : Bytes :=
  if v.init = 0xFFFFFFFF then List.replicate (v.count * v.size) 0
  else padTo (v.count * v.size) (const.drop v.init.toNat)

/-- Read a container (R93, R94); none when header, directory or sections break the layout. -/
def parseContainer (b : Bytes) : Option Container :=
  let kind := byteAt b 6
  let part := byteAt b 7
  let n := leAt b 56 2
  let len := leAt b 60 4
  if ¬ (sub b 0 4 = [0x44, 0x58, 0x50, 0x43] ∧ leAt b 4 2 = 1 ∧ kind.toNat ≤ 1
      ∧ (if kind = 0 then part = 0 ∨ part = 1 ∨ part = 0xFF else part = 0)
      ∧ (kind = 0 → allZero (sub b 16 32)) ∧ 4 ≤ n ∧ n ≤ 16 ∧ leAt b 58 2 = 0 ∧ len ≤ b.length) then none else
  match directory b n len 7 with
  | none => none
  | some d =>
    match secOf b d 1, secOf b d 2, secOf b d 3, secOf b d 4 with
    | some code, some const, some ts, some vs =>
      let ms := (secOf b d 5).getD []
      let ex := (secOf b d 6).getD []
      match (entries 32 ts).mapM parseTask, (entries 32 vs).mapM parseVar, (entries 24 ms).mapM parseMap with
      | some tasks, some vars, some maps =>
        if ts.length % 32 = 0 ∧ vs.length % 32 = 0 ∧ ms.length % 24 = 0 ∧ ex.length % 4 = 0
            ∧ ((secOf b d 6).isSome → kind = 1)
            ∧ (vars.any (fun v => v.inBound || v.outBound) → (secOf b d 5).isSome) then
          some { kind := kind, part := part, id := BitVec.ofNat 32 (leAt b 8 4), build := BitVec.ofNat 32 (leAt b 12 4)
                 paramDigest := BitVec.ofNat 256 (leAt b 16 32), retLayout := BitVec.ofNat 32 (leAt b 48 4)
                 perLayout := BitVec.ofNat 32 (leAt b 52 4), digest := Config.sha3 (b.take len), code := code
                 constData := const, tasks := tasks, vars := vars, maps := maps
                 expIds := (entries 4 ex).map fun e => BitVec.ofNat 32 (leNat e), fresh := true
                 vals := vars.map fun v => (v.id, v.initial const) }
        else none
      | _, _, _ => none
    | _, _, _, _ => none

/-- A signature block of R95: key kind, key identifier, signature. -/
structure SigBlock where
  kind : Byte
  key : Quad
  sig : Bytes
  deriving DecidableEq, Repr
/-- Length of a signature block (R95). -/
def sigBlockLen : Nat := 16 + 29792
/-- The signature block at an offset. -/
def sigBlock (b : Bytes) (o : Nat) : Option SigBlock :=
  if o + sigBlockLen ≤ b.length ∧ leAt b o 4 = sigBlockLen ∧ allZero (sub b (o + 5) 3) then
    some ⟨byteAt b (o + 4), BitVec.ofNat 64 (leAt b (o + 8) 8), sub b (o + 16) 29792⟩
  else none

/-! ## Limits and rules of R96 -/

/-- Bytes of the CODE section. -/
def Container.codeLen (c : Container) : Nat := c.code.length
/-- Bytes of all variables. -/
def Container.dataLen (c : Container) : Nat := (c.vars.map fun v => v.count * v.size).sum
/-- Bytes of the variables of a class. -/
def Container.clsLen (c : Container) (k : Byte) : Nat :=
  ((c.vars.filter (·.cls == k)).map fun v => v.count * v.size).sum
/-- The cyclic tasks. -/
def Container.cyclic (c : Container) : List TaskDecl := c.tasks.filter (·.type == 0)
/-- A container of PARTITION 0xFF as it loads into partition 1: 8 is added to its task numbers (R97). -/
def Container.rebase (c : Container) (p : Nat) : Container :=
  if c.part = 0xFF ∧ p = 1 then
    { c with
      tasks := c.tasks.map fun t => { t with task := t.task + 8, parent := if t.parent = 0xFF then 0xFF else t.parent + 8 }
      vars := c.vars.map fun v => { v with commitTask := if v.commitTask = 0xFF then 0xFF else v.commitTask + 8 }
      maps := c.maps.map fun m => if m.isOut then { m with task := m.task + 8 } else m }
  else c

/-- Task numbers of a container in partition `p` (R83, R97). -/
def taskRange (kind : Byte) (p t : Nat) : Bool :=
  if kind = 1 then t == 0 else if p = 1 then 9 ≤ t && t ≤ 16 else 1 ≤ t && t ≤ 8
/-- The task table obeys R83, R86 and R97. -/
def Container.tasksOk (c : Container) (p : Nat) : Bool :=
  let cy := c.cyclic
  c.tasks.all (fun t => taskRange c.kind p t.task) &&
  decide (cy.map (·.task)).Nodup && decide ((c.tasks.filter (·.type == 3)).map (·.parent)).Nodup &&
  decide ((c.tasks.filter (·.type == 1)).length ≤ 1) && decide ((c.tasks.filter (·.type == 2)).length ≤ 1) &&
  cy.all (fun t => t.parent == 0xFF && t.offsetUs < t.periodUs &&
    if c.kind = 1 then 250 ≤ t.periodUs && t.periodUs ≤ 100000 && t.priority == 0
    else 125 ≤ t.periodUs && t.periodUs ≤ 1000000 && 1 ≤ t.priority && t.priority ≤ 8) &&
  (c.kind == 1 || decide (cy.map (·.priority)).Nodup) &&
  (c.tasks.filter (·.type != 0)).all (fun t => t.priority == 0 && t.periodUs == 0 &&
    if t.type = 3 then cy.any (·.task == t.parent) else t.parent == 0xFF)

/-- Two mappings of output points meet: same source, station and a common bit (R100). -/
def MapDecl.meets (a b : MapDecl) : Bool :=
  a.source == b.source && a.station == b.station &&
  decide (a.byteOff * 8 + a.bitOff < b.byteOff * 8 + b.bitOff + b.bits) &&
  decide (b.byteOff * 8 + b.bitOff < a.byteOff * 8 + a.bitOff + a.bits)
/-- The segment, by directory index, that a mapping into a station names, with the offset in it (R100, R116). DESIGN
CHOICE: an entry has no segment index, so the byte offset runs through the station's segments of its direction in index
order (log entry 70). -/
def segmentAt (segs : List Segment) (isOut : Bool) (source : Byte) (station off : Nat) : Option (Nat × Nat) :=
  let own := (segs.zipIdx.filter fun (s, _) => s.isOut == isOut && s.source == source && s.station == station)
  let sorted := (List.range 4).filterMap fun k => own.find? fun (s, _) => s.index == k
  let rec go : List (Segment × Nat) → Nat → Option (Nat × Nat)
    | [], _ => none
    | (s, i) :: r, o => if o < s.size then some (i, o) else go r (o - s.size)
  go sorted off
/-- No pair of a list meets. -/
def noPair {α : Type} (f : α → α → Bool) : List α → Bool
  | [] => true
  | a :: l => l.all (fun b => !f a b) && noPair f l
/-- R21 and R465 hold for the output mappings of a container set. DESIGN CHOICE: an output point longer than 64 bits with a
stop value other than 0 counts as a binding conflict (log entry 70). -/
def bindingsOk (segs : List Segment) (cs : List Container) : Bool :=
  let outs := cs.flatMap fun c => (c.maps.filter (·.isOut)).map fun m => (c, m)
  outs.all (fun (c, m) => c.cyclic.any (·.task == m.task) && (m.bits ≤ 64 || m.stop == 0)) &&
  noPair (fun a b => a.2.meets b.2) outs &&
  noPair (fun a b =>
    let sa := (segmentAt segs true a.2.source a.2.station a.2.byteOff).map (·.1)
    let sb := (segmentAt segs true b.2.source b.2.station b.2.byteOff).map (·.1)
    a.2.source == b.2.source && a.2.station == b.2.station && a.2.task != b.2.task &&
    (a.2.source == 2 || (sa.isSome && sa == sb))) outs

/-- The first limit or rule of R96 that a container breaks; `others` are the other containers loaded, `digest` the
structural digest of the parameter set in force (R243). The last row, 0x1C, belongs to the command. -/
def Container.refusal (c : Container) (p : Nat) (others : List Container) (segs : List Segment)
    (digest : BitVec 256) : Option Nat :=
  let all := c :: others
  if c.kind = 1 ∧ c.codeLen + c.constData.length > 896 * 1024 then some 0x11
  else if c.kind = 1 ∧ c.dataLen > 896 * 1024 then some 0x12
  else if c.kind = 0 ∧ c.codeLen + c.constData.length + c.dataLen > 2 ^ 30 then some 0x13
  else if c.vars.length > 262144 then some 0x14
  else if c.maps.length > 131072 then some 0x15
  else if (all.map fun x => x.clsLen 1 + x.clsLen 2).sum > 1536 * 1024 ∨ (all.map (·.clsLen 2)).sum > 256 * 1024 then
    some 0x16
  else if !c.tasksOk p then some 0x17
  else if !bindingsOk segs all then some 0x18
  else if c.vars.any (fun v => v.id == 0 || v.id == 0xFFFFFFFF) ∨ ¬ (c.vars.map (·.id)).Nodup then some 0x19
  else if c.kind = 1 ∧ c.paramDigest ≠ digest then some 0x1A
  else if c.vars.any (fun v => if v.cls = 0 then v.commitTask != 0xFF else !c.cyclic.any (·.task == v.commitTask)) then
    some 0x1B
  else none

/-! ## Conversion of values (R111) -/

/-- What R111 makes of one element: its bytes and whether it was saturated, rounded or truncated. -/
structure Conv where
  val : Bytes
  lossy : Bool
  deriving DecidableEq, Repr

/-- Signed integer types; unsigned integer types; bit strings (R99). -/
def isSigned (t : Byte) : Bool := 0x02 ≤ t.toNat && t.toNat ≤ 0x05
def isUnsigned (t : Byte) : Bool := 0x06 ≤ t.toNat && t.toNat ≤ 0x09
def isInteger (t : Byte) : Bool := isSigned t || isUnsigned t
def isBits (t : Byte) : Bool := 0x0C ≤ t.toNat && t.toNat ≤ 0x0F
/-- The value of an integer element. -/
def intVal (t : Byte) (b : Bytes) : Int :=
  let n := leNat b
  if isSigned t ∧ 2 ^ (8 * b.length - 1) ≤ n then (n : Int) - 2 ^ (8 * b.length) else n
/-- A value saturated to an integer type of `n` bytes. -/
def satInt (signed : Bool) (n : Nat) (v : Int) : Int × Bool :=
  let lo : Int := if signed then -(2 ^ (8 * n - 1)) else 0
  let hi : Int := if signed then 2 ^ (8 * n - 1) - 1 else 2 ^ (8 * n) - 1
  if v < lo then (lo, true) else if hi < v then (hi, true) else (v, false)
/-- The bytes of an integer, two's complement. -/
def intBytes (n : Nat) (v : Int) : Bytes := leBytes n (v % 2 ^ (8 * n)).toNat

/-- An IEEE 754 binary format: significand bits without the hidden one, exponent bits. -/
structure Fmt where
  man : Nat
  exp : Nat
  deriving DecidableEq, Repr
def fmtReal : Fmt := ⟨23, 8⟩
def fmtLreal : Fmt := ⟨52, 11⟩
/-- Greatest exponent of the significand's unit: value = m × 2^(e − bias − man). -/
def Fmt.bias (f : Fmt) : Nat := 2 ^ (f.exp - 1) - 1
/-- A decoded floating-point value. -/
inductive Flt where
  | nan
  | inf (neg : Bool)
  /-- sign, significand, exponent of its unit -/
  | fin (neg : Bool) (m : Nat) (e : Int)
  deriving DecidableEq, Repr
/-- Decode (R99: REAL and LREAL). -/
def Fmt.decode (f : Fmt) (n : Nat) : Flt :=
  let neg := decide (n / 2 ^ (f.man + f.exp) % 2 = 1)
  let x := n / 2 ^ f.man % 2 ^ f.exp
  let m := n % 2 ^ f.man
  if x = 2 ^ f.exp - 1 then (if m = 0 then .inf neg else .nan)
  else if x = 0 then .fin neg m (1 - f.bias - f.man)
  else .fin neg (m + 2 ^ f.man) ((x : Int) - f.bias - f.man)
/-- A nonnegative rational num / 2^k rounded to nearest, ties to even. -/
def roundShift (m k : Nat) : Nat :=
  let q := m / 2 ^ k
  let r := m % 2 ^ k
  if 2 * r < 2 ^ k then q else if 2 ^ k < 2 * r then q + 1 else if k = 0 then q else q + q % 2
/-- Encode m × 2^e, rounded to nearest with ties to even; beyond range the largest finite value. The Boolean says
whether the value changed. -/
def Fmt.encode (f : Fmt) (neg : Bool) (m : Nat) (e : Int) : Nat × Bool :=
  let s := if neg then 2 ^ (f.man + f.exp) else 0
  if m = 0 then (s, false) else
  let emin : Int := 1 - f.bias - f.man
  -- exponent of the unit that leaves man + 1 bits, not below the denormal unit
  let e0 : Int := e + (Nat.log2 m : Int) - f.man
  let u : Int := if e0 < emin then emin else e0
  let (q, ch) := if u ≤ e then (m * 2 ^ (e - u).toNat, false)
    else (roundShift m (u - e).toNat, m % 2 ^ (u - e).toNat != 0)
  let (q, u) := if q = 2 ^ (f.man + 1) then (2 ^ f.man, u + 1) else (q, u)
  let x : Int := if q < 2 ^ f.man then 0 else u + f.bias + f.man
  if x ≥ 2 ^ f.exp - 1 then (s + (2 ^ f.exp - 2) * 2 ^ f.man + (2 ^ f.man - 1), true)
  else (s + x.toNat * 2 ^ f.man + q % 2 ^ f.man, ch)

/-- The value rounded to an integer, ties to even; NaN becomes 0, infinity saturates (R111). -/
def Flt.toInt : Flt → Int × Bool
  | .nan => (0, false)
  | .inf neg => (if neg then -(2 ^ 64) else 2 ^ 64, true)
  | .fin neg m e =>
    let q : Nat := if 0 ≤ e then m * 2 ^ e.toNat else roundShift m (-e).toNat
    let ch := !(0 ≤ e) && m % 2 ^ (-e).toNat != 0
    (if neg then -(q : Int) else q, ch)

/-- Floating-point format of a type. -/
def fmtOf (t : Byte) : Option Fmt := if t = 0x0A then some fmtReal else if t = 0x0B then some fmtLreal else none

/-- Conversion of one element by R111; none where it refuses. A NaN stays a NaN; its payload is open (log entry 10). -/
def convert (t n t' n' : Nat) (b : Bytes) : Option Conv :=
  let ty : Byte := BitVec.ofNat 8 t
  let ty' : Byte := BitVec.ofNat 8 t'
  if t = t' ∧ n = n' then some ⟨b, false⟩
  else if isInteger ty ∧ isInteger ty' then
    let (v, l) := satInt (isSigned ty') n' (intVal ty b)
    some ⟨intBytes n' v, l⟩
  else if (isBits ty ∨ isInteger ty) ∧ (isBits ty' ∨ isInteger ty') then
    some ⟨padTo n' b, !allZero (b.drop n')⟩
  else if t = 1 ∧ (isInteger ty' ∨ isBits ty') then some ⟨leBytes n' (if allZero b then 0 else 1), false⟩
  else if (isInteger ty ∨ isBits ty) ∧ t' = 1 then some ⟨[if allZero b then 0 else 1], false⟩
  else if (t = 0x10 ∧ t' = 0x05) ∨ (t = 0x05 ∧ t' = 0x10) then some ⟨b, false⟩
  else if t = 0x12 ∧ t' = 0x12 then
    let l := leAt b 0 2
    let l' := Nat.min l (n' - 2)
    some ⟨padTo n' (leBytes 2 l' ++ sub b 2 l'), l' < l⟩
  else
    match fmtOf ty, fmtOf ty' with
    | none, some f' =>
      if isInteger ty then
        let v := intVal ty b
        let (x, l) := f'.encode (v < 0) v.natAbs 0
        some ⟨leBytes n' x, l⟩
      else none
    | some f, none =>
      if isInteger ty' then
        let (v, l) := (f.decode (leNat b)).toInt
        let (v, l') := satInt (isSigned ty') n' v
        some ⟨intBytes n' v, l || l'⟩
      else none
    | some f, some f' =>
      let s := leNat b / 2 ^ (f.man + f.exp)
      match f.decode (leNat b) with
      | .nan =>
        some ⟨leBytes n' (s * 2 ^ (f'.man + f'.exp) + (2 ^ f'.exp - 1) * 2 ^ f'.man
          + (Config.nanPayload b n' % (2 ^ f'.man - 1) + 1)), false⟩
      | .inf neg =>
        if n' < n then some ⟨leBytes n' ((if neg then 2 ^ (f'.man + f'.exp) else 0) + (2 ^ f'.exp - 2) * 2 ^ f'.man + (2 ^ f'.man - 1)), true⟩
        else some ⟨leBytes n' ((if neg then 2 ^ (f'.man + f'.exp) else 0) + (2 ^ f'.exp - 1) * 2 ^ f'.man), false⟩
      | .fin neg m e => let (x, l) := f'.encode neg m e; some ⟨leBytes n' x, l⟩
    | none, none => none

/-- A variable by its ID. -/
def Container.var (c : Container) (i : Word) : Option VarDecl := c.vars.find? (·.id == i)
/-- The value of a variable. -/
def Container.val (c : Container) (i : Word) : Bytes := ((c.vals.find? (·.1 == i)).map (·.2)).getD []
/-- Set the value of a variable, keeping its length. -/
def Container.setVal (c : Container) (i : Word) (b : Bytes) : Container :=
  { c with vals := c.vals.map fun (j, x) => if j = i then (j, padTo x.length b) else (j, x) }

/-- A variable of a new build as R111 fills it from an old one: value and number of lossy elements; none where a
conversion is refused. -/
def carryVar (v : VarDecl) (ini : Bytes) (old : VarDecl) (val : Bytes) : Option (Bytes × Nat) :=
  let k := Nat.min v.count old.count
  match ((List.range k).mapM fun j =>
      convert old.type.toNat old.size v.type.toNat v.size (sub val (j * old.size) old.size)) with
  | none => none
  | some cs => some ((cs.flatMap (·.val)) ++ ini.drop (k * v.size), (cs.filter (·.lossy)).length)

/-- The values of a new build carried from an old one; `only` says which variables carry (all of them at an on-line
change, the retained classes at a load). None where a carried variable is refused. -/
def carry (new old : Container) (only : VarDecl → Bool) : Option (Container × List (Word × Nat)) :=
  let one (v : VarDecl) : Option (Word × Bytes × Nat) :=
    let ini := v.initial new.constData
    match old.var v.id with
    | none => some (v.id, ini, 0)
    | some o =>
      if v.reinit ∨ ¬ only v then some (v.id, ini, 0)
      else match carryVar v ini o (old.val v.id) with
        | none => none
        | some (b, n) => some (v.id, b, n)
  match new.vars.mapM one with
  | none => none
  | some l =>
    some ({ new with vals := l.map fun (i, b, _) => (i, b) },
      (l.filter fun (_, _, n) => n != 0).map fun (i, _, n) => (i, n))
/-- Carried data in bytes (R109). DESIGN CHOICE: where SIZE changes, that of the new build counts (log entry 70). -/
def carriedBytes (new old : Container) : Nat :=
  (new.vars.map fun v => match old.var v.id with
    | none => 0
    | some o => if v.reinit then 0 else v.size * Nat.min v.count o.count).sum

/-! ## Forces across a change (R112, R113) -/

/-- A force as the new build carries it; none when it counts as a force on a deleted variable (R112). -/
def Force.carry (f : Force) (new old : Container) : Option Force :=
  match new.var f.var, old.var f.var with
  | some v, some o =>
    if v.forceable ∧ (v.inBound ∨ v.outBound) ∧ f.elem.toNat < v.count then
      (convert o.type.toNat o.size v.type.toNat v.size f.value).map fun c => { f with value := c.val, isOut := v.outBound }
    else none
  | _, _ => none

end Sys2Proof.Machine
end

