-- ==== Sys2Proof/Machine/Rings.lean ====
section
/-! DEFINITION. Ring pairs: slots, records, interrupts, the acceptance journal, completion. -/

namespace Sys2Proof.Machine

/-! ## Slots -/

/-- Depth of a ring pair (R57). -/
def Ring.depth (r : Ring) : Nat := 2 ^ r.depthLog2.toNat
/-- Ring memory offset of the command entry of an index (R57, R63). -/
def Ring.cmdOff (r : Ring) (i : Word) : Nat := r.base.toNat * 64 + i.toNat % r.depth * 64
/-- Ring memory offset of the completion record of an index: the completion ring follows the command ring (R57). -/
def Ring.cplOff (r : Ring) (i : Word) : Nat := r.base.toNat * 64 + r.depth * 64 + i.toNat % r.depth * 64
/-- The ring pair of a handle (R61). -/
def handleRing (h : Quad) : Nat := h.toNat / 2 ^ 59
/-- A handle (R61). -/
def mkHandle (ring : Nat) (epoch : BitVec 19) (seq : BitVec 40) : Quad := BitVec.ofNat 5 ring ++ epoch ++ seq
/-- The sequence after `q` (R61). -/
def nextHandleSeq (q : BitVec 40) : BitVec 40 := if q = 0xFFFFFFFFFF then 1 else q + 1

/-! ## The ring pair's interrupt (R67) -/

/-- The interrupt condition of R67. -/
def Ring.irqOn (r : Ring) (now : Nat) : Bool :=
  let u := r.undelivered.filter (·.2.2)
  !r.mask && (decide (Nat.max 1 r.thresh.toNat ≤ u.length) ||
    (r.timer != 0 && match u with
      | [] => false
      | (_, t, _) :: _ => decide (t + r.timer.toNat * countsUs ≤ now)))
/-- Signal a ring pair's interrupt to its owner (R56). -/
def State.signal (s : State) (n : Nat) : State :=
  if n < 8 then s.msix n else if 24 ≤ n then s.emit .serviceIrq else s
/-- Signal when the condition holds and did not before. -/
def State.irqEdge (s : State) (n : Nat) (before : Bool) : State :=
  if !before && (s.ring n).irqOn s.now then s.signal n else s

/-! ## Records -/

/-- KINDs of R60. -/
def kindAccepted : Nat := 1
def kindDone : Nat := 2
def kindRejected : Nat := 3

/-- A completion record (R60). -/
def mkRecord (h : Quad) (tag : Word) (status : BitVec 16) (kind : Nat) (result : Bytes) : Bytes :=
  le 8 h ++ le 4 tag ++ le 2 status ++ leBytes 2 kind ++ padTo 48 result
/-- Write a record into the next completion slot; `counts` when it counts toward the threshold (R59, R67). -/
def State.placeRecord (s : State) (n : Nat) (rec : Bytes) (counts : Bool) : State :=
  let r := s.ring n
  let s1 := s.modMem fun m => { m with ring := m.ring.store (r.cplOff r.cplProd) rec }
  let s2 := s1.modRing n fun r => { r with
    cplProd := r.cplProd + 1
    undelivered := r.undelivered ++ [(r.cplProd, s.now, counts)] }
  s2.irqEdge n (r.irqOn s.now)
/-- Produced minus consumed has reached the depth (R63). -/
def Ring.full (r : Ring) : Bool := decide (r.depth ≤ (r.cplProd - r.cplCons).toNat)
/-- A record is written into the next completion slot, or waits behind those that wait for one (R63). -/
def State.putRecord (s : State) (n : Nat) (rec : Bytes) (counts : Bool) : State :=
  let r := s.ring n
  if r.backlog.isEmpty ∧ !r.full then s.placeRecord n rec counts
  else s.modRing n fun r => { r with backlog := r.backlog ++ [(rec, counts, false)] }
/-- Waiting records take the slots that have come free, in their order; the last of a replay sets REPLAY_DONE. -/
def State.drainRecords (n : Nat) : List (Bytes × Bool × Bool) → State → State
  | [], s => s.modRing n fun r => { r with backlog := [] }
  | (b, c, last) :: l, s =>
    if (s.ring n).full then s.modRing n fun r => { r with backlog := (b, c, last) :: l }
    else
      let s := s.placeRecord n b c
      State.drainRecords n l (if last then s.modRing n fun r => { r with replayDone := true } else s)

/-- The version 1 status of a version 2 code (R81); a REJECTED code gives 0x0001. -/
def v1Status (st : BitVec 16) : BitVec 16 :=
  if st = 0 then 0 else if st.toNat / 256 = 1 then 1 else if st = 0x0200 then 2 else if st = 0x0400 then 4 else 3
/-- STATUS of a record (R81). -/
def shownStatus (v1 : Bool) (st : BitVec 16) : BitVec 16 := if v1 then v1Status st else st
/-- RESULT of a record: on version 1 the version 2 code stands in bytes 44 to 45 (R81). -/
def shownResult (v1 : Bool) (st : BitVec 16) (res : Bytes) : Bytes :=
  if v1 then patch (padTo 48 res) 44 (le 2 st) else padTo 48 res

/-- NO_IRQ of FLAGS (R59). -/
def JEntry.noIrq (e : JEntry) : Bool := e.flags.getLsbD 1
/-- FENCE of FLAGS (R59). -/
def JEntry.fence (e : JEntry) : Bool := e.flags.getLsbD 0
/-- DROP_FORCES of FLAGS (R59). -/
def JEntry.dropForces (e : JEntry) : Bool := e.flags.getLsbD 2
/-- The commit is journalled (R32). -/
def JEntry.committed (e : JEntry) : Bool := e.phase == .committed || e.phase == .doneWritten

/-- The DONE record of a journal entry (R60, R81). -/
def JEntry.doneRecord (e : JEntry) (replayed : Bool) : Bytes :=
  mkRecord e.handle e.tag (shownStatus e.v1 e.status)
    (kindDone + 16 * maskOf [e.combined, replayed, e.extended]) (shownResult e.v1 e.status e.result)
/-- The ACCEPTED record of a journal entry (R60). -/
def JEntry.acceptedRecord (e : JEntry) (replayed : Bool) : Bytes :=
  mkRecord e.handle e.tag 0 (kindAccepted + 16 * maskOf [false, replayed])
    (shownResult e.v1 0 (leBytes 8 e.accepted ++ le 4 e.index))
/-- Write an ACCEPTED record. -/
def State.putAccepted (s : State) (e : JEntry) (replayed : Bool) : State :=
  s.putRecord e.ring (e.acceptedRecord replayed) (!e.noIrq)

/-! ## The acceptance journal (R30, R32, R73) -/

/-- The journal entry of a handle. -/
def State.entry (s : State) (h : Quad) : Option JEntry := s.journal.find? (·.handle == h)
/-- Change the journal entry of a handle. -/
def State.modEntry (s : State) (h : Quad) (f : JEntry → JEntry) : State :=
  s.modJournal fun j => j.map fun e => if e.handle = h then f e else e
/-- Handles of a ring pair without a written DONE record: RING_OUTSTANDING_n.COUNT. -/
def State.outstanding (s : State) (n : Nat) : Nat :=
  (s.journal.filter fun e => e.ring == n && e.phase != .doneWritten).length
/-- Handles outstanding in the module (R80, STATUS_GET), the asking command's own left out (log entry 26). -/
def State.outstandingAll (s : State) (own : Quad) : Nat :=
  (s.journal.filter fun e => e.phase != .doneWritten && e.handle != own).length
/-- The completion ring has at least two free slots beyond one for every outstanding handle (R66). -/
def State.room (s : State) (n : Nat) : Bool :=
  let r := s.ring n
  decide (2 + s.outstanding n + (r.cplProd - r.cplCons).toNat ≤ r.depth)

/-- Write the DONE record of an entry and journal that (R32). -/
def State.putDone (s : State) (e : JEntry) (replayed : Bool) : State :=
  let i := (s.ring e.ring).cplProd + BitVec.ofNat 32 (s.ring e.ring).backlog.length
  (s.putRecord e.ring (e.doneRecord replayed) (!e.noIrq)).modEntry e.handle fun x =>
    { x with phase := .doneWritten, doneAt := i }
/-- The DONE records of a ring pair that R31 no longer holds back: committed ones with nothing uncommitted before. -/
def State.ready (s : State) (n : Nat) : List JEntry :=
  (s.journal.filter fun e => e.ring == n && !e.combined && e.phase != .doneWritten).takeWhile (·.phase == .committed)
/-- Write them, in acceptance order (R31). -/
def State.flush (s : State) (n : Nat) : State := (s.ready n).foldl (fun s e => s.putDone e e.replay) s

/-- Journal the commit of a command with its status and result (R32); its DONE record, or its COMBINED record, is
written at once unless R31 holds it back. -/
def State.complete (s : State) (h : Quad) (status : BitVec 16) (result : Bytes) (extended : Bool := false) : State :=
  match s.entry h with
  | none => s
  | some e =>
    if e.committed then s else
    let e' := { e with phase := .committed, status := status, result := padTo 48 result, extended := extended }
    let s := s.modEntry h fun _ => e'
    if e.combined then s.putDone e' false else s.flush e.ring

/-- The commit is journalled with its result; the DONE record is written by the start or the swap that follows (R76). -/
def State.commitOnly (s : State) (h : Quad) (result : Bytes) : State :=
  s.modEntry h fun e => { e with phase := .committed, status := 0, result := padTo 48 result }

/-! ## Status codes (R79) -/

def stOk : BitVec 16 := 0x0000
def stUnknownOpcode : BitVec 16 := 0x0100
def stBadFlags : BitVec 16 := 0x0101
def stBadArgument : BitVec 16 := 0x0102
def stNotPermitted : BitVec 16 := 0x0103
def stStandby : BitVec 16 := 0x0104
def stShuttingDown : BitVec 16 := 0x0105
def stJournalFailed : BitVec 16 := 0x0106
def stPartnerNoAck : BitVec 16 := 0x0107
def stClassFull : BitVec 16 := 0x0108
def stWrongMode : BitVec 16 := 0x0200
def stNotFound : BitVec 16 := 0x0201
def stVerifyFailed : BitVec 16 := 0x0202
def stAuthFailed : BitVec 16 := 0x0203
def stRefused : BitVec 16 := 0x0204
def stForcedVariable : BitVec 16 := 0x0205
def stRollback : BitVec 16 := 0x0206
def stBufferFault : BitVec 16 := 0x0207
def stTimeout : BitVec 16 := 0x0208
def stHwFault : BitVec 16 := 0x0209
def stFenced : BitVec 16 := 0x0300
def stRetry : BitVec 16 := 0x0301
def stBusy : BitVec 16 := 0x0302
def stRemoteError : BitVec 16 := 0x0303
def stNoRoute : BitVec 16 := 0x0304
def stAbandoned : BitVec 16 := 0x0400

/-- Complete with a status that is not OK: the detail code in bytes 0 to 3 (R78). -/
def State.fail (s : State) (h : Quad) (status : BitVec 16) (detail : Nat := 0) : State :=
  s.complete h status (leBytes 4 detail)
/-- Complete with REFUSED and its detail code (R78). -/
def State.refuse (s : State) (h : Quad) (detail : Nat) : State := s.fail h stRefused detail

/-! ## The catalogue (R80, R82) -/

/-- Command classes (R71). -/
inductive Cls where | q | m | p | f | u | k | b
  deriving DecidableEq, Repr

/-- A row of the catalogue: class; owners H, P, T, S; modes S, R, F, V. -/
structure CmdInfo where
  cls : Cls
  ownH : Bool := true
  ownP : Bool := false
  ownT : Bool := false
  ownS : Bool := false
  inStop : Bool
  inRun : Bool
  inFollow : Bool
  inService : Bool
  deriving DecidableEq, Repr

/-- The version 2 catalogue (R80). -/
def cmdInfo (op : BitVec 16) : Option CmdInfo :=
  match op.toNat with
  | 0x2000 => some { cls := .q, ownP := true, ownT := true, ownS := true, inStop := true, inRun := true, inFollow := true, inService := true }
  | 0x2001 => some { cls := .q, ownP := true, ownT := true, ownS := true, inStop := true, inRun := true, inFollow := true, inService := true }
  | 0x2002 => some { cls := .q, ownS := true, inStop := true, inRun := true, inFollow := true, inService := true }
  | 0x2010 => some { cls := .m, inStop := true, inRun := false, inFollow := false, inService := false }
  | 0x2011 => some { cls := .m, inStop := false, inRun := true, inFollow := false, inService := false }
  | 0x2012 => some { cls := .m, inStop := true, inRun := false, inFollow := false, inService := false }
  | 0x2013 => some { cls := .m, inStop := false, inRun := false, inFollow := false, inService := true }
  | 0x2014 => some { cls := .m, inStop := true, inRun := true, inFollow := true, inService := true }
  | 0x2015 => some { cls := .m, inStop := true, inRun := true, inFollow := true, inService := true }
  | 0x2016 => some { cls := .m, inStop := true, inRun := true, inFollow := true, inService := false }
  | 0x2017 => some { cls := .m, inStop := true, inRun := true, inFollow := false, inService := false }
  | 0x2020 => some { cls := .p, inStop := true, inRun := false, inFollow := false, inService := false }
  | 0x2021 => some { cls := .p, inStop := true, inRun := true, inFollow := false, inService := false }
  | 0x2022 => some { cls := .p, inStop := true, inRun := true, inFollow := false, inService := false }
  | 0x2023 => some { cls := .p, inStop := true, inRun := true, inFollow := false, inService := false }
  | 0x2024 => some { cls := .q, inStop := true, inRun := true, inFollow := true, inService := false }
  | 0x2025 => some { cls := .p, inStop := true, inRun := false, inFollow := false, inService := false }
  | 0x2026 => some { cls := .p, inStop := true, inRun := true, inFollow := false, inService := false }
  | 0x2030 => some { cls := .f, inStop := false, inRun := true, inFollow := false, inService := true }
  | 0x2031 => some { cls := .f, ownT := true, inStop := true, inRun := true, inFollow := false, inService := false }
  | 0x2040 => some { cls := .u, ownS := true, inStop := true, inRun := true, inFollow := true, inService := true }
  | 0x2041 => some { cls := .u, ownS := true, inStop := true, inRun := true, inFollow := true, inService := true }
  | 0x2042 => some { cls := .u, inStop := true, inRun := true, inFollow := true, inService := false }
  | 0x2043 => some { cls := .u, ownS := true, inStop := true, inRun := true, inFollow := true, inService := true }
  | 0x2050 => some { cls := .q, ownS := true, inStop := true, inRun := true, inFollow := true, inService := true }
  | 0x2051 => some { cls := .k, ownS := true, inStop := true, inRun := true, inFollow := true, inService := true }
  | 0x2052 => some { cls := .k, inStop := false, inRun := false, inFollow := false, inService := true }
  | 0x2060 => some { cls := .m, inStop := false, inRun := false, inFollow := false, inService := true }
  | 0x2070 => some { cls := .q, inStop := true, inRun := true, inFollow := true, inService := true }
  | 0x2080 => some { cls := .b, ownP := true, ownS := true, inStop := true, inRun := true, inFollow := false, inService := false }
  | 0x2081 => some { cls := .b, ownP := true, ownS := true, inStop := true, inRun := true, inFollow := true, inService := true }
  | _ => none

/-- The version 2 opcode that a version 1 opcode is performed as (R82). -/
def v1Opcode (op : BitVec 16) : Option (BitVec 16) :=
  match op.toNat with
  | 0x0001 => some 0x2000
  | 0x0002 => some 0x2001
  | 0x0010 => some 0x2010
  | 0x0011 => some 0x2011
  | 0x0012 => some 0x2014
  | 0x0013 => some 0x2015
  | 0x0020 => some 0x2020
  | 0x0030 => some 0x2022
  | 0x0031 => some 0x2023
  | 0x0040 => some 0x2080
  | _ => none

/-- The owner of the ring pair may submit the command (R80). -/
def CmdInfo.permits (c : CmdInfo) (ring : Nat) : Bool :=
  if ring < 12 then c.ownH else if ring < 20 then c.ownP else if ring < 24 then c.ownT else c.ownS
/-- The mode is in the Modes column (R80). -/
def CmdInfo.inMode (c : CmdInfo) : Mode → Bool
  | .stop => c.inStop
  | .run => c.inRun
  | .follow => c.inFollow
  | .service => c.inService
  | .start => false
  | .halt => false

/-- The class of a journal entry. -/
def JEntry.cls (e : JEntry) : Cls := ((cmdInfo e.opcode).map (·.cls)).getD .q
/-- The Stile context of a class B entry: ARGS bytes 0 to 1, or fixed on a version 1 ring pair (R80, R82). -/
def JEntry.context (e : JEntry) : Nat := if e.v1 then 116 + e.ring else leAt e.args 0 2

/-- Entries before that of a handle, in acceptance order. -/
def before (h : Quad) (j : List JEntry) : List JEntry := j.takeWhile (·.handle != h)

/-- Nothing holds an accepted entry back: START has been left (R39), its fence (R71), its class (R71). -/
def State.mayBegin (s : State) (e : JEntry) : Bool :=
  let b := before e.handle s.journal
  (s.sys.mode != .start) && (s.sys.mode != .halt) && !(s.sys.mode == .service && s.sys.substate == 6) && s.pwr.on &&
  (!e.fence || b.all fun x => x.ring != e.ring || x.committed) &&
  match e.cls with
  | .q => true
  | .b => b.all fun x => x.cls != .b || x.context != e.context || x.committed
  | c => b.all fun x => x.cls != c || x.committed

/-- Begin an accepted command: `f` runs on its entry when the handle names one of this opcode that may begin; a mode
that its Modes column lacks completes it with WRONG_MODE (R38, R69). -/
def State.begin (s : State) (h : Quad) (op : BitVec 16) (v1 : Bool) (f : JEntry → State) : State :=
  match s.entry h with
  | none => s
  | some e =>
    if e.opcode = op ∧ e.v1 = v1 ∧ e.phase = .accepted ∧ s.mayBegin e then
      match cmdInfo op with
      | none => s
      | some c => if c.inMode s.sys.mode then f e else s.fail h stWrongMode
    else s

/-- The mode check at the commit point (R69) of a command that executes. -/
def State.commitMode (s : State) (e : JEntry) : Bool :=
  match cmdInfo e.opcode with
  | none => false
  | some c => c.inMode s.sys.mode
/-- Mark a command as executing. -/
def State.executing (s : State) (h : Quad) : State := s.modEntry h fun e => { e with phase := .executing }

/-! ## Output buffers (R72) -/

/-- Length in a buffer descriptor. -/
def descLen (d : Bytes) : Nat := leAt d 8 4
/-- The descriptor is well formed: bytes 12 to 15 are 0. -/
def descOk (d : Bytes) : Bool := leAt d 12 4 == 0
/-- Write an output buffer: into the staging area for ring pairs 8 to 11, by DMA or into a granted window otherwise. -/
def State.output (s : State) (ring : Nat) (desc : Bytes) (b : Bytes) : State :=
  if 8 ≤ ring ∧ ring < 12 then s.modMem fun m => { m with staging := m.staging.store (leAt desc 0 8) b }
  else s.emit (.dma desc b)
/-- A granted window admits every byte of a buffer of ring pairs 24 to 31 (R72, R397); other owners have no such window. -/
def State.inWindows (s : State) (ring : Nat) (access : Byte) (desc : Bytes) : Bool :=
  ring < 24 || windowsCover s.upd.firewall access s.upd.firewall.length (leAt desc 0 8) (leAt desc 0 8 + descLen desc)
/-- The output buffer can be reached: in the staging area by its bounds (R443), in the windows granted to the Service
Processor and Stile (R72), elsewhere as the world says. -/
def State.outReach (s : State) (ring : Nat) (desc : Bytes) (ok : Bool) : Bool :=
  if 8 ≤ ring ∧ ring < 12 then decide (leAt desc 0 8 + descLen desc ≤ 0x4000000) else ok && s.inWindows ring 1 desc
/-- The bytes of an input buffer: from the staging area for ring pairs 8 to 11 (R443), otherwise the operand, which for
ring pairs 24 to 31 must lie in a granted window (R72). -/
def State.input (s : State) (ring : Nat) (desc : Bytes) (b : Buf) : Option Bytes :=
  if 8 ≤ ring ∧ ring < 12 then
    if leAt desc 0 8 + descLen desc ≤ 0x4000000 then some (s.mem.staging.bytes (leAt desc 0 8) (descLen desc)) else none
  else
    match b with
    | .bytes x => if s.inWindows ring 0 desc then some (padTo (descLen desc) x) else none
    | .unreachable => none

end Sys2Proof.Machine
end

