-- ==== Sys2Proof/Machine/FieldOps.lean ====
section
/-! DEFINITION. Field Link and the channel cells: frames, configuration blocks, levels, the local segments, pairs,
tests (R194 to R238). -/

namespace Sys2Proof.Machine

/-- The group of a channel (R194). -/
def groupOf (c : Nat) : Nat := c / 16
/-- All channels; the channels of a group. -/
def allChans : List Nat := List.range 96
def groupChans (g : Nat) : List Nat := (List.range 16).map (16 * g + ·)
/-- Change every channel. -/
def State.modChans (s : State) (f : Nat → Channel → Channel) : State :=
  s.modFld fun x => { x with chans := Tbl.updAll (fun _ => Channel.reset) f allChans x.chans }

/-! ## Frames of the coupler (R199, R221, R222) -/

/-- The code of a test phase in TEST of a command frame (R221). -/
def TestPhase.code : TestPhase → Nat
  | .idle => 0
  | .offH => 1
  | .offL => 2
  | .darkH => 3
  | .darkL => 4
/-- The test phase of a code; the reserved codes name none. -/
def testOf (n : Nat) : TestPhase :=
  match n with
  | 1 => .offH
  | 2 => .offL
  | 3 => .darkH
  | 4 => .darkL
  | _ => .idle
/-- A command frame (R221). -/
def cmdFrame (c : Nat) (seq : Nat) (out : Bool) (test : TestPhase) (latchClr lowOpen : Bool) (cfg : Byte) : Bytes :=
  let b : Bytes := [0x5A, BitVec.ofNat 8 c, BitVec.ofNat 8 (seq % 16 * 16 + maskOf [out] * 8 + test.code),
    BitVec.ofNat 8 (maskOf [latchClr, lowOpen]), cfg, 0]
  b ++ beBytes 2 (crc16 b).toNat
/-- An uplink frame (R199). -/
def uplinkOf (c : Nat) (state count : Nat) (diag supply : Byte) : Bytes :=
  let b : Bytes := [0xA6, BitVec.ofNat 8 (128 + c), BitVec.ofNat 8 state] ++ beBytes 2 count ++ [diag, supply, 0]
  b ++ beBytes 2 (crc16 b).toNat
/-- The CRC at the end of a coupler frame or configuration block is correct; most significant byte first (log entry 11). -/
def crcEnd (b : Bytes) (n : Nat) : Bool := b.length == n && beAt b (n - 2) 2 == (crc16 (b.take (n - 2))).toNat

/-- HOLD_MS of a channel (R236). -/
def holdMs (t : Tbl (Option Quad)) (cfg : ConfigSet) (c mode : Nat) : Nat :=
  if mode = 6 then cfg.param 0x0112 (groupOf c) else if mode = 7 then safItem t 0x13 0
  else if mode = 8 then safItem t 0x14 0 else 0
/-- The cell configuration block (R222). -/
def cfgBlock (t : Tbl (Option Quad)) (cfg : ConfigSet) (c : Nat) : Bytes :=
  let mode := chanMode t cfg.channels c
  let edge := if mode = 5 then ((cfg.channels[c]?).map (·.edge.toNat)).getD 0 else 0
  let b : Bytes := [BitVec.ofNat 8 (mode + (if chanType t cfg.channels c = 3 then 16 else 0) + edge * 32),
    BitVec.ofNat 8 (chanFilter t cfg.channels c), BitVec.ofNat 8 (safItem t 0x12 c),
    BitVec.ofNat 8 (if mode = 6 then cfg.param 0x0111 (groupOf c) else 0)]
    ++ beBytes 2 (holdMs t cfg c mode) ++ List.replicate 8 0
  b ++ beBytes 2 (crc16 b).toNat

/-- The logic side of every channel and pair takes its configuration from both sets (R195, R222, R225, R209); discrepancy
times act from the next channel tick (R247). -/
def State.applyChannels (s : State) : State :=
  let t := s.saf.items
  let cfg := s.cfg.cur
  let s := s.modChans fun c x =>
    let m := chanMode t cfg.channels c
    { x with
      mode := BitVec.ofNat 4 m, type3 := chanType t cfg.channels c == 3
      filter := BitVec.ofNat 4 (chanFilter t cfg.channels c)
      edge := BitVec.ofNat 2 (((cfg.channels[c]?).map (·.edge.toNat)).getD 0)
      offset := BitVec.ofNat 4 (if isSafetyOut m then safItem t 4 c else 0)
      pulse := BitVec.ofNat 6 (safItem t 0x12 c), period := BitVec.ofNat 10 (safItem t 0x11 c)
      block := cfgBlock t cfg c }
  s.modFld fun x => { x with pairs := Tbl.updAll (fun _ => DualPair.reset) (fun p d =>
    { d with nextSteps := BitVec.ofNat 11 (safItem t 0x10 p), antivalent := safItem t 1 (2 * p) == 4 }) (List.range 48) x.pairs }

/-- Every cell that sends has its configuration block in force, every pair its discrepancy time (R222, R247). -/
def State.cellsSettled (s : State) : Bool :=
  (allChans.all fun c => !(s.cell c).powered || (s.cell c).inForce == (s.chan c).block) &&
  (List.range 48).all fun p => (s.dual p).nextSteps == (s.dual p).steps
/-- The DONE record of a safety parameter change: every item has taken effect; 50 ms after the commit at the latest, cells
that take no block left out (R247; log entry 75). -/
def State.changeDone (s : State) : State :=
  match s.saf.applying with
  | none => s
  | some (h, r, t) =>
    if s.constsWritten ∧ (s.cellsSettled ∨ t + 50 * countsMs ≤ s.now) then
      (s.modSaf fun x => { x with applying := none }).complete h stOk r
    else s
/-! ## Levels at the terminals (R203, R219) -/

/-- What a terminal voltage is recognised as, in units of 0.125 V; `free` where R203 assigns neither level. -/
def level (type3 lowCurrent : Bool) (v : Int) (free : Bool) : Bool :=
  if lowCurrent then false
  else if (if type3 then 88 else 120) ≤ v ∧ v ≤ 280 then true
  else if -24 ≤ v ∧ v ≤ 40 then false
  else free
/-- M of R205: the filter time in ticks. -/
def filterTicks (code : BitVec 4) : Nat :=
  match code.toNat with
  | 0 => 2 | 1 => 4 | 2 => 8 | 3 => 16 | 4 => 32 | 5 => 48 | 6 => 80 | 7 => 160 | _ => 320

/-- P and M expected for a switch state (R220). -/
def expectP (hi _lo : Bool) : Bool := hi
def expectM (hi lo : Bool) : Bool := hi && !lo

/-! ## Latches and conditions -/

/-- Latch classes (R233). -/
def latCoupler : Nat := 0
def latInput : Nat := 1
def latShort : Nat := 2
def latOverload : Nat := 3
def latCross : Nat := 4
def latSwitch : Nat := 5
def latUnder : Nat := 6
def latHold : Nat := 7
/-- Set a latch class. -/
def Channel.latch (x : Channel) (k : Nat) : Channel := { x with latches := x.latches ||| (1 <<< k) }
/-- Clear the latch classes of a mask; a safety output then needs a tick of command 0 (R234). -/
def Channel.unlatch (x : Channel) (m : Byte) : Channel :=
  { x with latches := x.latches &&& ~~~ m, needOff := x.needOff || (x.latches &&& m != 0) }
/-- The mode code as a number. -/
def Channel.m (x : Channel) : Nat := x.mode.toNat
/-- A test or phase of the channel is cut short: not counted, due again at once (R230); an acknowledgement that asked for
it takes it as not passed, since its DONE record is due (R234). -/
def Channel.cutShort (x : Channel) (now : Nat) : Channel :=
  if x.test = .idle then x else
  { x with test := .idle, second := false, demand := false, due := some now
           testDone := if x.ackTest.isSome then some false else none }
/-- The conditions of R208 hold for a channel in its tick. -/
def State.inputGood (s : State) (c : Nat) : Bool :=
  let x := s.chan c
  x.validNow && !x.couplerLost && !x.cellFault && !(s.group (groupOf c)).uvLatch

/-! ## Dual-channel pairs (R209, R210) -/

/-- PAIR codes (R213). -/
def PairState.code : PairState → Nat
  | .off => 0
  | .rising => 1
  | .on => 2
  | .falling => 3
  | .fault => 4
/-- The pair is configured (R196). -/
def State.isPair (s : State) (p : Nat) : Bool := (s.chan (2 * p)).m == 3 || (s.chan (2 * p)).m == 4
/-- The tick is evaluated for the pair (R210). -/
def State.pairEvaluated (s : State) (p : Nat) : Bool := s.inputGood (2 * p) && s.inputGood (2 * p + 1)
/-- D in ticks (R209). -/
def DualPair.d (x : DualPair) : Nat := x.steps.toNat * 8
/-- One evaluated tick of a pair, levels normalised (R210); entry into FAULT is the command DISCREPANCY. -/
def DualPair.next (x : DualPair) (a b : Bool) : DualPair :=
  match x.state with
  | .off =>
    if a && b then { x with state := .on, safe := true }
    else if a || b then { x with state := .rising, timer := 0, running := true, safe := false } else { x with safe := false }
  | .rising =>
    if a && b && x.timer.toNat ≤ x.d then { x with state := .on, safe := true, running := false, timer := 0 }
    else if !a && !b && x.timer.toNat ≤ x.d then { x with state := .off, safe := false, running := false, timer := 0 }
    else { x with safe := false }
  | .on =>
    if a != b then { x with state := .falling, safe := false, timer := 0, running := true }
    else if !a && !b then { x with state := .off, safe := false } else { x with safe := true }
  | .falling =>
    if !a && !b && x.timer.toNat ≤ x.d then { x with state := .off, safe := false, running := false, timer := 0 }
    else { x with safe := false }
  | .fault => if !a && !b then { x with state := .off, safe := false, discrepancy := false } else { x with safe := false }
/-- Record a change of a pair's state (R210, code 0x5012). -/
def State.raisePair (s : State) (p : Nat) (a b : PairState) (timer : BitVec 16) : State :=
  if a = b then s else s.raise srcField 0x5012 (if b = .fault then 4 else 1)
    ([BitVec.ofNat 8 p, BitVec.ofNat 8 a.code, BitVec.ofNat 8 b.code, 0] ++ le 4 s.fld.ticks ++ le 2 timer)
/-- The tick of one pair: the timer advances, then the rows of R210 in an evaluated tick. -/
def State.pairTick (s : State) (p : Nat) : State :=
  if !s.isPair p then s else
  let x := s.dual p
  let x := if x.running then { x with timer := satInc x.timer } else x
  let y := if s.pairEvaluated p then
      x.next (s.chan (2 * p)).filt ((s.chan (2 * p + 1)).filt ^^ x.antivalent)
    else { x with safe := false }
  (s.modDual p fun _ => y).raisePair p x.state y.state x.timer

/-! ## The local input segment (R213, R214) -/

/-- SAFE of a channel in the tick (R208, R210). -/
def State.safeOf (s : State) (c : Nat) : Bool :=
  let x := s.chan c
  if x.m = 2 then x.filt && s.inputGood c
  else if x.m = 3 ∨ x.m = 4 then (s.dual (c / 2)).safe && s.pairEvaluated (c / 2) else false
/-- The four bytes of a channel (R213, R224): values of the last valid frame. -/
def State.chanBytes (s : State) (c : Nat) : Bytes :=
  let x := s.chan c
  let d := s.dual (c / 2)
  let pair := x.m == 3 || x.m == 4
  let out := isOutputMode x.m
  if x.m = 0 then [0, 0, 0, 0] else
  [BitVec.ofNat 8 (maskOf [x.filt, x.raw, out && x.readback, s.safeOf c] + (if pair then d.state.code * 16 else 0)),
   BitVec.ofNat 8 (maskOf [x.validNow, !x.validNow, x.couplerLost, (s.group (groupOf c)).supplyLow,
     pair && d.discrepancy, x.cellFault, x.diag.getLsbD 1 && !out, x.restarted])]
  ++ (if x.m = 5 then beBytes 2 x.count.toNat
      else if out then [x.latches, BitVec.ofNat 8 (maskOf [x.outStat.getLsbD 0, x.outStat.getLsbD 1, x.diag.getLsbD 4, x.openLoad,
        x.diag.getLsbD 3, x.outStat.getLsbD 2, x.outStat.getLsbD 3])]
      else [0, 0])
/-- The local input segment of a group. -/
def State.localIn (s : State) (g : Nat) : Bytes := (groupChans g).flatMap s.chanBytes
/-- VALID of its quality word (R214). -/
def State.localValid (s : State) (g : Nat) : Bool :=
  (groupChans g).all fun c => (s.chan c).m == 0 || (s.chan c).validNow
/-- The directory index of a local segment (R116). -/
def State.localSeg (s : State) (isOut : Bool) (g : Nat) : Option Nat :=
  (s.cfg.cur.segments.zipIdx.find? fun (x, _) => x.isOut == isOut && x.source == 2 && x.station == g).map (·.2)
/-- The assembled segments become latest (R198, R126). -/
def State.latestLocal (s : State) (g : Nat) : State :=
  match s.localSeg false g with
  | none => s
  | some i => s.modSwd fun w => { w with ins := Tbl.upd (fun _ => InSeg.reset) w.ins i fun x =>
      { x with raw := s.localIn g, valid := s.localValid g, subst := false, source := 2, age := 0, everGood := true
               supplyLow := (s.group g).supplyLow } }

/-! ## Commands of a tick (R129, R215, R221, R223) -/

/-- VALUE of a channel in the Sending buffer of its group's local output segment (R223). -/
def State.valueOut (s : State) (c : Nat) : Bool :=
  match s.localSeg true (groupOf c) with
  | none => false
  | some i => bitAt (Tbl.get (fun _ => []) s.swd.sending i) (c % 16) 0
/-- Output commands of mode 0x8 are sent only while the own claim is asserted and the partner's is not recognised
(R300). -/
def Dpx.drives (d : Dpx) : Bool := d.ownClaim && !d.partnerClaim
/-- What the program's value lets Field Link command, before latches (R36, R215, R300, R311). -/
def State.wanted (s : State) (c : Nat) : Bool :=
  let m := (s.chan c).m
  s.valueOut c && s.sys.mode != .follow &&
  (if m = 6 then true
   else if m = 7 then s.sys.mode == .run && !s.fld.safetyOff
   else if m = 8 then s.sys.mode == .run && !s.fld.safetyOff && s.dpx.drives && decide (s.dpx.dwHold ≤ s.now) else false)
/-- The command of the tick (R233, R234, R235). -/
def State.commandOf (s : State) (c : Nat) : Bool :=
  let x := s.chan c
  s.wanted c && !(s.group (groupOf c)).uvLatch && !x.uvWait &&
  (x.m == 6 || (x.latches == 0 && !x.needOff))

/-- The tick's slot starts for the channel's offset (R225). -/
def slotOf (k : Nat) (offset : BitVec 4) : Bool := k % 16 == 0 && k / 16 % 16 == offset.toNat
/-- A test ends and updates its counters (R230). -/
def Channel.endTest (x : Channel) (aborted passed : Bool) : Channel :=
  { x with test := .idle, second := false, demand := false, tsched := x.tsched + 1
           texec := if aborted then x.texec else x.texec + 1
           tabort := if aborted then x.tabort + 1 else x.tabort
           testDone := if x.ackTest.isSome then some (passed && !aborted) else none }
/-- The slot boundary of a channel: a phase without a result is cut short (R230), the cross-short watch starts afresh
(R231), a due or second phase begins in its slot (R226). -/
def State.slotStart (s : State) (k : Nat) (c : Nat) (cmd : Bool) : Channel :=
  let x := s.chan c
  let x := if k % 16 = 0 ∧ x.test ≠ .idle ∧ !x.second then x.cutShort s.now else x
  let x := if k % 16 = 0 then { x with slotTest := false, slotOk := true, slotMoved := false, slotRaw := x.raw } else x
  if !slotOf k x.offset ∨ !isSafetyOut x.m ∨ (x.m = 8 ∧ s.sys.mode = .follow) then x
  else if x.second ∧ x.latches ≠ 0 ∧ x.ackTest.isNone then x.cutShort s.now
  else if x.second then { x with second := false, slotTest := true }
  else if x.await ∧ x.ackTest.isSome ∧ (s.group (groupOf c)).uvLatch then { x with await := false, testDone := some false }
  else if x.test = .idle ∧ x.await ∧ !(s.group (groupOf c)).uvLatch ∧ (x.latches = 0 ∨ x.ackTest.isSome) then
    { x with await := false, slotTest := true, demand := false
             test := if cmd && x.ackTest.isNone then .darkH else .offH
             due := some (s.now + x.period.toNat * 10 * countsMs) }
  else x
/-- A demand meets a test (R228, R229). -/
def Channel.meet (x : Channel) (cmd : Bool) : Channel :=
  match x.test with
  | .idle => x
  | .darkH => if cmd then x else x.endTest true false
  | .darkL => if cmd then x else x.endTest true false
  | .offH => if cmd then { x with demand := true } else x
  | .offL => if cmd && x.second then x.endTest true false else x
/-- The commands of tick `k` for one channel: its next record and its frame. LOW_OPEN goes to a standard output while its
group has an undervoltage trip latched (R215). -/
def State.tickChan (s : State) (k : Nat) (c : Nat) : Channel × Bytes :=
  let cmd := s.commandOf c
  let x := s.chan c
  let moved := cmd != x.cmd
  let x := (s.slotStart k c cmd).meet cmd
  let begins := slotOf k x.offset && !x.second && x.test != .idle && isSafetyOut x.m
  let fr := cmdFrame c k (cmd && isOutputMode x.m) (if begins then x.test else .idle) x.latchClr
    (x.m == 6 && (s.group (groupOf c)).uvLatch) (byteAt x.block (k % 16))
  ({ x with cmd := cmd && isOutputMode x.m, latchClr := false, slotOk := x.slotOk && !moved
            needOff := x.needOff && s.wanted c, uvWait := x.uvWait && s.wanted c
            validNow := false, judged := false }, fr)

/-! ## Cross-shorts and acknowledgements at a slot's end (R231, R234) -/

/-- Channels of a group that R231 finds joined to channel `j`. -/
def State.crossed (s : State) (j : Nat) : List Nat :=
  (groupChans (groupOf j)).filter fun i =>
    let x := s.chan i
    i != j && isOutputMode x.m && x.slotOk && x.slotMoved && x.raw == x.slotRaw
/-- A cross-short latches; the test that found it has ended and counts as executed, one of the other channel is cut short
(R230, R231). -/
def Channel.cross (x : Channel) (own : Bool) (now : Nat) : Channel :=
  if !isSafetyOut x.m then x else
  let y := if x.test = .idle then x else if own then x.endTest false false else x.cutShort now
  { y.latch latCross with testDone := y.testDone.map fun _ => false }
/-- The end of a slot on channel `j`: what R231 finds latches on both. -/
def State.slotEnd (s : State) (j : Nat) : State :=
  if !(s.chan j).slotTest then s else
  match s.crossed j with
  | [] => s
  | is => (j :: is).foldl (fun s i => s.modChan i fun x => x.cross (i == j) s.now) s
/-- Latches of a mask still set on a list of channels. -/
def State.latchCount (s : State) (m : Byte) (cs : List Nat) : Nat :=
  (cs.map fun c =>
    let x := s.chan c
    let l := x.latches ||| BitVec.ofNat 8 (maskOf [x.couplerLost, x.cellFault])
    ((List.range 8).filter fun k => (l &&& m).getLsbD k).length).sum
/-- The classes that an off-test clears (R234). -/
def testClasses : Byte := 0x3C
/-- An acknowledgement's test of a channel has ended: its latches clear if it passed. -/
def State.ackChan (s : State) (c : Nat) : State :=
  match (s.chan c).ackTest, (s.chan c).testDone with
  | some (_, m), some ok =>
    let s1 := s.modChan c fun x =>
      { (if ok then x.unlatch (m &&& testClasses) else x) with ackTest := none, testDone := none }
    let n := s.latchCount (m &&& testClasses) [c] - s1.latchCount (m &&& testClasses) [c]
    s1.modFld fun f => { f with ackJob := f.ackJob.map fun (h, m, cs, k) => (h, m, cs, k + n) }
  | _, _ => s
/-- The DONE record of a SAFETY_ACK once no channel still tests for it (R234). -/
def State.ackDone (s : State) : State :=
  match s.fld.ackJob with
  | none => s
  | some (h, m, cs, n) =>
    if cs.any fun c => (s.chan c).ackTest.isSome then s else
    let r := leBytes 2 n ++ leBytes 2 (s.latchCount m cs)
    let s := s.modFld fun f => { f with ackJob := none }
    if (s.entry h).any s.commitMode then s.complete h stOk r else s.fail h stWrongMode

/-- A whole channel tick (R198, R129): the segments of the tick before become latest, slots end and begin, every
channel gets its frame. -/
def State.tick (s : State) : State :=
  let s := (List.range 6).foldl State.latestLocal s
  let k := s.fld.ticks.toNat + 1
  let s := if k % 16 = 0 then (allChans.foldl State.ackChan (allChans.foldl State.slotEnd s)).ackDone else s
  let s := s.modFld fun f => { f with
    ticks := f.ticks + 1, prior := f.chans
    pairs := Tbl.updAll (fun _ => DualPair.reset) (fun _ d => { d with steps := d.nextSteps }) (List.range 48) f.pairs }
  let fs := allChans.map fun c => (c, s.tickChan k c)
  let t := fs.foldl (fun t (c, x, fr) =>
    let t := (t.modChan c fun _ => x).emit (.cell c fr)
    if x.m = 8 ∧ !x.second ∧ x.test ≠ .idle ∧ slotOf k x.offset then t.emit (.announce c) else t) s
  t.modFld fun f => { f with deadline := false, lastTick := s.now }

/-- Another frame in place of the newest one to a channel. -/
def replaceFrame (c : Nat) (fr : Bytes) : List Output → List Output
  | [] => []
  | .cell d b :: l => if d = c then .cell c fr :: l else .cell d b :: replaceFrame c fr l
  | x :: l => x :: replaceFrame c fr l
/-- A local segment published on the TBU count of a channel tick is fixed at that tick (R129): its channels' commands of
the tick are formed from it. -/
def State.refixLocal (s : State) : State :=
  if s.fld.lastTick = s.now ∧ s.fld.ticks ≠ 0 ∧ s.domOn 7 ∧ !s.fld.silent then
    let k := s.fld.ticks.toNat
    let q := s.modFld fun f => { f with chans := f.prior }
    allChans.foldl (fun t c =>
      let (x, fr) := q.tickChan k c
      if x = s.chan c then t else
      let t := t.modChan c fun _ => x
      { t with sent := replaceFrame c fr t.sent }) s
  else s
/-- The last command frame of a module that enters HALT or stops Field Link: safety outputs off, the low side of the
standard outputs open (R50, R221). -/
def State.lastFrames (s : State) : State :=
  let k := s.fld.ticks.toNat + 1
  let t := allChans.foldl (fun t c =>
    let x := s.chan c
    t.emit (.cell c (cmdFrame c k (x.m == 6 && x.cmd) .idle false (x.m == 6) (byteAt x.block (k % 16))))) s
  (t.modChans fun _ x => { (x.cutShort s.now) with cmd := x.m == 6 && x.cmd }).modFld fun f =>
    { f with silent := true, safetyOff := true }

/-- Field Link at entry into START: counters, HOLD, due tests, silence ended (R226, R233). -/
def State.startField (s : State) : State :=
  let s := s.applyChannels
  let s := s.modChans fun _ x =>
    let x := { x with
      invalid := 0, tsched := 0, texec := 0, tabort := 0, test := .idle, second := false, await := false
      demand := false, ackTest := none, testDone := none, cmd := false
      due := if isSafetyOut x.m then some s.now else none }
    if isSafetyOut x.m then x.latch latHold else x
  s.modFld fun f => { f with
    pairs := Tbl.updAll (fun _ => DualPair.reset) (fun _ d => { d with steps := d.nextSteps }) (List.range 48) f.pairs
    ticks := 0, silent := false, safetyOff := false, deadline := false, ackJob := none
    groups := Tbl.updAll (fun _ => Group.reset) (fun _ g => { g with uvTrips := 0 }) (List.range 6) f.groups }
/-- HOLD on every channel in modes 0x7 and 0x8 (R233, R248); a test under way is cut short (R230). -/
def State.holdAll (s : State) : State :=
  s.modChans fun _ x => if isSafetyOut x.m then (x.cutShort s.now).latch latHold else x

end Sys2Proof.Machine
end

