-- ==== Sys2Proof/Machine/Image.lean ====
section
/-! DEFINITION. Sward: points of a segment, forces, versions, publishing, fixing, substitution
(05_sward_process_image.md). -/

namespace Sys2Proof.Machine

/-! ## Points of a segment (R100, R118) -/

/-- A point: directory index, first byte, bit in it, length in bits. -/
structure Point where
  seg : Nat
  off : Nat
  bit : Nat
  bits : Nat
  deriving DecidableEq, Repr
/-- Bytes that a point touches. -/
def Point.len (p : Point) : Nat := (p.bit + p.bits + 7) / 8
/-- The value of a point, most significant byte first (R118). -/
def Point.read (p : Point) (b : Bytes) : Nat := beAt b p.off p.len / 2 ^ p.bit % 2 ^ p.bits
/-- The buffer with a point set; its other bits as they were (R137). -/
def Point.write (p : Point) (b : Bytes) (v : Nat) : Bytes :=
  let old := beAt b p.off p.len
  let hi := old / 2 ^ (p.bit + p.bits) * 2 ^ (p.bit + p.bits)
  patch b p.off (beBytes p.len (hi + v % 2 ^ p.bits * 2 ^ p.bit + old % 2 ^ p.bit))
/-- Element `e` of a point that binds `count` elements. -/
def Point.elem (p : Point) (count e : Nat) : Point :=
  let n := p.bits / Nat.max 1 count
  let at_ := p.bit + e * n
  { p with off := p.off + at_ / 8, bit := at_ % 8, bits := n }
/-- The point of a mapping (R100). -/
def pointOf (segs : List Segment) (m : MapDecl) : Option Point :=
  if m.source = 2 then
    (segs.zipIdx.find? fun (x, _) => x.isOut == m.isOut && x.source == 2 && x.station == groupOf m.station).map
      fun (_, i) => ⟨i, if m.isOut then m.station % 16 else 4 * (m.station % 16) + m.byteOff, m.bitOff, m.bits⟩
  else (segmentAt segs m.isOut m.source m.station m.byteOff).map fun (i, o) => ⟨i, o, m.bitOff, m.bits⟩
/-- The segment directory in force. -/
def State.segs (s : State) : List Segment := s.cfg.cur.segments
/-- Bytes that a segment occupies (R117). -/
def Segment.room (x : Segment) : Nat := (x.size + 63) / 64 * 64
/-- B of R124 for a directory. DESIGN CHOICE: 40 where there is no input segment, for which the quotient is undefined (log
entry 70). -/
def bufferCount (segs : List Segment) : Nat :=
  let n := ((segs.filter fun x => !x.isOut).map (·.room)).sum
  if n = 0 then 40 else Nat.min 40 (5632 * 1024 / n)
/-- Banks of the input pool in RETENTION (R369): all of them when no segment has a buffer, none when the buffers need all
eleven; which ones otherwise is open (log entry 38). -/
def retainedBanks (segs : List Segment) (k : Nat) : BitVec 16 :=
  let n := ((segs.filter fun x => !x.isOut).map (·.room)).sum
  if n = 0 then 0x07FF
  else if 10 * 512 * 1024 < bufferCount segs * n then 0 else Config.freeBits k 16 &&& 0x07FF
/-- The pool follows the directory in force: SWD_BANKSTAT.BUFFERS, PWR_DOMAIN.SRAM_RET (R124, R369). -/
def State.poolFor (s : State) (segs : List Segment) : State :=
  ((s.modSwd fun w => { w with buffers := BitVec.ofNat 6 (bufferCount segs) }).modPwr fun p =>
    { p with sramRet := retainedBanks segs s.free }).bump
/-- Cyclic tasks of a container set. -/
def cyclicCount (cs : List Container) : Nat := (cs.map fun c => c.cyclic.length).sum
/-- The containers whose tasks are present: partition 1 only in split mode (R83). -/
def counted (split : Bool) (cs : List Container) : List Container := cs.filter fun c => c.kind == 1 || c.part == 0 || split
/-- A load, change or MODE_RUN refused by the buffer rule sets REFUSED_CFG (R124, R139). -/
def State.refuseLoad (s : State) (h : Quad) (d : Nat) : State :=
  (if d = 0x51 then s.modSwd fun w => { w with refusedCfg := true } else s).refuse h d
/-- The buffer rule (R124). -/
def bufferRule (segs : List Segment) (cs : List Container) : Bool := decide (2 * cyclicCount cs + 5 ≤ bufferCount segs)

/-! ## Networks and stations -/

/-- Network of a segment source. -/
def srcNetOf (x : Byte) : Option Net := if x = 0 then some .hl1 else if x = 1 then some .hl2 else none
/-- The node is integrated (R278). -/
def HlNet.isIntegrated (n : HlNet) : Bool := n.state == .integrated || n.state == .reference
/-- The schedule's entry of a slot. -/
def HlNet.slot (n : HlNet) (k : Nat) : Option SlotDesc := n.sched.bind fun c => c.slots.find? (·.slot == k)
/-- The segment carries a safety trailer. -/
def State.trailer (s : State) (x : Segment) : Bool :=
  match srcNetOf x.source with
  | none => false
  | some n => (((s.net n).slot x.slot).map (·.trailer)).getD false
/-- Segments of a direction that a station has, with their directory indices. -/
def State.stationSegs (s : State) (isOut : Bool) (n : Net) (a : Nat) : List (Segment × Nat) :=
  s.segs.zipIdx.filter fun (x, _) => x.isOut == isOut && srcNetOf x.source == some n && x.station == a
/-- Change one input segment. -/
def State.modIn (s : State) (i : Nat) (f : InSeg → InSeg) : State :=
  s.modSwd fun w => { w with ins := Tbl.upd (fun _ => InSeg.reset) w.ins i f }
/-- An input segment. -/
def State.inSeg (s : State) (i : Nat) : InSeg := Tbl.get (fun _ => InSeg.reset) s.swd.ins i
/-- Substitute values of a segment (R132). -/
def State.substitute (s : State) (x : Segment) (y : InSeg) : Bytes :=
  if s.trailer x then List.replicate x.size 0
  else if x.subst = 0 ∧ y.everGood then padTo x.size y.raw
  else if x.subst = 1 then padTo x.size (s.cfg.cur.substitutes.drop x.substOff)
  else List.replicate x.size 0
/-- Substitute the input segments of a station (R131). -/
def State.substituteStation (s : State) (n : Net) (a : Nat) : State :=
  (s.stationSegs false n a).foldl (fun s (x, i) =>
    s.modIn i fun y => { y with raw := s.substitute x y, valid := false, subst := true, source := 3 }) s
/-- The segments of a returned station are live (R133). -/
def State.reviveStation (s : State) (n : Net) (a : Nat) : State :=
  (s.stationSegs false n a).foldl (fun s (_, i) =>
    s.modIn i fun y => { y with raw := y.last, valid := true, subst := false, source := y.lastSrc }) s
/-- A frame that passed R125 becomes latest; behind a substitution it is only kept (R126, R130). -/
def InSeg.frame (y : InSeg) (b : Bytes) (ch : BitVec 2) (now : Nat) : InSeg :=
  let y := { y with last := b, lastSrc := ch, age := 0, everGood := true, goodAt := now }
  if y.subst then y else { y with raw := b, valid := true, source := ch }

/-! ## Error-task events (R92, R134) -/

/-- The container that declares a cyclic task, and the declaration. -/
def Prog.taskOf (p : Prog) (t : Nat) : Option (Container × TaskDecl) :=
  p.loaded.findSome? fun c => (c.cyclic.find? (·.task == t)).map fun d => (c, d)
/-- Tasks 9 to 16 exist in split mode only (R83). -/
def State.taskOf (s : State) (t : Nat) : Option (Container × TaskDecl) :=
  if 9 ≤ t ∧ !s.cpr.split then none else s.prog.taskOf t
/-- The container of a cyclic task declares an error task for it (R97). -/
def State.hasErrorTask (s : State) (t : Nat) : Bool :=
  (s.taskOf t).any fun p => p.1.tasks.any fun d => d.type == 3 && d.parent == t
/-- An event joins the kept ones, or is lost to the overflow event (R92). -/
def Task.keep (k : Task) (e : ErrEvent) : Task :=
  if k.events.length < 63 then { k with events := k.events ++ [e] }
  else { k with lost := k.lost + 1, lostAt := if k.lost = 0 then e.count else k.lostAt }
/-- An event raised on the TBU count of the task's latch point is dispatched there (R134). -/
def Task.dispatch (k : Task) (now : Nat) (err : Bool) : Task :=
  if k.running && k.latchAt == now then
    { k with dispatched := k.events.length, dispLost := k.lost != 0, errRuns := err
             state := if k.state = 2 ∧ err then 5 else k.state }
  else k
/-- Raise an event for a task. -/
def State.event (s : State) (t : Nat) (kind : BitVec 16) (net station : Byte) (data : Word) : State :=
  let err := s.hasErrorTask t
  let s := s.modTask t fun k => (k.keep ⟨kind, net, station, data, s.now⟩).dispatch s.now err
  if t = 0 ∧ (s.task 0).running ∧ (s.task 0).latchAt = s.now then
    s.modTri fun r => { r with xchg := .all { r.xchg.read with lost := (s.task 0).lost, lostAt := (s.task 0).lostAt } }
  else s
/-- Network byte of an event. -/
def netByte : Net → Byte
  | .hl1 => 0
  | .hl2 => 1
/-- Tasks with a mapping for a station: every cyclic task of a container with an entry for it in either direction (R134). -/
def State.stationTasks (s : State) (n : Net) (a : Nat) : List Nat :=
  (s.prog.loaded.flatMap fun c =>
    if c.maps.any fun m => srcNetOf m.source == some n && m.station == a then c.cyclic.map (·.task) else []).eraseDups
/-- Events 0x0001 and 0x0002. -/
def State.stationEvent (s : State) (n : Net) (a : Nat) (kind : BitVec 16) : State :=
  (s.stationTasks n a).foldl (fun s t => s.event t kind (netByte n) (BitVec.ofNat 8 a) 0) s

/-! ## Forces (R105, R136, R137) -/

/-- The standard containers. -/
def Prog.standard (p : Prog) : List Container := p.std0.toList ++ p.std1.toList
/-- The standard container that declares a variable. -/
def Prog.ownerOf (p : Prog) (v : Word) : Option Container := p.standard.find? fun c => (c.var v).isSome
/-- Where a forced element stands: every mapping of its variable, inputs and outputs alike, as direction and point (R105,
R106). -/
def State.forceSpots (s : State) (f : Force) : List (Bool × Point) :=
  match s.prog.ownerOf f.var with
  | none => []
  | some c =>
    match c.var f.var with
    | none => []
    | some v => (c.maps.filter (·.var == f.var)).filterMap fun m =>
        (pointOf s.segs m).map fun p => (m.isOut, p.elem v.count f.elem.toNat)
/-- The forces of a direction on a segment: point and value. -/
def State.forcesOn (s : State) (isOut : Bool) (i : Nat) : List (Point × Nat) :=
  s.prog.forces.flatMap fun f =>
    ((s.forceSpots f).filter fun (o, p) => o == isOut && p.seg == i).map fun (_, p) => (p, leNat f.value)
/-- Lay forces over a buffer. -/
def layForces (b : Bytes) (fs : List (Point × Nat)) : Bytes := fs.foldl (fun b (p, v) => p.write b v) b

/-! ## Versions (R119, R120, R122, R130) -/

/-- The quality word of an input segment (R130, R214). -/
def State.quality (s : State) (x : Segment) (i : Nat) : BitVec 16 :=
  let y := s.inSeg i
  let cut := match srcNetOf x.source with
    | some n => !(s.net n).isIntegrated
    | none => false
  let age := if x.source.toNat < 2 then y.age.toNat else 0
  let saf := if x.source = 2 then (groupChans x.station).any fun c => isSafetyMode (s.chan c).m else s.trailer x
  BitVec.ofNat 16 (maskOf [y.valid && !y.subst, y.subst, 1 ≤ age, y.supplyLow, (s.forcesOn false i) != [], saf, cut]
    + age * 256 + (if x.source = 2 then 2 else y.source.toNat) * 4096)
/-- The input segments as a version freezes them. -/
def State.freeze (s : State) : List (Bytes × BitVec 16) :=
  (s.segs.zipIdx.filter fun (x, _) => !x.isOut).map fun (x, i) =>
    (layForces (padTo x.size (s.inSeg i).raw) (s.forcesOn false i), s.quality x i)
/-- All task numbers (R83). -/
def allTasks : List Nat := List.range 17
/-- Versions held by tasks or the host. -/
def State.heldVersions (s : State) : List Word :=
  ((allTasks.flatMap fun t => (s.task t).cur.toList ++ (s.task t).prev.toList) ++ s.swd.pinned.toList).eraseDups
/-- LIVE of SWD_BANKSTAT. -/
def State.live (s : State) : Nat := s.heldVersions.length
/-- Release what nobody holds, and keep the largest LIVE. -/
def State.prune (s : State) : State :=
  let held := s.heldVersions
  s.modSwd fun w => { w with
    versions := w.versions.filter fun v => held.contains v.num || (w.promoted && v.num == w.version)
    liveMax := if w.liveMax.toNat < held.length then BitVec.ofNat 6 held.length else w.liveMax }
/-- A version of its own. -/
def State.fresh (s : State) : State :=
  let n := s.swd.version + 1
  s.modSwd fun w => { w with
    version := n, versions := ⟨n, s.now, s.sys.baseTick, s.freeze⟩ :: w.versions, promoted := true
    pinned := if w.pin && w.pinned.isNone then some n else w.pinned }
/-- Promotion (R120): a new version, or the one that another task promoted on the same count (R24, R121).
It takes what is complete at that moment (R22); versions that a task still holds stay as they are (R23). -/
def State.promote (s : State) : State × Word :=
  match s.swd.versions with
  | v :: _ => if v.at_ = s.now ∧ v.num = s.swd.version ∧ s.swd.promoted then (s, v.num) else (s.fresh, s.swd.version + 1)
  | [] => (s.fresh, s.swd.version + 1)

/-- What changed in the input image on the TBU count of a latch point belongs into the version of that count (R121). -/
def State.refreeze (s : State) : State :=
  match s.swd.versions with
  | v :: rest =>
    if v.at_ = s.now ∧ v.num = s.swd.version ∧ s.swd.promoted then
      s.modSwd fun w => { w with versions := { v with segs := s.freeze } :: rest }
    else s
  | [] => s

/-! ## Outputs (R128, R129, R465) -/

/-- Output mappings of every loaded container, with the container's kind. -/
def Prog.outMaps (p : Prog) : List (Byte × MapDecl) :=
  p.loaded.flatMap fun c => (c.maps.filter (·.isOut)).map fun m => (c.kind, m)
/-- The output mappings into a segment: kind, mapping, point. -/
def State.outPoints (s : State) (i : Nat) : List (Byte × MapDecl × Point) :=
  s.prog.outMaps.filterMap fun (k, m) => (pointOf s.segs m).bind fun p => if p.seg = i then some (k, m, p) else none
/-- Writing and Sending buffers of an output segment. -/
def State.writingOf (s : State) (i : Nat) : Bytes := Tbl.get (fun _ => []) s.swd.writing i
def State.sendingOf (s : State) (i : Nat) : Bytes := Tbl.get (fun _ => []) s.swd.sending i
def State.fixedOf (s : State) (i : Nat) : Bytes := Tbl.get (fun _ => []) s.swd.fixed i
/-- The bytes of a segment that carry stop values, safety outputs off (R100, R128). -/
def State.stopBytes (s : State) (x : Segment) (i : Nat) : Bytes :=
  (s.outPoints i).foldl (fun b (k, m, p) => if k = 1 then b else p.write b m.stop.toNat) (List.replicate x.size 0)
/-- The output segments with their indices. -/
def State.outSegs (s : State) : List (Segment × Nat) := s.segs.zipIdx.filter fun (x, _) => x.isOut
/-- The byte of an output segment belongs to a task (R465): all of a station segment, a channel's byte of a local one. -/
def State.owns (s : State) (t : Nat) (x : Segment) (i off : Nat) : Bool :=
  (s.outPoints i).any fun (_, m, p) => m.task == t && (x.source != 2 || p.off == off)
/-- The bytes of `new` at the offsets a task owns, of `old` elsewhere. -/
def State.take (s : State) (t : Nat) (x : Segment) (i : Nat) (new old : Bytes) : Bytes :=
  (List.range x.size).map fun o => if s.owns t x i o then byteAt new o else byteAt old o
/-- Put bytes of an output segment into Sending and, after the swap and copy, into Writing (R128). -/
def State.putOut (s : State) (i : Nat) (send write : Bytes) : State :=
  s.modSwd fun w => { w with
    sending := Tbl.set (fun _ => []) w.sending i send, writing := Tbl.set (fun _ => []) w.writing i write }
/-- What the publish point of a task publishes (R128). -/
def State.publishOwn (s : State) (t : Nat) : State :=
  s.outSegs.foldl (fun s (x, i) =>
    let mine := (List.range x.size).any fun o => s.owns t x i o
    if mine then
      let w := padTo x.size (s.writingOf i)
      let s := s.putOut i (s.take t x i (layForces w (s.forcesOn true i)) (s.sendingOf i)) w
      s.modSwd fun d => { d with publishers := Tbl.upd (fun _ => []) d.publishers i fun l => if l.contains t then l else l ++ [t] }
    else s) s
/-- What a task's stop publication publishes (R49): stop values, no force. -/
def State.stopOwn (s : State) (t : Nat) : State :=
  s.outSegs.foldl (fun s (x, i) =>
    let b := s.take t x i (s.stopBytes x i) (s.sendingOf i)
    if (List.range x.size).any fun o => s.owns t x i o then
      s.putOut i b (s.take t x i (s.stopBytes x i) (s.writingOf i))
    else s) s
/-- Every output at its stop value: START, STOP and SERVICE (R36, R128). -/
def State.publishStops (s : State) : State :=
  s.outSegs.foldl (fun s (x, i) => s.putOut i (s.stopBytes x i) (s.stopBytes x i)) s
/-- The byte of an output segment belongs to a task (R465). -/
def State.owned (s : State) (x : Segment) (i o : Nat) : Bool := (s.outPoints i).any fun (_, _, p) => x.source != 2 || p.off == o
/-- Output bytes that belong to no task are sent as their Writing buffer has them, which holds stop values (R107, R465). -/
def State.stopUnowned (s : State) : State :=
  s.outSegs.foldl (fun s (x, i) =>
    let w := s.writingOf i
    let send := (List.range x.size).map fun o => byteAt (if s.owned x i o then s.sendingOf i else w) o
    s.putOut i send w) s
/-- A body's stores through its Writing window: the bytes of its own segments and channels (R138, R188). -/
def State.store (s : State) (t : Nat) (ws : List (Nat × Byte)) : State :=
  ws.foldl (fun s (a, v) =>
    match s.outSegs.find? fun (x, _) => decide (x.imageOff ≤ a ∧ a < x.imageOff + x.size) with
    | none => s
    | some (x, i) =>
      if s.owns t x i (a - x.imageOff) then
        let b := patch (padTo x.size (s.writingOf i)) (a - x.imageOff) [v]
        s.modSwd fun w => { w with writing := Tbl.set (fun _ => []) w.writing i b }
      else s) s
/-- The byte at an offset of the Writing window is the task's own (R138, R465). -/
def State.ownsAt (s : State) (t a : Nat) : Bool :=
  match s.outSegs.find? fun (x, _) => decide (x.imageOff ≤ a ∧ a < x.imageOff + x.size) with
  | none => false
  | some (x, i) => s.owns t x i (a - x.imageOff)
/-- Every Writing buffer of a task restored from Sending (R127). -/
def State.restoreWriting (s : State) (t : Nat) : State :=
  s.outSegs.foldl (fun s (x, i) =>
    if (List.range x.size).any fun o => s.owns t x i o then
      let b := s.take t x i (padTo x.size (s.sendingOf i)) (s.writingOf i)
      s.modSwd fun w => { w with writing := Tbl.set (fun _ => []) w.writing i b }
    else s) s
/-- The output image as bytes by image offset, for a mirror (R303). -/
def State.sentBytes (s : State) : List (Nat × Byte) :=
  s.outSegs.flatMap fun (x, i) => (List.range x.size).map fun o => (x.imageOff + o, byteAt (s.sendingOf i) o)

/-- Stations of a network that the directory names. -/
def State.stationsOf (s : State) (isOut : Bool) (n : Net) : List Nat :=
  ((s.segs.filter fun x => x.isOut == isOut && srcNetOf x.source == some n).map (·.station)).eraseDups
/-- Tasks that own an output segment of a station and have published it (R134). -/
def State.publishersOf (s : State) (n : Net) (a : Nat) : List Nat :=
  ((s.stationSegs true n a).flatMap fun (_, i) => Tbl.get (fun _ => []) s.swd.publishers i).eraseDups
/-- Event 0x0003 of a declared station, once for each task that has published an output segment of it (R134). -/
def State.tellPublished (s : State) (n : Net) (a : Nat) : State :=
  let st := s.station n a
  if st.state.toNat < 2 ∨ !st.declared then s else
  let new := (s.publishersOf n a).filter fun t => !st.told.contains t
  let s := new.foldl (fun s t => s.event t 3 (netByte n) (BitVec.ofNat 8 a) 1) s
  s.modStation n a fun x => { x with told := x.told ++ new }
/-- The fixing point of a failed station: one undelivered cycle, event 0x0003 once per task after a declaration (R134,
R135). -/
def State.undelivered (s : State) (n : Net) (a : Nat) : State :=
  let st := s.station n a
  if st.state.toNat < 2 then s else
  (s.modStation n a fun x => { x with undelivered := satInc x.undelivered }).tellPublished n a
/-- Sending becomes Fixed for the output segments of a network (R129). -/
def State.fixSegs (s : State) (n : Net) : State :=
  s.outSegs.foldl (fun s (x, i) =>
    if srcNetOf x.source = some n then
      s.modSwd fun w => { w with fixed := Tbl.set (fun _ => []) w.fixed i (s.sendingOf i) }
    else s) s
/-- The fixing of a network cycle (R129). -/
def State.fix (s : State) (n : Net) : State :=
  (s.stationsOf true n).foldl (fun s a => s.undelivered n a) (s.fixSegs n)
/-- A segment published on the TBU count of a fixing point of its network is fixed at that point (R129). -/
def State.refix (s : State) (n : Net) : State :=
  if (s.net n).up ∧ (s.net n).isIntegrated ∧ (s.net n).cycleAt = s.now then
    (s.stationsOf true n).foldl (fun s a => s.tellPublished n a) (s.fixSegs n)
  else s
/-- What a publish point on the TBU count of fixing points adds to them. -/
def State.refixAll (s : State) : State := ((s.refix .hl1).refix .hl2).refixLocal
/-- The publish point of a task (R128, R129). -/
def State.publish (s : State) (t : Nat) : State := (s.publishOwn t).refixAll
/-- A task's stop publication (R49). -/
def State.publishStop (s : State) (t : Nat) : State := (s.stopOwn t).refixAll

/-! ## Failure and return of stations (R131, R133) -/

/-- Limits of a station (R131, R133). -/
def State.failLimit (s : State) (n : Net) (a : Nat) : Nat := ((s.cfg.cur.station? n a).map (·.failLimit)).getD 3
def State.returnLimit (s : State) (n : Net) (a : Nat) : Nat := ((s.cfg.cur.station? n a).map (·.returnLimit)).getD 2
/-- Declare a station failed (R131). -/
def State.declare (s : State) (n : Net) (a : Nat) : State :=
  let s := s.modStation n a fun x => { x with
    state := 2, fails := x.fails + 1, undelivered := 0, good := 0, declared := true, told := [] }
  (s.substituteStation n a).stationEvent n a 1
/-- What `missed` does before the version of this count takes it. -/
def State.missedNow (s : State) (n : Net) (a i : Nat) : State :=
  let s := s.modIn i fun y => { y with age := satInc y.age }
  let st := s.station n a
  if st.missNow then s else
  let s := s.modStation n a fun x => { x with
    missNow := true, missed := satInc x.missed, good := 0, state := if x.state = 3 then 2 else x.state }
  if st.state = 1 ∧ s.failLimit n a ≤ (s.station n a).missed.toNat then s.declare n a else s
/-- A slot of a station was missed (R131, R121): once per cycle; the Nth declares it failed. -/
def State.missed (s : State) (n : Net) (a i : Nat) : State := (s.missedNow n a i).refreeze
/-- Every input segment of a station passed in a cycle (R133). -/
def State.stationGood (s : State) (n : Net) (a : Nat) : State :=
  let s := s.modStation n a fun x => { x with missed := 0 }
  let st := s.station n a
  if st.state.toNat < 2 then s else
  if s.returnLimit n a ≤ st.good + 1 then
    let s := s.modStation n a fun x => { x with state := 1, good := 0, declared := false, told := [] }
    (s.reviveStation n a).stationEvent n a 2
  else s.modStation n a fun x => { x with state := 3, good := st.good + 1 }
/-- The segment of a station has its first good copy of the cycle (R121, R126). -/
def State.segGood (s : State) (n : Net) (a i : Nat) (b : Bytes) (ch : BitVec 2) : State :=
  let s := s.modIn i fun y => y.frame b ch s.now
  let s := s.modStation n a fun x => { x with goodNow := x.goodNow + 1 }
  (if (s.station n a).goodNow = (s.stationSegs false n a).length ∧ !(s.station n a).missNow then s.stationGood n a else s).refreeze
/-- The other channel's copy passes as well: only channel A's, completed on the same TBU count, takes channel B's place
(R121, R126). -/
def State.segAgain (s : State) (i : Nat) (b : Bytes) (ch : BitVec 2) : State :=
  if ch = 0 ∧ (s.inSeg i).goodAt = s.now ∧ (s.inSeg i).lastSrc = 1 then
    (s.modIn i fun y => y.frame b ch s.now).refreeze
  else s
/-- The segment that a slot carries (R116). -/
def State.slotSegment (s : State) (n : Net) (isOut : Bool) (slot : Nat) : Option (Segment × Nat) :=
  s.segs.zipIdx.find? fun (y, _) => y.isOut == isOut && srcNetOf y.source == some n && y.slot == slot
/-- A network cycle begins: what was seen of the stations in the cycle before is closed. -/
def State.stationsCycle (s : State) (n : Net) : State :=
  (s.stationsOf false n).foldl (fun s a => s.modStation n a fun x => { x with missNow := false, goodNow := 0 }) s

end Sys2Proof.Machine
end

