-- ==== Sys2Proof/Machine/SafetyLayer.lean ====
section
/-! DEFINITION. The safety layer of the safety program's runtime: judging input connections, forming messages of output
connections (R250 to R252). -/

namespace Sys2Proof.Machine

/-- Change one connection. -/
def State.modConn (s : State) (k : Nat) (f : SafConn → SafConn) : State :=
  s.modSaf fun x => { x with conns := Tbl.upd (fun _ => SafConn.reset) x.conns k f }
/-- A connection. -/
def State.conn (s : State) (k : Nat) : SafConn := Tbl.get (fun _ => SafConn.reset) s.saf.conns k

/-- The directory entry of a connection's segment (R242, R116). -/
def State.connSeg (s : State) (c : Conn) : Option (Segment × Nat) :=
  s.segs.zipIdx.find? fun (x, _) =>
    x.isOut == !c.isIn && srcNetOf x.source == some c.net && x.station == c.station && x.index == c.index
/-- The bytes of an input segment in a version: versions hold the input segments in directory order. -/
def State.inVersion (s : State) (v : Version) (i : Nat) : Bytes :=
  ((v.segs[((s.segs.take i).filter fun x => !x.isOut).length]?).map (·.1)).getD []
/-- The bytes of a segment in task 0's Current. -/
def State.current0 (s : State) (i : Nat) : Bytes :=
  (((s.task 0).cur.bind fun n => s.swd.versions.find? (·.num == n)).map fun v => s.inVersion v i).getD []

/-- SCRC of a message (R250). -/
def scrcOf (seed : Nat) (scnt : Word) (payload : Bytes) : Word :=
  scrc (BitVec.ofNat 32 seed) (beBytes 4 scnt.toNat ++ payload)
/-- The 8 bytes of a trailer (R250). -/
def trailerOf (seed : Nat) (scnt : Word) (payload : Bytes) : Bytes :=
  beBytes 4 (scrcOf seed scnt payload).toNat ++ beBytes 4 scnt.toNat
/-- A segment with its trailer as (payload, SCRC, SCNT). -/
def splitTrailer (b : Bytes) : Bytes × Word × Word :=
  let n := b.length - 8
  (b.take n, BitVec.ofNat 32 (beAt b n 4), BitVec.ofNat 32 (beAt b (n + 4) 4))
/-- The counter after a value; it never takes the value 0 (R250). -/
def nextScnt (x : Word) : Word := if x = 0xFFFFFFFF then 1 else x + 1
/-- Steps from one counter value to another, 0 skipped (R251). -/
def scntSteps (a b : Word) : Nat := if a.toNat ≤ b.toNat then b.toNat - a.toNat else b.toNat + (2 ^ 32 - 1) - a.toNat
/-- Cycle of a network in ns; 0 without a schedule. -/
def HlNet.safetyCycleNs (n : HlNet) : Nat := (n.sched.map (·.cycleNs)).getD 0
/-- t_safety: the period of task 0 in µs; 0 without a safety container. -/
def State.taskPeriod0 (s : State) : Nat :=
  (s.prog.safety.bind fun c => (c.cyclic.find? (·.task == 0)).map (·.periodUs)).getD 0
/-- D_max (R251). -/
def State.dMax (s : State) (c : Conn) : Nat :=
  let t := (s.net c.net).safetyCycleNs
  (((s.taskPeriod0 * 1000) + t - 1) / t) + c.w

/-- A connection becomes, or stays, FAILED. -/
def SafConn.fail (x : SafConn) : SafConn := { x with ok := false, streak := 0, payload := x.payload.map fun _ => 0 }
/-- A message with correct SCRC and nonzero counter arrives at a latch point at network time `now` (R251). The first one
sets the baseline; while FAILED one outside the window sets it anew (log entry 40). -/
def SafConn.take (x : SafConn) (p : Bytes) (scnt : Word) (dMax : Nat) (now : Int) : SafConn :=
  match x.last with
  | none => { x with last := some scnt, freshAt := now, payload := p.map fun _ => 0 }
  | some l =>
    let d := scntSteps l scnt
    if d = 0 then x
    else if d ≤ dMax then
      if x.ok then { x with last := some scnt, freshAt := now, payload := p }
      else if 2 ≤ x.streak + 1 then { x with ok := true, last := some scnt, freshAt := now, streak := 0, payload := p }
      else { x with last := some scnt, freshAt := now, streak := x.streak + 1 }
    else if x.ok then x.fail
    else { x with last := some scnt, streak := 0 }
/-- The judgement of one input connection at a latch point of task 0 (R251). -/
def State.judgeConn (s : State) (c : Conn) : State :=
  s.modConn c.number fun x =>
    let y := match s.connSeg c with
      | none => x.fail
      | some (g, i) =>
        let (p, crc, n) := splitTrailer (s.current0 i)
        let x := { x with payload := if x.payload.length = p.length then x.payload else p.map fun _ => 0 }
        if !s.trailer g || crc != scrcOf c.seed n p || n == 0 then x.fail else x.take p n (s.dMax c) s.netNow
    if y.ok ∧ y.freshAt + (c.w * (s.net c.net).safetyCycleNs : Nat) < s.netNow then y.fail else y
/-- Every input connection is judged (R251). -/
def State.judgeConns (s : State) : State := ((conns s.saf.items).filter (·.isIn)).foldl State.judgeConn s

/-- One new message of an output connection, its trailer in the Writing buffer (R252). -/
def State.formMessage (s : State) (c : Conn) : State :=
  match s.connSeg c with
  | none => s
  | some (g, i) =>
    if !s.trailer g || g.size < 8 then s else
    let n := nextScnt (s.conn c.number).scnt
    let p := (padTo g.size (s.writingOf i)).take (g.size - 8)
    (s.modConn c.number fun x => { x with scnt := n }).modSwd fun w =>
      { w with writing := Tbl.set (fun _ => []) w.writing i (p ++ trailerOf c.seed n p) }
/-- Every output connection forms its message of the safety cycle (R252). -/
def State.formMessages (s : State) : State := ((conns s.saf.items).filter fun c => !c.isIn).foldl State.formMessage s

end Sys2Proof.Machine
end

