-- ==== Sys2Proof/Machine/Modes.lean ====
section
/-! DEFINITION. Roles, HALT, entry into START, failed starts, loss of logic power (02_modes_and_starts.md,
16_power_clocks_memory.md). -/

namespace Sys2Proof.Machine

/-! ## Roles -/

/-- SYS_DPX_ROLE.ROLE and STANDBY; SYS_EVENT.ROLE when one changes. -/
def State.setRole (s : State) (role standby : BitVec 2) : State :=
  let t := s.modDpx fun d => { d with role := role, standby := standby }
  (if s.dpx.role = role ∧ s.dpx.standby = standby then t else t.setEvent 1).fuseMark
/-- Release the own claim (R298); the hours since the last drive as active count from here (R316). -/
def State.releaseClaim (s : State) : State :=
  s.modDpx fun d => { d with ownClaim := false, droveAt := if d.ownClaim then s.opMs else d.droveAt }
/-- Assert the own claim: the module drives as active (R299, R316). -/
def State.assertClaim (s : State) : State :=
  s.modDpx fun d => { d with ownClaim := true, droveAt := s.opMs, due := false, milestone := 0, claimAt := s.now }

/-! ## Arming (R411) -/

/-- Clear an armed activation; `ev` is byte 0 of code 0x7022 (R390). -/
def State.disarm (s : State) (ev : Nat) (sev : BitVec 4) : State :=
  match s.upd.armed with
  | none => s
  | some a =>
    (s.modUpd fun u => { u with armed := none, ready := false }).raise srcSup 0x7022 sev
      ([BitVec.ofNat 8 ev, a.group, 0, 0] ++ leBytes 8 a.count)

/-- An armed activation is cancelled (R409, R411): SYS_EVENT.UPDATE. -/
def State.cancelArmed (s : State) (ev : Nat) (sev : BitVec 4) : State :=
  if s.upd.armed.isSome then (s.disarm ev sev).setEvent 7 else s

/-! ## Firmware slots (R405) -/

/-- A firmware slot: false A, true B. -/
def Upd.slot (u : Upd) (b : Bool) : FwSlot := if b then u.slotB else u.slotA
/-- Change one slot. -/
def State.modSlot (s : State) (b : Bool) (f : FwSlot → FwSlot) : State :=
  s.modUpd fun u => if b then { u with slotB := f u.slotB } else { u with slotA := f u.slotA }
/-- The slots change places: the inactive one becomes ACTIVE, the former one VALID (R405, R410). -/
def State.swapSlots (s : State) (pending : Bool) : State :=
  let t := !s.upd.activeB
  let s := (s.modSlot t fun x => { x with state := .active }).modSlot (!t) fun x => { x with state := .valid }
  s.modUpd fun u => { u with activeB := t, pending := pending, fuseMs := 0, fuseSince := none }
/-- A failed start on a pending slot (R405): the next one is made from the former slot, FALLBACK is set. -/
def State.fallBack (s : State) : State :=
  if s.upd.pending then
    let s := (s.swapSlots false).modUpd fun u => { u with fallback := true }
    (s.raise srcBoot 0x7021 4 [if s.upd.activeB then 1 else 0, 2]).setEvent 7
  else s

/-! ## Tasks -/

/-- Change every task. -/
def State.modAllTasks (s : State) (f : Nat → Task → Task) : State :=
  s.modTasks fun t => Tbl.updAll (fun _ => Task.reset) f allTasks t
/-- A task whose body is abandoned: nothing it holds is published (R88). -/
def Task.abandon (t : Task) : Task :=
  { t with
    state := if t.present then 4 else 0, running := false, doorbells := [], consumers := [], haltAfter := none
    errRuns := false, held := false, heldLatch := false, heldAt := 0, skipped := 0, latched := false, stopped := false, cur := none, prev := none
    mirrorWait := false, unacked := none, reexec := false, rerun := false, changeDue := false, expHeld := []
    firstAfterChange := false, due := none }

/-! ## The points of forces (R106) -/

/-- The points of a FORCE_SET or FORCE_CLEAR that have come; after the last the command commits (R106). -/
def State.forceProgress (s : State) (done : Nat × Bool → Bool) : State :=
  match s.prog.forceJob with
  | none => s
  | some (h, l) =>
    let rest := l.filter fun p => !done p
    let s := s.modProg fun p => { p with forceJob := if rest.isEmpty then none else some (h, rest) }
    if rest.isEmpty then s.complete h stOk (leBytes 4 s.prog.forces.length) else s
/-- RUN ends by HALT or START: the forces that still wait for a point are in place, their command has committed (R106);
its DONE record follows with the replay of the next start. -/
def State.forceEnds (s : State) : State :=
  match s.prog.forceJob with
  | none => s
  | some (h, _) => (s.modProg fun p => { p with forceJob := none }).commitOnly h (leBytes 4 s.prog.forces.length)

/-! ## HALT (R50, R389) -/

/-- A network's controller stops transmitting (R50, R53, R363). -/
def HlNet.silence (n : HlNet) : HlNet := { n with up := false }
/-- Entry into HALT (R50); at a power-up that returns to HALT (R51) no mode was left: the entries, the outputs, the claim, the domains, SYS_EVENT and vector 9 (R437). -/
def State.haltNow (s : State) (cause : Byte) (latched : Bool) : State :=
  let word := s.sys.modeWord
  let before := s.sys.mode
  let up := before == .start && s.sys.start.isNone
  let s := s.forceEnds
  let s := s.raise srcSup (0x1F00 + cause.setWidth 16) 6 ([cause] ++ le 4 word ++ le 4 s.sys.baseTick)
  let s := s.cancelArmed 3 2
  let s := if s.domOn 7 then s.lastFrames else s
  let s := ((s.modHl1 HlNet.silence).modHl2 HlNet.silence).modAllTasks fun _ t => t.abandon
  let s := (s.releaseClaim.modDpx fun d => { d with faultReport := true, phase := 0, swap := none }).setRole 0 0
  let s := s.modProg fun p => { p with olc := none, due := [], writing := none }
  let s := s.modBst fun b => { b with running := 0, job := none }
  let s := s.modSys fun y => { y with
    mode := .halt, substate := 0, haltCause := cause, haltLatched := y.haltLatched || latched, start := none
    runWait := none, stopJob := none, shutJob := none, initRun := none }
  let s := if up then s else s.raiseMode before .halt 0 3
  let s := s.modSys fun y => { y with event := y.event ||| 1 }
  let s := if s.sys.eventsOn.getLsbD 0 then s.msix 9 else s
  s.modPwr fun p => { p with domains := domainWord (if p.onHoldup then [0] else [0, 5]) }

/-! ## Starts (R42 to R48) -/

/-- A failed start drops out 10 min of operating time after it occurred (R47). -/
def recent (now : Nat) (l : List Nat) : List Nat := l.filter fun t => now < t + 600000
/-- The commit with the highest sequence (R102). -/
def Prog.lastCommit (p : Prog) : Option Commit :=
  match p.bank0, p.bank1 with
  | none, b => b
  | a, none => a
  | some a, some b => if a.seq.toNat < b.seq.toNat then some b else some a
/-- Cause of a cold substitution of a warm start, 0 for none (R43, coded as byte 2 of 0x1002): an epoch record of 0 first
(R48), then in the order of R43. `mram` says that the acceptance journal and the epoch record pass their checks, `cs` are
the containers that step 3 loads. -/
def State.coldCause (s : State) (mram : Bool) (cs : List Container) : Byte :=
  if s.sys.epoch = 0 then 2
  else
    match s.prog.lastCommit with
    | none => 1
    | some c =>
      if !mram then 2
      else if cs.any (fun x => !(c.layouts.any fun (i, r, _) => i == x.id && r == x.retLayout)) then 3
      else if s.sys.lockstepBroken then 4
      else if 3 ≤ (recent s.opMs s.sys.warmFails).length then 5
      else 0
/-- SYS_MODE.START_KIND and byte 0 of 0x1002 to 0x1004. -/
def StartKind.code : StartKind → Nat
  | .cold => 1
  | .warm => 2
  | .follow => 3

/-- A ring pair at entry into START (R57, R74): the geometry of the configuration set, indices 0, emptied. -/
def Ring.atStart (r : Ring) (g : RingGeo) : Ring :=
  { r with base := g.base.setWidth 14, depthLog2 := g.depthLog2.setWidth 4, cmdset := g.cmdset.setWidth 2, enabled := true
           restarted := true, replayDone := false, acceptHeld := false, gen := r.gen + 1, cmdProd := 0, cmdCons := 0
           cplProd := 0, cplCons := 0, undelivered := [], from1 := [], backlog := [], subs := [] }
/-- A task at entry into START: held, its counters of R90 and R103 at 0. -/
def Task.atStart (t : Task) : Task := { t.abandon with overruns := 0, maxNs := 0, events := [], dispatched := 0, dispLost := false, lost := 0, lostAt := 0, stretchUs := 0 }
/-- A network's controller at entry into START: the values in the configuration set take effect (R115), counters are
reset and it takes no part (R274). -/
def HlNet.atStart (x : HlNet) (c : ConfigSet) (n : Net) : HlNet :=
  { HlNet.reset with
    gen := BitVec.ofNat 4 (c.param 0x0120 (netIx n)), netId := BitVec.ofNat 8 (c.param 0x0121 (netIx n))
    addr := BitVec.ofNat 8 (c.param 0x0122 (netIx n)), wiring := BitVec.ofNat 8 (c.param 0x0123 (netIx n))
    port2 := BitVec.ofNat 8 (c.param 0x0124 (netIx n))
    sched := if c.param 0x0120 (netIx n) = 0 then none else c.sched n
    attempt := x.attempt, splitA := x.splitA, splitB := x.splitB, mismatch := x.mismatch, cycle := x.cycle, cycleAt := x.cycleAt, cycleTime := x.cycleTime
    epoch := x.epoch, linkUp := x.linkUp, master := x.master, lossCause := x.lossCause }
/-- A configured station is live; one with an input segment counts as failed until it returns (R133). -/
def State.startStations (s : State) : Tbl Station :=
  let key (x : Segment) : Nat := x.station + 256 * x.source.toNat
  let live := (s.cfg.cur.stations.map fun c => c.addr + if c.net = .hl2 then 256 else 0)
    ++ (s.segs.filter (·.source.toNat < 2)).map key
  let failed := (s.segs.filter fun x => !x.isOut && x.source.toNat < 2).map key
  let put (st : BitVec 2) (t : Tbl Station) (k : Nat) : Tbl Station := Tbl.set (fun _ => Station.reset) t k { Station.reset with state := st }
  failed.foldl (put 2) (live.foldl (put 1) [])
/-- Sward at entry into START (R133, R139): segments substituted, nothing pinned, no version held, every output at its
stop value. DESIGN CHOICE: frames delivered before the START are forgotten, so that LAST gives ZERO (log entry 70). -/
def State.startSward (s : State) : State :=
  let s := s.modSwd fun w => { w with
    ins := [], versions := [], liveMax := 0, pin := false, pinned := none, undo := 0, promoted := false
    stations := s.startStations, publishers := [] }
  let s := s.poolFor s.segs
  let s := [Net.hl1, Net.hl2].foldl (fun s n => (s.stationsOf false n).foldl (fun s a => s.substituteStation n a) s) s
  s.publishStops
/-- Stile at entry into START (R340, R330): the log, fences, counts and semaphores clear, credits return. -/
def Stl.atStart (t : Stl) (cfg : ConfigSet) : Stl :=
  { t with
    log := [], lost := 0, sems := [], reqs := [], spRestarts := 0, backAt := 0, noRoute := 0, overflow := 0, partial_ := [], frags := []
    boxes := []
    ctxs := Tbl.updAll (fun _ => Ctx.reset) (fun i _ =>
      match cfg.contexts[i]? with
      | some c => { Ctx.reset with owner := c.owner.setWidth 3, credits := c.credits }
      | none =>
        if i < 112 ∨ i = 115 then Ctx.reset
        else { Ctx.reset with owner := if i < 115 then 6 else if i < 124 then 1 else 2, credits := 16 }) (List.range 128) t.ctxs
    ports := Tbl.updAll (fun _ => StlPort.reset) (fun p _ => { StlPort.reset with state := if p < 6 ∨ p = 9 then 1 else 0 }) (List.range 10) t.ports }
/-- R47 forces the cold start (R44): three warm starts have failed, or this start follows a failed one that was forced. -/
def State.forcesCold (s : State) (cause : Byte) : Bool :=
  (cause != 0 && decide (3 ≤ (recent s.opMs s.sys.warmFails).length)) || (s.sys.start.map (·.forced)).getD false
/-- Entry into START (R39, R42, R43, R74): the kind is chosen, whatever ran stops, the blocks take their state of a
start. Journalled commands that execute begin anew (R32). DESIGN CHOICE: the latest export buffer stays as it is until the
first publish (log entry 70). -/
def State.beginStart (s : State) (requested : StartKind) (trigger : Nat) : State :=
  let before := s.sys.mode
  let cause := if requested = .warm then s.coldCause true [] else 0
  let performed := if cause = 0 then requested else .cold
  let forced := s.forcesCold cause
  let s := s.cancelArmed 3 2
  let s := s.forceEnds
  let s := s.modSys fun y => { y with
    mode := .start, substate := 1, startKind := BitVec.ofNat 2 performed.code, coldSubstituted := cause != 0
    warmFails := recent s.opMs y.warmFails, coldFails := recent s.opMs y.coldFails
    progSem := true, progW1c := true, legacyWrite := true, lock := false
    start := some ⟨requested, performed, cause, s.now, forced, false⟩
    runWait := none, stopJob := none, shutJob := none, initRun := none, verifyFailed := [] }
  let s := if before = .start then s else (s.raiseMode before .start 1 trigger).setEvent 0
  let s := s.releaseClaim.setRole 0 0
  let s := s.raise srcSup 0x1002 2 [BitVec.ofNat 8 requested.code, BitVec.ofNat 8 performed.code, cause,
    BitVec.ofNat 8 (Nat.min 3 s.sys.warmFails.length), BitVec.ofNat 8 (Nat.min 3 s.sys.coldFails.length)]
  let s := s.modPwr fun p => { p with
    domains := domainWord [0, 1, 2, 3, 4, 5, 6, 7], feedDrops := 0, rideThroughs := 0, flushes := 0, sramCorrected := 0
    pd0Corrected := 0, tempMax := p.temp }
  let s := s.modCfg fun c => { c with rings := c.cur.rings }
  let s := s.modRings fun r => Tbl.updAll Ring.reset (fun n x =>
    x.atStart ((s.cfg.rings[n]?).getD (RingGeo.reset n))) (List.range 32) r
  let s := s.modJournal fun j => j.map fun e => if e.phase = .executing then { e with phase := .accepted } else e
  let s := match s.saf.applying with
    | some (h, r, _) => s.modEntry h fun e => { e with phase := .committed, status := stOk, result := r }
    | none => s
  let s := s.modUpd fun u => { u with scope := 0, fuseMs := 0, fuseSince := none }
  let s := s.modSaf fun x => { x with applying := none, conns := [] }
  let s := s.modMem fun m => { m with ring := [], sram := [], bankCycle := none }
  let s := s.modBst fun b => { b with running := 0, job := none }
  let s := s.modProg fun p => { p with
    commitLate := 0, due := [], writing := none, olc := none, persistWait := none }
  let s := s.modAllTasks fun _ t => t.atStart
  let s := (s.modHl1 fun x => x.atStart s.cfg.cur .hl1).modHl2 fun x => x.atStart s.cfg.cur .hl2
  let s := s.startSward.startField
  let s := s.lanesAtStart.modTri fun t => { t with
    voterFault := false, gateClosed := false, debug := false, passes := 0, publishOk := false, expFilling := [], scrub := 0
    mismatches := if performed = .cold then 0 else t.mismatches }
  let s := s.modCpr fun p => { p with
    reexecs := if performed = .cold then 0 else p.reexecs, mismatches := if performed = .cold then 0 else p.mismatches
    recovery := 0, logMax := 0, corrected0 := 0, corrected1 := 0, l2Corrected := 0, dramCorrected := 0
    handCopy := (0, 0, []) }
  let s := s.modDpx fun d => { d with
    maxKib := 0, stretches := 0, lags := 0, phase := 0, swap := none, faultReport := false, takeHub1 := false
    takeHub2 := false, swapBack := false, decidedAt := none }
  let s := s.modStl fun t => t.atStart s.cfg.cur
  s.modTbu fun t => { t with refusals := 0 }

/-- Entry into START: Hayrick counts from here on, then the start begins. -/
def State.enterStart (s : State) (requested : StartKind) (trigger : Nat) : State :=
  (s.modHyk fun h => { h with raised := 0, written := 0, dropped := 0 }).beginStart requested trigger

/-- A start has failed: it is recorded and counted with its operating time (R45, R47). -/
def State.countFailure (s : State) (r : StartReq) (cause : Nat) : State :=
  let s := s.raise srcSup 0x1004 4
    [BitVec.ofNat 8 r.performed.code, BitVec.ofNat 8 s.sys.substate.toNat, BitVec.ofNat 8 cause]
  s.modSys fun y =>
    if r.performed = .cold then { y with coldFails := recent s.opMs y.coldFails ++ [s.opMs] }
    else { y with warmFails := recent s.opMs y.warmFails ++ [s.opMs] }
/-- The failed-start limit of R47 is reached. -/
def State.latches (s : State) (r : StartReq) : Bool := r.performed == .cold && decide (3 ≤ s.sys.coldFails.length)
/-- A start has failed (R45, R47): it is counted; the next start follows, or HALT at the third failed cold start. -/
def State.startFailed (s : State) (cause : Nat) : State :=
  match s.sys.start with
  | none => s
  | some r =>
    let s := s.countFailure r cause
    if s.latches r then s.haltNow 1 true else s.fallBack.enterStart (if r.performed = .cold then .cold else .warm) 1
/-- A fault reaction calling for HALT (R38): in START the start fails (R45). -/
def State.fault (s : State) (cause : Byte) : State :=
  if !s.pwr.on || s.sys.mode == .halt then s
  else if s.sys.mode = .start then s.startFailed 1
  else s.haltNow cause false

/-! ## Power (R361, R363, R366) -/

/-- Everything off; the DRAM and the SRAM lose their contents, MRAM keeps its own (R363, R370). -/
def State.powerOff (s : State) : State :=
  let s := s.modHyk fun h => { h with opSaved := s.opMs }
  let s := s.releaseClaim
  s.modPwr fun p => { p with on := false, domains := 0 }
/-- Power is lost without the power-fail sequence: OP_TIME stays as last saved (R361, R386). -/
def State.powerLost (s : State) : State :=
  (s.releaseClaim).modPwr fun p => { p with on := false, domains := 0 }

/-- What a power-up finds: MRAM, flash and fuses as they were, everything else at its Reset column. -/
def State.volatileReset (s : State) : State :=
  { s with
    pwr := { Pwr.reset with on := true, pllLocked := true }
    tbu := { Tbu.reset with eth1Up := s.tbu.eth1Up, eth2Up := s.tbu.eth2Up }
    hyk := { s.hyk with raised := 0, written := 0, dropped := 0, buckets := [], evictFail := 0, opBase := s.hyk.opSaved
                        powerCycles := s.hyk.powerCycles + 1 }
    sys := { Sys.reset with haltCause := s.sys.haltCause, lockstepBroken := s.sys.lockstepBroken
                            haltLatched := s.sys.haltLatched, warmFails := s.sys.warmFails
                            coldFails := s.sys.coldFails, epoch := s.sys.epoch }
    host := HostSide.reset
    rings := Tbl.updAll Ring.reset (fun n x => { Ring.reset n with seq := x.seq }) (List.range 32) s.rings
    mem := Mem.reset
    prog := { Prog.reset with flash := s.prog.flash, bank0 := s.prog.bank0, bank1 := s.prog.bank1, last1 := s.prog.last1
                              commitSeq := s.prog.commitSeq }
    tasks := []
    swd := Swd.reset
    tri := { Tri.reset with
      lane0 := s.tri.lane0.kept, lane1 := s.tri.lane1.kept, lane2 := s.tri.lane2.kept
      repairEnd := s.tri.repairEnd, repairSpan := s.tri.repairSpan, repairLane := s.tri.repairLane
      repairStage := s.tri.repairStage }
    cpr := { Cpr.reset with excluded := s.cpr.excluded, permanent := s.cpr.permanent, split := s.cpr.split
                            exclusions0 := s.cpr.exclusions0, exclusions1 := s.cpr.exclusions1 }
    fld := { Fld.reset with cells := s.fld.cells }
    hl1 := HlNet.reset
    hl2 := HlNet.reset
    dpx := { Dpx.reset with epoch := s.dpx.epoch, droveAt := s.dpx.droveAt, takeovers := s.dpx.takeovers, swaps := s.dpx.swaps
                            milestone := s.dpx.milestone }
    stl := Stl.reset
    upd := { s.upd with armed := none, ready := false, fallback := false, scope := 0, expiry := 0, granted := false, firewall := [] }
    bst := { Bst.reset with lastKind := s.bst.lastKind, failMask := s.bst.failMask, unrepaired := s.bst.unrepaired
                            repairs := s.bst.repairs, ranAt := s.bst.ranAt, record := s.bst.record } }

end Sys2Proof.Machine
end

