-- ==== Sys2Proof/Machine/Power.lean ====
section
/-! DEFINITION. Logic supply, temperature, clocks, crossings, on-chip memory (16_power_clocks_memory.md, R457). -/

namespace Sys2Proof.Machine

/-- Voltages in units of 0.125 V: 19.2 V and 18.5 V (R361). -/
def volt19_2 : Nat := 154
def volt18_5 : Nat := 148
/-- The higher of the two feeds (R360). -/
def Pwr.combined (p : Pwr) : Byte := if p.l1v.toNat < p.l2v.toNat then p.l2v else p.l1v
/-- A temperature in units of 1/16 °C is above a number of degrees. -/
def hotter (t : BitVec 16) (deg : Int) : Bool := decide (deg * 16 < t.toInt)
/-- PWR_TEMP takes a measurement; TEMP_MAX keeps the highest. -/
def Pwr.measure (p : Pwr) (t : BitVec 16) : Pwr :=
  { p with temp := t, tempMax := if p.tempMax.toInt < t.toInt then t else p.tempMax }

/-! ## Power-up (R361, R38, R43, R51) -/

/-- What a power-up reads at once: feeds, slot position, legacy base, core voltage, temperature. -/
def State.sense (s : State) (l1 l2 : Byte) (slotPos : Bool) (lbase : Byte) (mv : BitVec 12) (t : BitVec 16) : State :=
  { s with
    pwr := { s.pwr with
      l1v := l1, l2v := l2, l1ok := decide (volt19_2 ≤ l1.toNat), l2ok := decide (volt19_2 ≤ l2.toNat)
      coreMv := mv, temp := t, tempMax := t }
    mfg := { s.mfg with slotPos := slotPos, lbase := lbase } }
/-- The module comes up: 0x9003, the role of a module without partner, then START or, latched, HALT (R51). -/
def State.comeUp (s : State) (l1 l2 : Byte) (slotPos : Bool) (lbase : Byte) (mv : BitVec 12) (t : BitVec 16) : State :=
  let off := s.hyk.lastOff
  let s := (s.volatileReset.sense l1 l2 slotPos lbase mv t).raise srcHyk 0x9003 1 [off]
  let s := s.modHyk fun h => { h with lastOff := 0 }
  let s := s.modPwr fun p => { p with hotOff := false }
  if s.sys.haltLatched then s.haltNow 1 false
  else s.beginStart (if s.param 0x0101 0 = 1 then .cold else .warm) 1
/-- POWER_UP (R361): the higher feed stands at or above 19.2 V and the module is off. -/
def effPowerUp (l1 l2 : Byte) (slotPos : Bool) (lbase : Byte) (coreMv : BitVec 12) (temp : BitVec 16) (s : State) : State :=
  if !s.pwr.on && !s.pwr.hotOff && decide (volt19_2 ≤ Nat.max l1.toNat l2.toNat) then
    s.comeUp l1 l2 slotPos lbase coreMv temp
  else s
/-- POWER_UP. -/
def execPowerUp (l1 l2 : Byte) (slotPos : Bool) (lbase : Byte) (coreMv : BitVec 12) (temp : BitVec 16) (s : State) : Res :=
  .next (effPowerUp l1 l2 slotPos lbase coreMv temp s)
/-- JUNCTION_COOLED (R457): off after overtemperature, the junction below 100 °C. -/
def effJunctionCooled (l1 l2 : Byte) (slotPos : Bool) (lbase : Byte) (coreMv : BitVec 12) (temp : BitVec 16)
    (s : State) : State :=
  if !s.pwr.on && s.pwr.hotOff && decide (temp.toInt < 1600) && decide (volt19_2 ≤ Nat.max l1.toNat l2.toNat) then
    s.comeUp l1 l2 slotPos lbase coreMv temp
  else s
/-- JUNCTION_COOLED. -/
def execJunctionCooled (l1 l2 : Byte) (slotPos : Bool) (lbase : Byte) (coreMv : BitVec 12) (temp : BitVec 16)
    (s : State) : Res := .next (effJunctionCooled l1 l2 slotPos lbase coreMv temp s)

/-! ## Hold-up and feeds (R361, R362) -/

/-- RESERVE_US: at least the 20 ms of R362; the draw decides the rest, which is open (log entry 13). -/
def rideThrough (k : Nat) : BitVec 16 := BitVec.ofNat 16 (2000 + (Config.freeBits k 16).toNat % 63536)
/-- RESERVE_READY (R361). -/
def effReserveReady (s : State) : State :=
  if s.pwr.on then s.modPwr fun p => { p with reserveReady := true } else s
/-- RESERVE_READY. -/
def execReserveReady (s : State) : Res := .next (effReserveReady s)
/-- HOLDUP_READY (R361). -/
def effHoldupReady (s : State) : State :=
  if s.pwr.on && s.pwr.reserveReady then
    (s.modPwr fun p => { p with holdupReady := true, reserveUs := rideThrough s.free }).bump
  else s
/-- HOLDUP_READY. -/
def execHoldupReady (s : State) : Res := .next (effHoldupReady s)

/-- OK of a feed in PWR_FEED. -/
def Pwr.feedOk (p : Pwr) : Feed → Bool
  | .l1 => p.l1ok
  | .l2 => p.l2ok
/-- Set a feed's voltage and OK. -/
def Pwr.setFeed (p : Pwr) (f : Feed) (v : Byte) (ok : Bool) : Pwr :=
  match f with
  | .l1 => { p with l1v := v, l1ok := ok }
  | .l2 => { p with l2v := v, l2ok := ok }
/-- Byte 0 of code 0x1010. -/
def feedCode : Feed → Byte
  | .l1 => 1
  | .l2 => 2
/-- FEED_LOSS (R361): below 19.2 V; OK clears, the loss is counted and recorded. -/
def effFeedLoss (f : Feed) (v : Byte) (s : State) : State :=
  if s.pwr.on && s.pwr.feedOk f && decide (v.toNat < volt19_2) then
    ((s.modPwr fun p => { p.setFeed f v false with
      feedDrops := satInc p.feedDrops, below1 := if f = .l1 then s.now else p.below1
      below2 := if f = .l2 then s.now else p.below2 }).raise srcPower 0x1010 3
      [feedCode f, 0, v]).setEvent 2
  else s
/-- FEED_LOSS. -/
def execFeedLoss (f : Feed) (v : Byte) (s : State) : Res := .next (effFeedLoss f v s)
/-- TBU count at which a feed was last below its range (R361). -/
def Pwr.below (p : Pwr) : Feed → Nat
  | .l1 => p.below1
  | .l2 => p.below2
/-- FEED_RESTORED (R361): at or above 19.2 V for 100 ms. -/
def effFeedRestored (f : Feed) (v : Byte) (s : State) : State :=
  if s.pwr.on && !s.pwr.feedOk f && decide (volt19_2 ≤ v.toNat) && decide (s.pwr.below f + 100 * countsMs ≤ s.now) then
    ((s.modPwr fun p => p.setFeed f v true).raise srcPower 0x1010 3 [feedCode f, 1, v]).setEvent 2
  else s
/-- FEED_RESTORED. -/
def execFeedRestored (f : Feed) (v : Byte) (s : State) : Res := .next (effFeedRestored f v s)

/-- A voltage register that a lower combined input bounds (R360). -/
def capAt (v x : Byte) : Byte := if v.toNat < x.toNat then v else x
/-- ON_HOLDUP (R362): below 18.5 V the hold-up takes over; before RESERVE_READY, power is lost (R361). In HALT, PD5 goes
off on hold-up (R368). -/
def effOnHoldup (v : Byte) (s : State) : State :=
  if s.pwr.on && !s.pwr.onHoldup && decide (v.toNat < volt18_5) then
    if s.pwr.reserveReady then
      (s.modPwr fun p => { p with
        onHoldup := true, holdupAt := s.now, rideThroughs := satInc p.rideThroughs, l1v := capAt v p.l1v, l2v := capAt v p.l2v
        reserveUs := if p.holdupReady then rideThrough s.free else 0
        domains := if s.sys.mode = .halt then domainWord [0] else p.domains }).bump
    else s.powerLost
  else s
/-- ON_HOLDUP. -/
def execOnHoldup (v : Byte) (s : State) : Res := .next (effOnHoldup v s)
/-- SUPPLY_RETURN (R362): ON_HOLDUP clears and nothing else follows; in HALT, PD5 is ON again (R368). -/
def effSupplyReturn (v : Byte) (s : State) : State :=
  if s.pwr.on && s.pwr.onHoldup && decide (volt19_2 ≤ v.toNat) then
    s.modPwr fun p => { p with
      onHoldup := false, domains := if s.sys.mode = .halt then domainWord [0, 5] else p.domains }
  else s
/-- SUPPLY_RETURN. -/
def execSupplyReturn (v : Byte) (s : State) : Res := .next (effSupplyReturn v s)

/-! ## Power-fail sequence (R363) and temperature (R457) -/

/-- The power-fail sequence; cause 1 reserve level, 2 overtemperature. The release of the claim and the fault report come
first, no commit is begun, the entry is written, everything goes off. -/
def State.powerFail (s : State) (cause : Byte) (v : Byte) : State :=
  let s := (s.modDpx fun d => { d with faultReport := true }).releaseClaim
  let s := s.modProg fun p => { p with due := [], writing := none }
  let s := s.disarm 3 2
  let s := s.raise srcPower 0x1011 5 ([cause, v] ++ le 2 s.pwr.temp)
  (s.modHyk fun h => { h with lastOff := 2 }).powerOff
/-- POWER_FAIL_SEQUENCE (R363): the hold-up reaches its reserve level; not within the 20 ms of a ride-through that
HOLDUP_READY guarantees (R361, R362). -/
def effPowerFailSequence (v : Byte) (s : State) : State :=
  if s.pwr.on && s.pwr.onHoldup && s.pwr.reserveReady
      && (!s.pwr.holdupReady || decide (s.pwr.holdupAt + 20 * countsMs ≤ s.now)) then s.powerFail 1 v else s
/-- POWER_FAIL_SEQUENCE. -/
def execPowerFailSequence (v : Byte) (s : State) : Res := .next (effPowerFailSequence v s)
/-- TEMPERATURE_WARNING (R457): above 115 °C, or 10 min further above it. -/
def effTemperatureWarning (t : BitVec 16) (s : State) : State :=
  if s.pwr.on && hotter t 115 then
    let s := s.modPwr fun p => p.measure t
    s.raise srcPower 0x1012 3 (le 2 s.pwr.temp ++ le 2 s.pwr.tempMax)
  else s
/-- TEMPERATURE_WARNING. -/
def execTemperatureWarning (t : BitVec 16) (s : State) : Res := .next (effTemperatureWarning t s)
/-- OVERTEMPERATURE (R457): above 125 °C for 1 s. -/
def effOvertemperature (t : BitVec 16) (s : State) : State :=
  if s.pwr.on && hotter t 125 then
    let s := s.modPwr fun p => { p.measure t with hotOff := true }
    s.powerFail 2 s.pwr.combined
  else s
/-- OVERTEMPERATURE. -/
def execOvertemperature (t : BitVec 16) (s : State) : Res := .next (effOvertemperature t s)

/-! ## Clocks and crossings (R372, R375) -/

/-- ROOT_PLL_LOSS (R372). -/
def effRootPllLoss (s : State) : State :=
  if s.pwr.on then
    ((s.modPwr fun p => { p with pllLocked := false, onBackup := true }).raise srcPower 0x1015 5 [1]).fault 0x0B
  else s
/-- ROOT_PLL_LOSS. -/
def execRootPllLoss (s : State) : Res := .next (effRootPllLoss s)
/-- REFERENCE_OSCILLATOR_LOSS (R372). -/
def effReferenceOscillatorLoss (s : State) : State :=
  if s.pwr.on then
    ((s.modPwr fun p => { p with refLost := true }).raise srcPower 0x1015 5 [2]).fault 0x0B
  else s
/-- REFERENCE_OSCILLATOR_LOSS. -/
def execReferenceOscillatorLoss (s : State) : Res := .next (effReferenceOscillatorLoss s)
/-- CROSSING_RESET (R375): the flush is counted. -/
def effCrossingReset (_n : Byte) (s : State) : State :=
  if s.pwr.on then s.modPwr fun p => { p with flushes := satInc p.flushes } else s
/-- CROSSING_RESET. -/
def execCrossingReset (n : Byte) (s : State) : Res := .next (effCrossingReset n s)

/-! ## On-chip memory (R380, R389) -/

/-- SRAM_SCRUB (R380): corrections of the pass, once per second, in PD4 while it is ON and in PD0. -/
def effSramScrub (sram pd0 : Nat) (s : State) : State :=
  if s.pwr.on && decide (s.pwr.scrubbedAt + 1000 * countsMs ≤ s.now) then
    s.modPwr fun p => { p with
      scrubbedAt := s.now
      sramCorrected := if p.dom 4 = 1 then satAdd p.sramCorrected sram else p.sramCorrected
      pd0Corrected := satAdd p.pd0Corrected pd0 }
  else s
/-- SRAM_SCRUB. -/
def execSramScrub (sram pd0 : Nat) (s : State) : Res := .next (effSramScrub sram pd0 s)
/-- MEMORY_UNCORRECTABLE (R380). -/
def effMemoryUncorrectable (mem : Byte) (addr : Word) (s : State) : State :=
  if s.pwr.on then (s.raise srcPower 0x1014 5 ([mem, 0, 0, 0] ++ le 4 addr)).fault 0x0A else s
/-- MEMORY_UNCORRECTABLE. -/
def execMemoryUncorrectable (mem : Byte) (addr : Word) (s : State) : Res := .next (effMemoryUncorrectable mem addr s)
/-- SUPERVISOR_SELF_CHECK_FAIL (R389): the Lifeline's watchdog puts the module into HALT from every other mode, START
included, since the Supervisor that would run the next start has failed. -/
def effSupervisorSelfCheckFail (s : State) : State :=
  if s.pwr.on && s.sys.mode != .halt then s.haltNow 0x0C false else s
/-- SUPERVISOR_SELF_CHECK_FAIL. -/
def execSupervisorSelfCheckFail (s : State) : Res := .next (effSupervisorSelfCheckFail s)

end Sys2Proof.Machine
end

