-- ==== Sys2Proof/Machine/ConfigSet.lean ====
section
/-! DEFINITION. The configuration set: layout, ranges, the checks of CONFIG_LOAD (R114, R115), schedules (R267 to R270,
R282). -/

namespace Sys2Proof.Machine

/-! ## Schedules -/

/-- Guard interval, time per byte and hop delay in ns, by generation (R260, R267). -/
def guardNs (gen : Nat) : Nat := if gen = 2 then 1200 else 4000
def byteNs (gen : Nat) : Nat := if gen = 2 then 8 else 80
def hopNs (gen : Nat) : Nat := if gen = 2 then 640 else 2600
/-- Payload bytes of a size class (R267). -/
def classBytes (c : Byte) : Nat := if c = 0 then 64 else if c = 1 then 256 else if c = 2 then 512 else 1480
/-- Greatest length of a slot's frame: payload plus trailer; 120 for the beacon (R267). -/
def SlotDesc.room (d : SlotDesc) : Nat :=
  if d.kind = 0 then 120 else if d.kind = 1 ∨ d.kind = 2 then d.len + (if d.trailer then 8 else 0)
  else classBytes d.sizeClass
/-- Length of a slot in ns (R267). -/
def SlotDesc.lenNs (d : SlotDesc) (gen : Nat) : Nat :=
  (40 + d.room) * byteNs gen + guardNs gen + (if d.kind = 0 then hopNs gen else 0)
/-- An offset of a descriptor; none for 0xFFFF_FFFF. -/
def offsetOf (n : Nat) : Option Nat := if n = 0xFFFFFFFF then none else some n
/-- A descriptor (R269). -/
def parseSlot (e : Bytes) : SlotDesc :=
  { slot := leAt e 0 2, kind := byteAt e 2, node := byteAt e 3, inOff := offsetOf (leAt e 4 4), outOff := offsetOf (leAt e 8 4)
    len := leAt e 12 2, trailer := bitAt e 14 0, sizeClass := byteAt e 15 }
/-- A schedule table (R269); none when its length does not fit its COUNT. -/
def parseSchedule (b : Bytes) : Option Schedule :=
  if b.length < 16 ∨ b.length ≠ 16 + 16 * leAt b 6 2 then none else
  let es := entries 16 (b.drop 16)
  some { ident := BitVec.ofNat 32 (leAt b 0 4), gen := byteAt b 4, netId := byteAt b 5, cycleNs := leAt b 8 4
         slots := es.map parseSlot, clean := allZero (sub b 12 4) && es.all fun e => (byteAt e 14).toNat < 2, body := b.drop 4 }
/-- Slots of one direction as (start, end). -/
def Schedule.spans (c : Schedule) (out : Bool) : List (Nat × Nat) :=
  c.slots.filterMap fun d => ((if out then d.outOff else d.inOff).map fun o => (o, o + d.lenNs c.gen.toNat))
/-- One descriptor obeys the table of kinds and lengths (R267, R269, R270). -/
def SlotDesc.ok (d : SlotDesc) : Bool :=
  decide (d.kind.toNat ≤ 6) && decide (d.slot < 4096) && decide (d.sizeClass.toNat ≤ 3) &&
  (match d.kind.toNat with
    | 0 => d.slot == 0 && d.inOff == some 0 && d.outOff == some 0 && d.len == 0 && d.sizeClass == 0 && !d.trailer
    | 1 => d.inOff.isSome && d.outOff.isNone && decide (1 ≤ d.room ∧ d.room ≤ 1480 ∧ d.len ≤ 1472) && d.sizeClass == 0
    | 2 => d.outOff.isSome && d.inOff.isNone && decide (1 ≤ d.room ∧ d.room ≤ 1480 ∧ d.len ≤ 1472) && d.sizeClass == 0
    | 3 => d.inOff.isSome && d.outOff.isSome && d.len == classBytes d.sizeClass
    | 4 => d.inOff.isSome && d.outOff.isNone && d.len == classBytes d.sizeClass && !d.trailer
    | 5 => d.outOff.isSome && d.inOff.isNone && d.len == classBytes d.sizeClass && !d.trailer
    | _ => d.inOff.isSome && d.outOff.isSome && d.len == classBytes d.sizeClass && !d.trailer)
/-- Stations that a schedule names. -/
def Schedule.stations (c : Schedule) : List Nat :=
  ((c.slots.map (·.node.toNat)).filter fun n => n != 0 && n != 255).eraseDups
/-- Each number of a list is below the next. -/
def ascending : List Nat → Bool
  | a :: b :: l => decide (a < b) && ascending (b :: l)
  | _ => true
/-- R269, R270 and R282. -/
def Schedule.ok (c : Schedule) : Bool :=
  let g := c.gen.toNat
  let apart (l : List (Nat × Nat)) : Bool := noPair (fun a b => decide (a.1 < b.2) && decide (b.1 < a.2)) l
  c.clean && (Config.sha3 c.body).extractLsb' 0 32 == c.ident && decide (c.slots.length ≤ if g = 2 then 4096 else 1024) &&
  ascending (c.slots.map (·.slot)) && c.slots.all SlotDesc.ok && (c.slots.filter fun d => d.kind == 0).length == 1 &&
  (c.slots.filter fun d => d.kind == 6).length == 1 &&
  decide (c.cycleNs % 125000 = 0 ∧ c.cycleNs ≤ 16000000 ∧ (if g = 2 then 125000 else 1000000) ≤ c.cycleNs) &&
  apart (c.spans false) && apart (c.spans true) &&
  (c.spans false ++ c.spans true).all (fun x => decide (x.2 * 100 ≤ 95 * c.cycleNs)) &&
  c.stations.all (fun n => [1, 2].all fun k =>
    decide ((c.slots.filter fun d => d.kind.toNat == k && d.node.toNat == n).length ≤ 4)) &&
  decide (c.stations.length ≤ if g = 2 then 250 else 126)

/-! ## Layout (R114) -/

/-- Items of PARAMETERS with their ranges (R114). -/
def itemKnown (id ix v : Nat) : Bool :=
  match id with
  | 0x0101 => ix == 0 && decide (v ≤ 1)
  | 0x0102 => ix == 0 && decide (v ≤ 2)
  | 0x0103 => ix == 0 && decide (v ≤ 1)
  | 0x0104 => ix == 0 && decide (125 ≤ v ∧ v ≤ 16000 ∧ v % 125 = 0)
  | 0x0105 => ix == 0 && decide (v ≤ 50)
  | 0x0110 => decide (ix ≤ 5 ∧ v ≤ 1)
  | 0x0111 => decide (ix ≤ 5 ∧ v ≤ 1)
  | 0x0112 => decide (ix ≤ 5 ∧ 5 ≤ v ∧ v ≤ 5000)
  | 0x0120 => decide (ix ≤ 1 ∧ v ≤ 2)
  | 0x0121 => decide (ix ≤ 1 ∧ v ≤ 255)
  | 0x0122 => decide (ix ≤ 1 ∧ 1 ≤ v ∧ v ≤ 250)
  | 0x0123 => decide (ix ≤ 1 ∧ v ≤ 2)
  | 0x0124 => decide (ix ≤ 1 ∧ v ≤ 2)
  | 0x0130 => ix == 0 && decide (1000 ≤ v ∧ v ≤ 1000000000)
  | 0x0131 => ix == 0 && decide (v ≤ 1)
  | 0x0132 => ix == 0 && decide (v ≤ 1)
  | 0x0133 => ix == 0 && decide (v ≤ 1)
  | 0x0134 => ix == 0 && decide (v ≤ 127)
  | 0x0135 => ix == 0 && decide (v ≤ 1)
  | 0x0136 => ix == 0 && decide ((v % 256 = 1 ∨ v % 256 = 2) ∧ v / 256 ≤ 1)
  | 0x0137 => decide (ix ≤ 1 ∧ v % 256 ≤ 8 ∧ 2 ≤ v / 256 ∧ v / 256 ≤ 12)
  | 0x0140 => decide (ix ≤ 1 ∧ v / 2 ^ 32 ≤ 32)
  | 0x0141 => decide (ix ≤ 1 ∧ v < 2 ^ 32)
  | 0x0142 => decide (ix ≤ 3)
  | 0x0143 => decide (ix ≤ 1 ∧ v ≤ 128)
  | 0x0150 => decide (ix ≤ 3 ∧ v % 65536 ∈ [125, 250, 500, 1000] ∧ v / 65536 % 256 ∈ [1, 2, 4, 5] ∧ v / 2 ^ 24 ≤ 1)
  | 0x0151 => decide (ix ≤ 1 ∧ v / 2 ^ 32 % 256 ≤ 2 ∧ 2 ≤ v / 2 ^ 40 % 256 ∧ v / 2 ^ 40 % 256 ≤ 64 ∧ v / 2 ^ 48 ≤ 3
      ∧ v % 2 ^ 32 ∈ [9600, 19200, 57600, 115200, 1000000, 2000000, 6000000, 12000000])
  | _ => false
/-- Items as (ID × 65,536 + index, value). -/
def parseItems (b : Bytes) : List (Nat × Quad) :=
  (entries 16 b).map fun e => (leAt e 0 2 * 65536 + leAt e 2 2, BitVec.ofNat 64 (leAt e 8 8))
/-- Every item is known, in range and named once; reserved bytes 0. -/
def itemsOk (b : Bytes) : Bool :=
  (entries 16 b).all (fun e => leAt e 4 4 == 0 && itemKnown (leAt e 0 2) (leAt e 2 2) (leAt e 8 8)) &&
  decide ((parseItems b).map (·.1)).Nodup
/-- A segment entry and its ranges. -/
def parseSegment (e : Bytes) : Segment :=
  { isOut := byteAt e 0 == 1, source := byteAt e 1, station := (byteAt e 2).toNat, index := (byteAt e 3).toNat, slot := leAt e 4 2
    size := leAt e 6 2, subst := byteAt e 8, substOff := leAt e 12 4, imageOff := leAt e 16 4 }
def segmentRange (subLen : Nat) (e : Bytes) : Bool :=
  decide ((byteAt e 0).toNat ≤ 1 ∧ (byteAt e 1).toNat ≤ 2 ∧ (byteAt e 3).toNat ≤ 3 ∧ (byteAt e 8).toNat ≤ 2
    ∧ leAt e 16 4 % 64 = 0 ∧ (byteAt e 8 = 1 → leAt e 12 4 + leAt e 6 2 ≤ subLen))
/-- A station entry and its ranges. -/
def parseStation (e : Bytes) : StationCfg :=
  { net := if byteAt e 0 = 1 then .hl2 else .hl1, addr := (byteAt e 1).toNat, failLimit := (byteAt e 2).toNat
    returnLimit := (byteAt e 3).toNat, respLimit := (byteAt e 4).toNat, coldStart := bitAt e 5 0 }
def stationRange (gen : Nat → Nat) (e : Bytes) : Bool :=
  decide ((byteAt e 0).toNat ≤ 1 ∧ 1 ≤ (byteAt e 1).toNat ∧ (byteAt e 1).toNat ≤ (if gen (byteAt e 0).toNat = 1 then 126 else 250)
    ∧ 1 ≤ (byteAt e 2).toNat ∧ (byteAt e 2).toNat ≤ 15 ∧ 1 ≤ (byteAt e 3).toNat ∧ (byteAt e 3).toNat ≤ 15
    ∧ 2 ≤ (byteAt e 4).toNat ∧ (byteAt e 4).toNat ≤ 64 ∧ (byteAt e 5).toNat ≤ 1 ∧ leAt e 6 2 = 0)
/-- A channel entry and its ranges. -/
def parseChan (e : Bytes) : ChanCfg := ⟨byteAt e 0, byteAt e 1, byteAt e 2, byteAt e 3⟩
def chanRange (e : Bytes) : Bool :=
  decide ((byteAt e 0).toNat ∈ [0, 1, 5, 6] ∧ (byteAt e 1).toNat ∈ [1, 3] ∧ (byteAt e 2).toNat ≤ 8 ∧ (byteAt e 3).toNat ≤ 2
    ∧ leAt e 4 4 = 0)
/-- A ring entry. -/
def parseRing (e : Bytes) : RingGeo := ⟨byteAt e 0, byteAt e 1, BitVec.ofNat 16 (leAt e 2 2)⟩
/-- A routing entry and its ranges (R322, R324, R326): ports 0 to 9. -/
def parseRoute (e : Bytes) : Route :=
  { srcPort := byteAt e 0, dstPort := byteAt e 1, transform := byteAt e 2, valid := bitAt e 3 0, cont := bitAt e 3 1
    srcId := BitVec.ofNat 32 (leAt e 4 4), srcMask := BitVec.ofNat 32 (leAt e 8 4), dstId := BitVec.ofNat 32 (leAt e 12 4) }
def routeRange (e : Bytes) : Bool := (byteAt e 3).toNat < 4
/-- A context entry and its ranges. -/
def parseCtx (e : Bytes) : CtxCfg := ⟨byteAt e 0, (byteAt e 1).toNat, leAt e 4 2⟩
def ctxRange (e : Bytes) : Bool := (byteAt e 0).toNat ≤ 6
/-- A semaphore entry and its ranges. -/
def parseSem (e : Bytes) : SemCfg := ⟨byteAt e 0, (byteAt e 1).toNat, leAt e 4 4⟩
def semRange (e : Bytes) : Bool := decide ((byteAt e 0).toNat ≤ 1 ∨ byteAt e 0 = 0xFF)
/-- A window entry and its ranges. -/
def parseWindow (e : Bytes) : WindowCfg :=
  { base := leAt e 0 4, size := leAt e 4 4, partition := byteAt e 8, net := byteAt e 9, station := (byteAt e 10).toNat
    ctx := (byteAt e 11).toNat, normal := bitAt e 12 0, volatile := bitAt e 12 1, posted := bitAt e 12 2, remote := leAt e 16 8 }
def windowRange (e : Bytes) : Bool := decide ((byteAt e 8).toNat ≤ 1 ∧ (byteAt e 9).toNat ≤ 1)
/-- An endpoint entry. -/
def parseEndpoint (e : Bytes) : EndpointCfg := ⟨leAt e 0 2, leAt e 2 2, sub e 4 16⟩
/-- A group entry and its ranges. -/
def parseGroup (e : Bytes) : GroupCfg := ⟨byteAt e 0, byteAt e 1, BitVec.ofNat 256 (leAt e 4 32)⟩
def groupRange (e : Bytes) : Bool := decide (1 ≤ (byteAt e 0).toNat ∧ (byteAt e 1).toNat ≤ 1)

/-- A set as it parses, with the verdict on the ranges of its fields. -/
structure Parsed where
  set : ConfigSet
  ranges : Bool
  deriving DecidableEq, Repr
/-- The header of R114, its CRC included; the length. -/
def configHeader (b : Bytes) : Option Nat :=
  let len := leAt b 20 4
  if sub b 0 4 = [0x44, 0x58, 0x43, 0x46] ∧ leAt b 4 2 = 1 ∧ leAt b 6 2 = 0 ∧ 1 ≤ leAt b 16 2 ∧ leAt b 16 2 ≤ 32 ∧ leAt b 18 2 = 0
      ∧ allZero (sub b 24 36) ∧ len ≤ 8388608 ∧ len ≤ b.length
      ∧ BitVec.ofNat 32 (leAt b 60 4) = crc32c (patch (b.take len) 60 [0, 0, 0, 0]) then some len else none
/-- Read the sections of a set of `len` bytes behind its header (R114). -/
def parseSections (b : Bytes) (len : Nat) : Option Parsed :=
  match directory b (leAt b 16 2) len 14 with
  | none => none
  | some d =>
    let sec (t : Nat) : Bytes := (secOf b d t).getD []
    let has (t : Nat) : Bool := (secOf b d t).isSome
    let whole (t n : Nat) : Bool := (sec t).length % n == 0
    let exact (t n : Nat) : Bool := !has t || (sec t).length == n
    let s1 := (secOf b d 4).map parseSchedule
    let s2 := (secOf b d 5).map parseSchedule
    if whole 1 16 && exact 2 128 && exact 3 768 && s1 != some none && s2 != some none && whole 6 24 && whole 7 8
        && whole 9 16 && exact 10 896 && exact 11 512 && whole 12 32 && exact 13 6144 && whole 14 36
        && decide ((sec 8).length ≤ 262144 ∧ (sec 9).length ≤ 262144 ∧ (sec 12).length ≤ 8192) then
      let items := parseItems (sec 1)
      let gen (n : Nat) : Nat := ((items.find? fun i => i.1 == 0x0120 * 65536 + n).map (·.2.toNat)).getD 0
      let set : ConfigSet :=
        { setId := BitVec.ofNat 32 (leAt b 8 4), build := BitVec.ofNat 32 (leAt b 12 4)
          params := items.foldl (fun t i => Tbl.set (fun _ => none) t i.1 (some i.2)) []
          rings := if has 2 then (entries 4 (sec 2)).map parseRing else ConfigSet.reset.rings
          channels := if has 3 then (entries 8 (sec 3)).map parseChan else ConfigSet.reset.channels
          sched1 := s1.bind id, sched2 := s2.bind id, segments := (entries 24 (sec 6)).map parseSegment
          stations := (entries 8 (sec 7)).map parseStation, substitutes := sec 8, routing := (entries 16 (sec 9)).map parseRoute
          contexts := (entries 8 (sec 10)).map parseCtx, semaphores := (entries 8 (sec 11)).map parseSem
          windows := (entries 32 (sec 12)).map parseWindow, endpoints := (entries 24 (sec 13)).map parseEndpoint
          groups := (entries 36 (sec 14)).map parseGroup }
      let ok := itemsOk (sec 1) && (entries 4 (sec 2)).all (fun e => decide ((byteAt e 1).toNat = 1 ∨ (byteAt e 1).toNat = 2))
        && (entries 8 (sec 3)).all chanRange && (entries 24 (sec 6)).all (segmentRange (sec 8).length)
        && (entries 8 (sec 7)).all (stationRange gen)
        && (entries 16 (sec 9)).all routeRange && (entries 8 (sec 10)).all ctxRange
        && (entries 8 (sec 11)).all semRange && (entries 32 (sec 12)).all windowRange
        && (entries 36 (sec 14)).all groupRange
      some ⟨set, ok⟩
    else none
/-- Read a configuration set (R114); none when header, directory, sections or CRC break the layout. -/
def parseConfig (b : Bytes) : Option Parsed := (configHeader b).bind (parseSections b)

/-! ## The rules of the sections (R115) -/

/-- R57 and R58: depths 16 to 4,096, bases aligned, 16,384 entries in all, no two ring pairs over each other; version 1
only on ring pairs 0 to 11. -/
def ringsOk (rs : List RingGeo) : Bool :=
  let span (r : RingGeo) : Nat × Nat := (r.base.toNat, r.base.toNat + 2 * 2 ^ r.depthLog2.toNat)
  rs.all (fun r => decide (4 ≤ r.depthLog2.toNat ∧ r.depthLog2.toNat ≤ 12)) &&
  rs.all (fun r => decide (r.base.toNat % (2 * 2 ^ r.depthLog2.toNat) = 0) && decide ((span r).2 ≤ 16384)) &&
  decide ((rs.map fun r => 2 * 2 ^ r.depthLog2.toNat).sum ≤ 16384) &&
  noPair (fun a b => decide ((span a).1 < (span b).2) && decide ((span b).1 < (span a).2)) rs &&
  (rs.drop 12).all (fun r => r.cmdset == 2)
/-- A segment carries what one DATA slot of its station carries (R116). -/
def ConfigSet.slotOk (c : ConfigSet) (x : Segment) : Bool :=
  match srcNetOf x.source with
  | none => true
  | some n =>
    match c.sched n with
    | none => false
    | some t => t.slots.any fun d => d.slot == x.slot &&
        ((d.kind == (if x.isOut then 2 else 1) && d.node.toNat == x.station && d.room == x.size) ||
         (d.kind == 3 && decide (x.size ≤ classBytes d.sizeClass ∧ (if d.trailer then 8 else 0) < x.size ∧
            x.size ≤ 1472 + if d.trailer then 8 else 0)))
/-- R116 and R117. -/
def ConfigSet.segmentsOk (c : ConfigSet) : Bool :=
  let side (o : Bool) : List Segment := c.segments.filter fun x => x.isOut == o
  [false, true].all (fun o => decide ((side o).length ≤ 1024) && decide (((side o).map Segment.room).sum ≤ 262144) &&
    (side o).all (fun x => decide (x.imageOff + x.room ≤ 262144)) &&
    noPair (fun a b : Segment => decide (a.imageOff < b.imageOff + b.room) && decide (b.imageOff < a.imageOff + a.room)) (side o) &&
    decide ((side o).map fun x => (x.source, x.station, x.index)).Nodup) &&
  c.segments.all (fun x =>
    if x.source = 2 then decide (x.station < 6) && x.index == 0 && x.size == (if x.isOut then 16 else 64)
    else decide (1 ≤ x.size ∧ x.size ≤ 1480) && c.slotOk x)
/-- Schedules against the items of their networks (R259, R270, R282). -/
def ConfigSet.schedulesOk (c : ConfigSet) : Bool :=
  [Net.hl1, Net.hl2].all fun n =>
    let g := c.param 0x0120 (netIx n)
    (match c.sched n with
      | none => g == 0
      | some t => g != 0 && t.gen.toNat == g && t.netId.toNat == c.param 0x0121 (netIx n) && t.ok) &&
    (match c.param 0x0123 (netIx n) with
      | 0 => decide (c.param 0x0124 (netIx n) ≤ 1)
      | 1 => c.param 0x0124 (netIx n) == 2
      | _ => true)
/-- Stations: named once, at most four cold-start capable nodes with the module and a partner, no failure limit below a
connection's watchdog (R131, R276, R242). -/
def ConfigSet.stationsOk (c : ConfigSet) (saf : Tbl (Option Quad)) (partner : Bool) : Bool :=
  decide (c.stations.map fun x => (x.net, x.addr)).Nodup &&
  [Net.hl1, Net.hl2].all (fun n =>
    decide ((c.stations.filter fun x => x.net == n && x.coldStart).length + 1 + (if partner then 1 else 0) ≤ 4)) &&
  (conns saf).all (fun k => decide (k.w ≤ ((c.station? k.net k.station).map (·.failLimit)).getD 3))
/-- Contexts, semaphores and windows (R190, R328, R330, R341, R343, R344, R342); the fixed contexts of the version 1 ring
pairs hold 16 credits each. -/
def ConfigSet.stileOk (c : ConfigSet) : Bool :=
  let used := c.contexts.filter fun x => x.owner != 0
  used.all (fun x => decide (x.owner.toNat ≤ 5 ∧ 1 ≤ x.credits ∧ x.credits ≤ 32 ∧ 1 ≤ x.timeoutMs ∧ x.timeoutMs ≤ 1000)) &&
  decide ((used.map (·.credits)).sum + 192 ≤ 2048) &&
  c.semaphores.all (fun x => x.net == 0xFF || decide (1 ≤ x.holdMs ∧ x.holdMs ≤ 1000)) &&
  c.windows.all (fun w => decide (1 ≤ w.size ∧ w.size ≤ 4096 ∧ w.base + w.size ≤ 65536) && !(w.normal && w.volatile) &&
    (match c.contexts[w.ctx]? with
      | some x => x.owner.toNat == 3 + w.partition.toNat
      | none => false) &&
    !(c.semaphores.any fun m => m.net == w.net && m.station == w.station)) &&
  noPair (fun a b : WindowCfg => decide (a.base < b.base + b.size) && decide (b.base < a.base + a.size)) c.windows
/-- The set without what R115 lets a load change in RUN: ROUTING, ENDPOINTS, SEMAPHORES, items 0x0130 to 0x0151. -/
def ConfigSet.fixedInRun (c : ConfigSet) : ConfigSet :=
  { c with setId := 0, build := 0, routing := [], endpoints := [], semaphores := []
           params := c.params.filter fun p => !(decide (0x0130 ≤ p.1 / 65536) && decide (p.1 / 65536 ≤ 0x0151)) }

/-- The first check of R115 that a set fails; none when it passes. -/
def State.configRefusal (s : State) (p : Parsed) : Option Nat :=
  let c := p.set
  if !p.ranges then some 0xC1
  else if !ringsOk c.rings then some 0xC2
  else if !(modesApart s.saf.items c.channels && mappingsOk s.saf.items c.channels s.prog.loaded) then some 0xC3
  else if !c.segmentsOk then some 0xC4
  else if !bufferRule c.segments (counted s.cpr.split s.prog.loaded) then some 0x51
  else if !c.schedulesOk then some 0xC5
  else if !c.stationsOk s.saf.items s.partnerPresent then some 0xC9
  else if !c.stileOk then some 0xC6
  else if s.sys.mode = .run ∧ c.fixedInRun ≠ s.cfg.cur.fixedInRun then some 0xC7
  else if s.dpx.role = 1 ∧ (s.dpx.standby = 1 ∨ s.dpx.standby = 3) then some 0xC8
  else none

/-- A network runs on other values than a set gives it. -/
def netWaits (x : HlNet) (c : ConfigSet) (n : Net) : Bool :=
  let y := x.atStart c n
  (y.gen, y.netId, y.addr, y.wiring, y.port2, y.sched) != (x.gen, x.netId, x.addr, x.wiring, x.port2, x.sched)
/-- Parts that wait for a start, where a set differs from what is in force: ring geometry, networks, PAIR_MODE (RESULT
byte 36). -/
def State.waitingParts (s : State) (new : ConfigSet) : Nat :=
  maskOf [new.rings != s.cfg.rings, netWaits s.hl1 new .hl1 || netWaits s.hl2 new .hl2,
    (new.param 0x0103 0 == 1) != s.cpr.split]
/-- Sward takes a changed segment directory: what it holds of segments begins anew, stations it knows keep their state. -/
def State.newSegments (s : State) : State :=
  let old := s.swd.stations
  let put (t : Tbl Station) (k : Nat) : Tbl Station :=
    let st := Tbl.get (fun _ => Station.reset) old k
    if st.state = 0 then t else Tbl.set (fun _ => Station.reset) t k st
  let s := s.modSwd fun w => { w with
    ins := [], versions := [], writing := [], sending := [], fixed := [], publishers := [], pinned := none
    stations := (s.startStations.map (·.1)).foldl put s.startStations }
  let s := s.poolFor s.segs
  let failed (s : State) (n : Net) (a : Nat) : Bool := (s.station n a).state.toNat ≥ 2
  let s := [Net.hl1, Net.hl2].foldl (fun s n => (s.stationsOf false n).foldl (fun s a =>
    if failed s n a then s.substituteStation n a else s) s) s
  s.publishStops
/-- A configuration set takes effect (R115): everything but what waits for a start. -/
def State.applyConfig (s : State) (c : ConfigSet) : State :=
  let old := s.cfg.cur
  let s := s.modCfg fun x => { x with cur := c }
  let s := s.applyChannels
  let s := if c.segments = old.segments ∧ c.stations = old.stations ∧ c.substitutes = old.substitutes then s else s.newSegments
  s.modStl fun t => { t with ctxs := (List.range 112).foldl (fun l i =>
    let x : CtxCfg := (c.contexts[i]?).getD ⟨0, 0, 0⟩
    Tbl.upd (fun _ => Ctx.reset) l i fun k =>
      { k with owner := BitVec.setWidth 3 x.owner, credits := if x.owner = 0 then 0 else x.credits }) t.ctxs }
/-- CONFIG_LOAD (R115): the set goes to an IN_SYNC standby, whose acknowledgement the commit waits for. -/
def effConfigLoad (h : Quad) (b : SentBuf) (s : State) : State :=
  s.begin h 0x2026 false fun e =>
    match s.input e.ring (sub e.args 0 16) b.buf with
    | none => s.fail h stBufferFault
    | some x =>
      match parseConfig x with
      | none => s.fail h stVerifyFailed
      | some p =>
        match s.configRefusal p with
        | some d => s.refuseLoad h d
        | none =>
          let set := x.take (leAt x 20 4)
          let s := s.sendItem 1 set
          if s.inSync ∧ !b.standbyOk then s else
          let parts := s.waitingParts p.set
          let s := (s.modCfg fun c => { c with stored := some set }).applyConfig p.set
          s.complete h stOk (le 32 (Config.sha3 set) ++ le 4 p.set.setId ++ leBytes 1 parts)
/-- CONFIG_LOAD. -/
def execConfigLoad (h : Quad) (b : SentBuf) (s : State) : Res := .next (effConfigLoad h b s)
/-- The stored set as a start reads it: none when it fails its checks (R115); the defaults when nothing is stored. -/
def State.storedConfig (s : State) : Option ConfigSet :=
  match s.cfg.stored with
  | none => some .reset
  | some b => (parseConfig b).map (·.set)

end Sys2Proof.Machine
end

