-- ==== Sys2Proof/Machine/CallOps.lean ====
section
/-! DEFINITION. What runtime calls do outside the lanes: entries in a program's ring, consumer indices, program-defined
events, FAULT_RAISE (R77, R88, R103, R104, R180). -/

namespace Sys2Proof.Machine

/-- The ring pairs of a task's execution group (R56): 20 to 23 for task 0, 12 to 19 for the standard tasks. -/
def groupRing (t r : Nat) : Bool := if t = 0 then 20 ≤ r && r < 24 else 12 ≤ r && r < 20

/-- The producer index that the next entry of a ring takes: behind the entries that no doorbell covers yet (R88). -/
def State.nextEntry (s : State) (r : Nat) : Word :=
  let c := (s.ring r).cmdCons
  let open_ := allTasks.flatMap fun t => (s.task t).doorbells.filterMap fun (n, i) =>
    if n = r then some (i + 1 - c).toNat else none
  c + BitVec.ofNat 32 (open_.foldl Nat.max ((s.ring r).cmdProd - c).toNat)
/-- The ring has a free slot for that entry (R63). -/
def State.hasSlot (s : State) (r : Nat) : Bool :=
  decide ((s.nextEntry r - (s.ring r).cmdCons).toNat < (s.ring r).depth)
/-- The last of several values for a ring stands. -/
def putPair (l : List (Nat × Word)) (r : Nat) (v : Word) : List (Nat × Word) := l.filter (·.1 != r) ++ [(r, v)]
/-- Place an entry in a program's ring at once; its doorbell waits for the task's publish point, and until then the entry
counts as submitted in an open cycle (R88). -/
def State.submit (s : State) (t r : Nat) (entry : Bytes) : State :=
  let i := s.nextEntry r
  let s := s.modMem fun m => { m with ring := m.ring.store ((s.ring r).cmdOff i) (padTo 64 entry) }
  let s := s.modRing r fun x => { x with
    from1 := x.from1.filter (· != i) ++ (if 9 ≤ t then [i] else [])
    subs := x.subs.filter (· != i) ++ [i] }
  s.modTask t fun k => { k with doorbells := k.doorbells ++ [(r, i)] }
/-- A doorbell (R64): a value that moves the index back or beyond the depth is ignored and sets DOORBELL_ERR. -/
def State.writeDoorbell (s : State) (r : Nat) (v : Word) : State :=
  let x := s.ring r
  if (v - x.cmdCons).toNat ≤ x.depth ∧ (x.cmdProd - x.cmdCons).toNat ≤ (v - x.cmdCons).toNat then
    s.modRing r fun x => { x with cmdProd := v }
  else s.modRing r fun x => { x with doorbellErr := true }
/-- The doorbell of an entry at its task's publish point (R88): the entry no longer waits for one; a doorbell that has
already covered it is not written again. -/
def State.cover (s : State) (r : Nat) (i : Word) : State :=
  let s := s.modRing r fun x => { x with subs := x.subs.filter (· != i) }
  let x := s.ring r
  if (x.cmdProd - x.cmdCons).toNat ≤ (i - x.cmdCons).toNat then s.writeDoorbell r (i + 1) else s
/-- A ring pair's completion consumer index advances; records behind it are delivered and leave the journal (R65, R73). -/
def State.consume (s : State) (r : Nat) (v : Word) : State :=
  let c := (s.ring r).cplCons
  let gone (i : Word) : Bool := decide ((i - c).toNat < (v - c).toNat)
  let s := s.modRing r fun x => { x with cplCons := v, undelivered := x.undelivered.filter fun u => !gone u.1 }
  let s := s.modJournal fun j => j.filter fun e => !(e.ring == r && e.phase == .doneWritten && gone e.doneAt)
  let s := State.drainRecords r (s.ring r).backlog s
  if s.room r then s.modRing r fun x => { x with acceptHeld := false } else s

/-- A consumer index (R65): a value beyond the producer index or behind the previous value is ignored and sets CONS_ERR;
the interrupt condition is evaluated again (R67). -/
def State.writeCons (s : State) (r : Nat) (v : Word) : State :=
  let x := s.ring r
  if (v - x.cplCons).toNat ≤ (x.cplProd - x.cplCons).toNat then
    let s := s.consume r v
    if (s.ring r).irqOn s.now then s.signal r else s
  else s.modRing r fun x => { x with consErr := true }

/-- The severity of a program-defined entry, which the spec does not state: a free one of the six (R385; log entry 17). -/
def freeSev (k : Nat) : BitVec 4 := BitVec.ofNat 4 (1 + (Config.freeBits k 4).toNat % 6)
/-- EVENT_LOG reaches the recorder (R103, R393): the Boolean says whether it was written. -/
def State.logEvent (s : State) (t : Nat) (code : BitVec 16) (data : Bytes) : State × Bool :=
  let (s, ok) := s.offer (if t = 0 then srcTri else srcPair) code (freeSev s.free) data (s.task t).rerun 0
  (s.bump, ok)
/-- FAULT_RAISE (R103): recorded; with reaction 1, HALT after the publish point. -/
def State.raiseFault (s : State) (t : Nat) (reaction : Nat) (data : Bytes) : State :=
  let sev : BitVec 4 := if reaction = 1 then 5 else 4
  let s := if t = 0 then s.raise srcTri 0x5013 sev data
    else (s.offer srcPair 0x3007 sev data (s.task t).rerun 0).1
  if reaction = 1 then s.modTask t fun k => { k with haltAfter := some 0x08 } else s

end Sys2Proof.Machine
end

