-- ==== Sys2Proof/Machine/TriadOps.lean ====
section
/-! DEFINITION. The Triad Voter's judgement and what it releases; mismatches, exclusion, voter faults (R145 to R169). -/

namespace Sys2Proof.Machine

/-! ## Mismatches (R148, R160, R165, R167) -/

/-- The triad votes: its domain is on, the release gate open, no debugger on the lanes (R169, R171). -/
def State.voting (s : State) : Bool := s.domOn 1 && !s.tri.gateClosed && !s.tri.debug
/-- A mismatch, attributed to a lane or to none (R160, R165): with three lanes in vote the lane enters SELF_TEST,
otherwise HALT. A lane already out of the vote is the one mismatch of R167. -/
def State.mismatch (s : State) (lane : Option Nat) (kind : BitVec 4) : State :=
  let out := match lane with
    | some l => (s.tri.lane l).state != .inVote
    | none => false
  if !s.voting || out then s else
  let s := s.modTri fun t => { t with
    lastLane := BitVec.ofNat 2 (lane.getD 3), lastKind := kind, mismatches := t.mismatches + 1, misTick := s.sys.baseTick }
  match lane, s.tri.allIn with
  | some l, true => (s.modLane l fun x => { x with kind := kind, since := s.now, copied := false, ready := false, destroyed := true }).laneState l .selfTest
  | _, _ => s.fault 0x04
/-- The active module asks for a planned role swap at the next boundary (R166, R185). Whether the standby's lanes are all
in their checked state is not visible to the active: a free value (log entry 18). -/
def State.askSwap (s : State) : State :=
  if s.inSync then
    let go := (Config.freeBits s.free 1).getLsbD 0 && s.dpx.swap.isNone
    (s.modDpx fun d => { d with swap := if go then some none else d.swap }).bump
  else s
/-- A lane enters EXCLUDED (R160): counted, the repair timer starts (R255), DEGRADED; a second exclusion within 1,000
operating hours is permanent. -/
def State.exclude (s : State) (l : Nat) : State :=
  let old := withinHours 1000 s.opMs (s.tri.lane l).exclusions
  let s := s.modLane l fun x => { x with exclusions := old ++ [s.opMs], copied := false, ready := false }
  let s := (s.laneState l .excluded).repairStart l (s.safety 0x15 0 * msHour)
  let s := s.setEvent 5
  let s := if old.isEmpty then s else s.laneState l .permanent
  s.askSwap
/-- Lanes that completed their final pass are IN_VOTE again; the transient readmission counts (R160). -/
def State.readmitReady (s : State) : State :=
  [0, 1, 2].foldl (fun s l =>
    let x := s.tri.lane l
    if x.state = .resync ∧ x.ready then
      (s.modLane l fun x => { x with
        ready := false, copied := false, transients := withinHours 24 s.opMs x.transients ++ [s.opMs] }).laneState l .inVote
    else s) s
/-- A voter or delay-register fault (R169). -/
def State.voterFault (s : State) : State :=
  ((s.modTri fun t => { t with gateClosed := true, voterFault := true }).modFld fun f => { f with safetyOff := true }).fault 0x03

/-! ## The vote (R145 to R148) -/

/-- Kind of a mismatch between an agreed copy and another (TRI_MISMATCH.LAST_KIND). DESIGN CHOICE: of several differences
the content, or the region of a publish request, is named before the commit signature; any of an exchange request is 7
(log entry 70). -/
def oddKind (good : EgressCopy) : Option EgressCopy → BitVec 4
  | none => 4
  | some c =>
    if good.kind = .exchange ∨ c.kind = .exchange then 7
    else if good.kind = c.kind ∧ good.key = c.key ∧ good.mask = c.mask ∧ good.data = c.data then 2
    else if good.kind = .publish ∧ c.kind = .publish then 3 else 1
/-- Two copies are identical tuples (R146). -/
def sameCopy : Option EgressCopy → Option EgressCopy → Bool
  | some a, some b => a == b
  | _, _ => false
/-- The judgement of R148: what is released, the odd lane, the kind of mismatch. -/
structure Judgement where
  release : Option EgressCopy
  /-- `some none`: a mismatch that names no lane -/
  odd : Option (Option Nat)
  kind : BitVec 4
  deriving DecidableEq, Repr
/-- The kind of a mismatch without a majority: by the first copies. -/
def noMajorityKind (a b : Option EgressCopy) : BitVec 4 :=
  match a with
  | some x => oddKind x b
  | none => 4
/-- Three lanes in vote. -/
def judge3 (a b c : Option EgressCopy) : Judgement :=
  let odd (good : Option EgressCopy) (other : Option EgressCopy) : BitVec 4 :=
    match good with
    | some g => oddKind g other
    | none => 4
  if sameCopy a b then (if sameCopy a c then ⟨a, none, 0⟩ else ⟨a, some (some 2), odd a c⟩)
  else if sameCopy a c then ⟨a, some (some 1), odd a b⟩
  else if sameCopy b c then ⟨b, some (some 0), odd b a⟩
  else ⟨none, some none, noMajorityKind a b⟩
/-- Two lanes in vote. -/
def judge2 (a b : Option EgressCopy) : Judgement :=
  if sameCopy a b then ⟨a, none, 0⟩ else ⟨none, some none, noMajorityKind a b⟩
/-- The judgement for the lanes in vote; with fewer than two there is no vote. -/
def State.judge (s : State) (a b c : Option EgressCopy) : Judgement :=
  match s.tri.mask .inVote with
  | 7 => judge3 a b c
  | 3 => judge2 a b
  | 5 => judge2 a c
  | 6 => judge2 b c
  | _ => ⟨none, none, 0⟩

/-! ## Release (R145) -/

/-- The bytes that a mask selects, with their offsets from `o` on. -/
def maskedBytes (o : Nat) (mask : Byte) (data : Bytes) : List (Nat × Byte) :=
  (List.range 8).filterMap fun i => if mask.getLsbD i then some (o + i, byteAt data i) else none
/-- Task 0's body, or its error task, runs and has not made its publish request (R18, R149). -/
def State.inBody0 (s : State) : Bool :=
  s.sys.mode == .run && (s.task 0).present && (s.task 0).running && !s.tri.publishOk
/-- An event may leave the lanes now: in the body of task 0; a program-defined entry from an init task too (R18, R104). -/
def State.mayLeave (s : State) (k : EgressKind) : Bool :=
  s.inBody0 || (k == .eventLog && (s.sys.initRun.isSome || s.initStart.isSome))
/-- The signatures that a lane in vote presents (R150, R151). -/
def Lane.present (x : Lane) (c : Option EgressCopy) : Lane :=
  match c with
  | some c => if x.state = .inVote then
      { x with commit := c.sig, region := if c.kind = .publish then BitVec.ofNat 256 (leNat c.data) else x.region } else x
  | none => x
/-- The latest export buffer on the TBU count of a standard task's latch point is the one that the task receives (R159). -/
def State.giveExport (s : State) : State :=
  let e := s.tri.expLatest.bytes 0 2048
  s.modAllTasks fun t k => if t ≠ 0 ∧ k.running ∧ k.latchAt = s.now then { k with expHeld := e } else k
/-- What a released event does, by the Released-to column of R145. -/
def State.release (s : State) (c : EgressCopy) : State :=
  if !s.mayLeave c.kind then s else
  match c.kind with
  | .output => s.store 0 (maskedBytes c.key.toNat c.mask c.data)
  | .exportWrite =>
    s.modTri fun t => { t with
      expFilling := (maskedBytes c.key.toNat c.mask c.data).foldl
        (fun m (a, v) => if a < 2048 then Tbl.set byte0 m a v else m) t.expFilling }
  | .cmdSubmit =>
    let r := c.key.toNat
    if groupRing 0 r && s.hasSlot r then s.submit 0 r c.data else s
  | .cplAdvance =>
    let r := c.key.toNat
    if groupRing 0 r then s.writeCons r (BitVec.ofNat 32 (leAt c.data 0 4)) else s
  | .eventLog => if c.key.toNat / 4096 = 8 ∧ c.key.toNat < 65536 then (s.logEvent 0 (c.key.setWidth 16) c.data).1 else s
  | .faultRaise => if c.key.toNat ≤ 1 then s.raiseFault 0 c.key.toNat c.data else s
  | .exchange => s
  | .publish => (s.modTri fun t => { t with publishOk := true, expLatest := t.expFilling }).giveExport

end Sys2Proof.Machine
end

