-- ==== Sys2Proof/Machine/PairOps.lean ====
section
/-! DEFINITION. The Control Pair: mismatches, self-test, exclusion, restore (R177 to R187). -/

namespace Sys2Proof.Machine

/-- CPR_MISMATCH.LAST_KIND. -/
def pairKindCode : PairKind → BitVec 4
  | .request => 1
  | .serviceCall => 2
  | .signature => 3
  | .l1Uncorrectable => 4
  | .laneException => 5
  | .checker => 6
/-- The kinds that need no comparison: they exist in SINGLE and in split mode too (R181, R187). -/
def pairKindAlone : PairKind → Bool
  | .l1Uncorrectable => true
  | .laneException => true
  | _ => false
/-- The standard tasks. -/
def stdTasks : List Nat := (List.range 16).map (· + 1)
/-- Standard tasks that are present. -/
def State.stdPresent (s : State) : List Nat := stdTasks.filter fun t => (s.task t).present
/-- Standard tasks whose body is open: latched, not yet published (R179). -/
def State.open (s : State) : List Nat := s.stdPresent.filter fun t => (s.task t).running
/-- A is of higher priority than B; on one count the lower task number first (R87). -/
def State.above (s : State) (a b : Nat) : Bool :=
  let p (t : Nat) : Nat := (s.task t).priority.toNat * 32 + t
  decide (p a < p b)
/-- The first of a list of tasks in priority order. -/
def State.first (s : State) (l : List Nat) : Option Nat :=
  l.find? fun a => l.all fun b => b == a || s.above a b
/-- The lanes on which a standard task competes: one pair, or a lane per partition in split mode (R186). -/
def State.sameGroup (s : State) (a b : Nat) : Bool := !s.cpr.split || decide (a ≤ 8) == decide (b ≤ 8)
/-- STATE of the open bodies: the highest priority runs, its error task first (R92), the others are pre-empted (R87); held
ones read 4. -/
def State.restate (s : State) : State :=
  let o := s.open.filter fun t => !(s.task t).held
  o.foldl (fun s t =>
    let top := o.all fun b => b == t || !s.sameGroup t b || s.above t b
    s.modTask t fun k => { k with state := if !top then 3 else if k.errRuns then 5 else 2 }) s

/-- An access outside the program's map or rights (R192): recorded; HALT after the task's publish point. -/
def State.programRefused (s : State) (t : Nat) (access : Byte) (addr : Quad) : State :=
  (s.raise srcPair 0x3005 5 ([BitVec.ofNat 8 t, access, 0, 0] ++ le 8 addr)).modTask t fun k => { k with haltAfter := some 0x08 }
/-- The standard task that runs in a partition. -/
def State.runner (s : State) (part1 : Bool) : Option Nat :=
  s.first (s.open.filter fun t => !(s.task t).held && (decide (9 ≤ t) == part1))

/-! ## The address map of the programs (R188) -/

/-- Bases of the Writing window and of the handover area. -/
def writingBase : Nat := 0x0100100000
def handoverBase : Nat := 0x0100150000
/-- The window of a partition that holds an access, and its index. -/
def State.windowAt (s : State) (part : Nat) (addr : Quad) (size : Nat) : Option (WindowCfg × Nat) :=
  s.cfg.cur.windows.zipIdx.find? fun (w, _) =>
    let lo := 0x0200000000 + w.base * 65536
    w.partition.toNat == part && decide (lo ≤ addr.toNat ∧ addr.toNat + size ≤ lo + w.size * 65536)
/-- The partition of a standard task (R83). -/
def partOfTask (t : Nat) : Nat := if 9 ≤ t then 1 else 0
/-- A program may write fields of the register at a BAR0 offset (R434): SYS_TASKSTAT of its partition's tasks, semaphores,
its contexts' ERR. -/
def State.programWrites (s : State) (t o : Nat) : Bool :=
  let mine (n : Nat) : Bool := decide (1 ≤ n) && partOfTask n == partOfTask t
  if 0x200 ≤ o ∧ o < 0x310 ∧ o % 16 = 0 then s.sys.progW1c && mine ((o - 0x200) / 16)
  else if 0x6100 ≤ o ∧ o < 0x6200 then s.sys.progSem
  else if 0x6200 ≤ o ∧ o < 0x6400 then s.sys.progW1c && (s.ctx ((o - 0x6200) / 4)).owner.toNat == 3 + partOfTask t
  else false
/-- The access column of R188: load 0, store 1, execute 2, of the task that runs. -/
def State.mapAllows (s : State) (t : Nat) (access : Byte) (addr : Quad) : Bool :=
  let a := addr.toNat
  let load := access == 0
  let data := decide (access.toNat ≤ 1)
  let lies (base size : Nat) : Bool := decide (base ≤ a ∧ a < base + size)
  if lies 0 0xC0000000 then (if Config.inCode (s.prog.standard.map (·.digest)) addr then access == 2 else data)
  else if lies 0x0100000000 0x40840 || lies 0x0100080000 0x40840 || lies 0x0100140000 0x800 then load
  else if lies writingBase 0x40000 then data && s.ownsAt t (a - writingBase)
  else if lies handoverBase 0x1000 then data && !(s.cpr.split && decide (9 ≤ t))
  else if lies 0x0101000000 0x100000 then load || (access == 1 && s.programWrites t (a - 0x0101000000))
  else if lies 0x0200000000 0x100000000 then data && (s.windowAt (partOfTask t) addr 1).isSome
  else false

/-- Error tasks that ran have ended: the body of their cycle runs (R92). -/
def State.errorsEnd (s : State) : State :=
  (List.range 17).foldl (fun s t =>
    if (s.task t).state = 5 then s.modTask t fun k => { k with state := 2, errRuns := false } else s) s
/-- Hold every standard task: STATE reads 4, outputs stay as published (R183). -/
def State.holdStd (s : State) : State :=
  s.stdPresent.foldl (fun s t => s.modTask t fun k => { k with held := true, state := 4 }) s
/-- The pair calls for takeover or HALT (R181). -/
def State.pairLost (s : State) (kind : BitVec 4) : State :=
  (s.raisePairState s.pairCode 4 kind 0xFF 4).fault 0x06
/-- The open undo logs may hold 8 MiB in all (R179). -/
def logLimitKib : Nat := 8192
/-- What the open undo logs hold is noted, and a cycle beyond the limit counted; in split mode there are none (R179,
R186). -/
def State.noteLog (s : State) (kib : Nat) : State :=
  if s.pairMode = 0 ∨ s.pairMode = 3 then s else
  s.modCpr fun p => { p with
    logMax := if p.logMax.toNat < Nat.min 16383 kib then BitVec.ofNat 14 (Nat.min 16383 kib) else p.logMax
    chkptOvf := if logLimitKib < kib then satInc p.chkptOvf else p.chkptOvf }
/-- A mismatch of the pair, or a checker fault (R177, R178, R181, R187), while the open undo logs hold `kib` KiB. -/
def State.pairMismatch (s : State) (k : PairKind) (kib : Nat) : State :=
  if !s.domOn 2 then s
  else if s.cpr.split then (if pairKindAlone k then s.fault 0x06 else s)
  else if s.pairMode = 2 ∧ !(pairKindAlone k) then s
  else if s.cpr.recovery = 1 ∧ k ≠ .checker then s
  else
    let s := (s.noteLog kib).modCpr fun p => { p with
      lastKind := pairKindCode k, mismatches := p.mismatches + 1, misTick := s.sys.baseTick }
    if s.pairMode = 2 ∨ s.cpr.recovery ≠ 0 ∨ k = .checker ∨ logLimitKib < kib then s.pairLost (pairKindCode k)
    else ((s.raisePairState 0 1 (pairKindCode k) 0xFF 4).modCpr fun p => { p with recovery := 1, since := s.now }).holdStd
/-- A lane of the pair is excluded (R181, R184): counted, permanent on the second within 1,000 operating hours. -/
def State.pairExclude (s : State) (l : Nat) : State :=
  let old := withinHours 1000 s.opMs (s.cpr.exclusions l)
  let bit : BitVec 2 := BitVec.ofNat 2 (2 ^ l)
  let s := s.modExclusions l fun _ => old ++ [s.opMs]
  let s := s.modCpr fun p => { p with
    excluded := p.excluded ||| bit, permanent := if old.isEmpty then p.permanent else p.permanent ||| bit }
  (s.setEvent 5).askSwap
/-- Restore (R179, R180): each open body begins again on its own latch point with what was open undone. -/
def State.restore (s : State) : State :=
  let s := s.open.foldl (fun s t =>
    (s.modTask t fun k => { k with
      held := false, reexec := true, rerun := true, doorbells := [], consumers := []
      haltAfter := none }).restoreWriting t) s
  s.restate

end Sys2Proof.Machine
end

