-- ==== Sys2Proof/Machine/Tasks.lean ====
section
/-! DEFINITION. Tasks: presence, latch points, publish points, stops, holds, the retentive commit, cycle mirrors
(R83 to R92, R102, R106, R107, R181, R183, R304). -/

namespace Sys2Proof.Machine

/-! ## Declared tasks -/

/-- The task records follow the loaded containers; tasks of START, STOP and SERVICE are held (SYS_TASKSTAT). DESIGN CHOICE:
a POLICY other than 1 is SKIP (log entry 70). -/
def State.setTasks (s : State) : State :=
  s.modAllTasks fun t k =>
    match s.taskOf t with
    | none => Task.reset
    | some (_, d) => { k with
        present := true, haltPolicy := t == 0 || d.policy == 1, priority := BitVec.ofNat 4 (if t = 0 then 0 else d.priority)
        state := if k.present then k.state else 4 }
/-- Present tasks. -/
def State.present (s : State) : List Nat := allTasks.filter fun t => (s.task t).present
/-- Period in µs; 0 for an absent task. -/
def State.periodUs (s : State) (t : Nat) : Nat := ((s.taskOf t).map fun p => p.2.periodUs).getD 0
/-- The task of a list with the longest period; a tie goes to the lower priority (R107). -/
def State.longest (s : State) (l : List Nat) : Option Nat :=
  l.find? fun a => l.all fun b =>
    b == a || decide (s.periodUs b < s.periodUs a) || (s.periodUs a == s.periodUs b && s.above b a)
/-- Change a loaded container. -/
def Prog.modContainer (p : Prog) (kind part : Byte) (f : Container → Container) : Prog :=
  if kind = 1 then { p with safety := p.safety.map f }
  else if part = 0 then { p with std0 := p.std0.map f } else { p with std1 := p.std1.map f }

/-- A network is configured: generation, schedule (R115). -/
def HlNet.configured (x : HlNet) : Bool := x.gen != 0 && x.sched.isSome
/-- Length of a base tick in µs (R84): the HL1 cycle where HL1 is configured, the internal tick otherwise. -/
def State.tickUs (s : State) : Nat :=
  match s.hl1.configured, s.hl1.sched with
  | true, some c => c.cycleNs / 1000
  | _, _ => s.param 0x0104 0

/-! ## Standby states (R302, R304) -/

/-- The standby's state changes; codes as SYS_DPX_ROLE.STANDBY (code 0x7001). -/
def State.standbyTo (s : State) (st : BitVec 2) (cause : Nat) : State :=
  let before := s.dpx.standby
  let s := if st = 1 then s.modDpx fun d => { d with mirrored := [], stileSent := none } else s
  (s.setRole s.dpx.role st).raise srcSup 0x7001 3
    ([before.setWidth 8, st.setWidth 8, BitVec.ofNat 8 cause, 0] ++ le 8 s.dpx.mseq)
/-- The tasks whose mirrors are acknowledged within their limit throughout a period of the longest-period task, which
therefore stands twice (R302). -/
def State.catchUpList (s : State) : List Nat := s.present ++ (s.longest s.present).toList
/-- IN_SYNC becomes LAGGING (R302): cause 1 a mirror not acknowledged in time, 2 PARTNER_NO_ACK. -/
def State.lag (s : State) (cause : Nat) : State :=
  if s.inSync then
    (s.standbyTo 3 cause).modDpx fun d => { d with lags := satInc d.lags, catchUp := s.catchUpList }
  else s
/-- A mirror missed its limit while the standby catches up: the count begins again. -/
def State.mirrorMissed (s : State) (cause : Nat) : State :=
  if s.inSync then s.lag cause
  else if s.dpx.standby = 3 then s.modDpx fun d => { d with catchUp := s.catchUpList } else s

/-! ## Latch points (R120, R92, R155, R159) -/

/-- The records that task 0 sees from its latch point on: up to 256 over ring pairs 20 to 23, oldest first (R155). -/
def State.triadSeen (s : State) : List (Nat × Word) :=
  let all := [20, 21, 22, 23].flatMap fun r => (s.ring r).undelivered.map fun u => (u.2.1, r)
  let cut (r i at_ : Nat) : Bool :=
    decide (((all.filter fun x => x.1 < at_ || (x.1 == at_ && x.2 < r)).length
      + (((s.ring r).undelivered.take i).filter fun u => u.2.1 == at_).length) < 256)
  [20, 21, 22, 23].map fun r =>
    let n := ((s.ring r).undelivered.zipIdx.takeWhile fun (u, i) => cut r i u.2.1).length
    (r, (s.ring r).cplCons + BitVec.ofNat 32 n)
/-- The producer indices at a latch point (R77). -/
def State.seenAt (s : State) (t : Nat) : List (Nat × Word) :=
  if t = 0 then s.triadSeen else ((List.range 8).map (· + 12)).map fun r => (r, (s.ring r).cplProd)
/-- The captured copy of the handover area behind its 16-byte header (R157). -/
def State.handoverBytes (s : State) : Bytes :=
  leBytes 8 s.cpr.handCopy.1 ++ [s.cpr.handCopy.2.1] ++ List.replicate 7 0 ++ s.cpr.handCopy.2.2.bytes 0 4096
/-- What the Agreement Exchange freezes at a latch point of task 0 (R155). -/
def State.capture (s : State) (v : Word) : Exchange :=
  { tick := s.sys.baseTick, count := s.now, version := v, overruns := (s.task 0).overruns, plant := s.plantNow
    net := s.netNow, commitSeq := s.prog.commitSeq, commitLate := s.prog.commitLate
    handover := s.handoverBytes
    lost := (s.task 0).lost, lostAt := (s.task 0).lostAt }
/-- Events that a latch point raises before it dispatches: overrun, stretch, first cycle after a change (R92). -/
def State.latchEvents (s : State) (t : Nat) : State :=
  let k := s.task t
  let s := if k.skipped ≠ 0 then s.event t 4 0 0 (BitVec.ofNat 32 k.skipped) else s
  let us := k.stretchUs + (if k.heldAt = 0 then 0 else (s.now - k.heldAt) / countsUs)
  let s := if k.stretchUs ≠ 0 ∨ k.heldAt ≠ 0 then s.event t 6 0 0 (BitVec.ofNat 32 us) else s
  if k.changeDue then s.event t 7 0 0 (s.prog.changes.setWidth 32) else s
/-- A latch point that is taken (R120, R122): the version is promoted, events are dispatched, the error task starts when
there are any, the body otherwise (R92). `re` for a cycle that latches at the end of recovery (R183). -/
def State.latch (s : State) (t : Nat) (re : Bool) : State :=
  let s := if t = 0 then s.readmitReady else s
  let (s, v) := s.promote
  let s := s.latchEvents t
  let x := s.capture v
  let err := s.hasErrorTask t && (!(s.task t).events.isEmpty || (s.task t).lost != 0)
  let seen := s.seenAt t
  let exp := s.tri.expLatest.bytes 0 2048
  let s := s.modTask t fun k => { k with
    prev := if k.latched then k.cur else some v, cur := some v, latched := true, running := true, errRuns := err, state := if err then 5 else 2
    latchAt := s.now, latchTick := s.sys.baseTick, skipped := 0, stretchUs := 0, heldAt := 0, held := false
    heldLatch := false, mirrorWait := false, firstAfterChange := k.changeDue, changeDue := false
    dispatched := k.events.length, dispLost := k.lost != 0, doorbells := [], consumers := [], haltAfter := none, seenProd := seen
    expHeld := if t = 0 then [] else exp, reexec := re, rerun := false }
  let s := if t = 0 then 
      ((s.modTri fun r => { r with publishOk := false, xchg := .all x, scrub := r.scrub + 1 }).modLanes
        (fun l => l.state == .inVote) fun l => { l with commit := Config.commitInit s.sys.baseTick }).judgeConns
    else s.restate
  (s.prune).forceProgress fun p => p == (t, false)

/-- The constants of a safety parameter change are written (R244, R247). -/
def State.constantsDone (s : State) : State :=
  if s.saf.applying.isSome then s.writeConsts.changeDone else s

/-! ## Stops (R49) -/

/-- RUN ends (R49): STOP, or SERVICE when a SHUTDOWN stops the module; forces that still wait for a point are in place. -/
def State.finishStop (s : State) : State :=
  match s.sys.stopJob with
  | none => s
  | some j =>
    let s := (s.modSys fun y => { y with stopJob := none, runWait := none }).modAllTasks fun _ k => k.abandon
    let s := (s.forceProgress fun _ => true).prune.constantsDone
    if j.shutdown then
      (s.setMode .service 5 0).modSys fun y => { y with shutJob := y.shutJob.map fun x => { x with entered := s.now } }
    else (s.setMode .stop 0 0).complete j.h stOk (leBytes 8 s.now)
/-- A task's stop publication at its would-be latch point (R49, R122). -/
def State.stopTask (s : State) (t : Nat) : State :=
  let s := (s.publishStop t).modTask t fun k => { k with
    stopped := true, state := 4, held := false, heldLatch := false, cur := none, prev := none }
  if s.present.all fun x => (s.task x).stopped then s.finishStop else s.prune

/-- Tasks that were held go on (R107 phase 5, R183, R315): those whose latch point fell meanwhile latch at once, in
priority order, on one version; in a stop they make their stop publication. -/
def State.resume (s : State) (l : List Nat) (re : Bool) : State :=
  let due := l.filter fun t => (s.task t).heldLatch
  let s := s.modAllTasks fun t k => if l.contains t ∧ !due.contains t then { k with held := false, state := if k.present then 1 else 0 } else k
  let order := (List.range 17).foldl (fun acc _ => acc ++ (s.first (due.filter fun t => !acc.contains t)).toList) []
  order.foldl (fun s t => if s.sys.stopJob.isSome then s.stopTask t else s.latch t re) s

/-- The latch point of a task that may not latch now because something holds it (R107, R183). -/
def State.holdLatch (s : State) (t : Nat) : State :=
  s.modTask t fun k => { k with
    heldLatch := true, heldAt := if k.heldAt = 0 then s.now else k.heldAt, stretched := true }
/-- A latch point that finds the body still running (R89, R90, R183). -/
def State.overrun (s : State) (t : Nat) : State :=
  let k := s.task t
  if t = 0 then (s.modTask 0 fun k => { k with overrun := true, overruns := k.overruns + 1 }).fault 0x05
  else if k.reexec then
    s.modTask t fun k => { k with stretched := true, heldAt := if k.heldAt = 0 then s.now else k.heldAt }
  else if k.haltPolicy then
    (s.modTask t fun k => { k with overrun := true, overruns := k.overruns + 1 }).fault 0x07
  else s.modTask t fun k => { k with overrun := true, overruns := k.overruns + 1, skipped := k.skipped + 1 }
/-- A latch point that waits for the acknowledgement of the mirror before it (R304). -/
def State.mirrorHold (s : State) (t : Nat) : State :=
  (s.modTask t fun k => { k with mirrorWait := true, stretched := true, heldAt := s.now }).modDpx fun d =>
    { d with stretches := satInc d.stretches }

/-! ## Retentive commits (R102) -/

/-- Retained variables of a container with their values, by commit task or all. -/
def Container.retained (c : Container) (task : Option Nat) : List (Word × Word × Bytes) :=
  (c.vars.filter fun v => v.cls != 0 && (task.isNone || task == some v.commitTask)).map fun v => (c.id, v.id, c.val v.id)
/-- One value stands for a variable of a container. -/
def putVal (l : List (Word × Word × Bytes)) (x : Word × Word × Bytes) : List (Word × Word × Bytes) :=
  l.filter (fun y => !(y.1 == x.1 && y.2.1 == x.2.1)) ++ [x]
/-- An empty commit to be filled. -/
def Commit.blank : Commit := ⟨0, [], [], [], false, []⟩
/-- A commit falls due after a publish point; a job of the same task that is not made is merged into it (R102). -/
def State.commitDue (s : State) (t : Nat) : State :=
  let vals := s.prog.loaded.flatMap fun c => c.retained (some t)
  if vals.isEmpty then s else
  let mine (j : CommitJob) : Bool := j.tasks.contains t
  let old := s.prog.due.filter mine ++ (s.prog.writing.toList.filter mine)
  let merged := (old.flatMap fun j => j.commit.vals).foldl putVal []
  let job : CommitJob := ⟨(old.flatMap (·.tasks) ++ [t]).eraseDups, { Commit.blank with vals := vals.foldl putVal merged }⟩
  let s := s.modProg fun p => { p with
    due := p.due.filter (fun j => !mine j) ++ [job]
    writing := if p.writing.any mine then none else p.writing
    commitLate := p.commitLate + BitVec.ofNat 32 old.length }
  if old.isEmpty then s else s.event t 5 0 0 (BitVec.ofNat 32 old.length)
/-- The values a commit carries: the job's, else those of the last commit, else the present ones (R101, R102). -/
def State.commitVals (s : State) (vals : List (Word × Word × Bytes)) : List (Word × Word × Bytes) :=
  let last := (s.prog.lastCommit.map (·.vals)).getD []
  (s.prog.loaded.flatMap fun c => c.retained none).map fun (i, v, b) =>
    let get (l : List (Word × Word × Bytes)) : Option Bytes :=
      (l.find? fun y => y.1 == i && y.2.1 == v).bind fun y => if y.2.2.length = b.length then some y.2.2 else none
    (i, v, (get vals).getD ((get last).getD b))
/-- The bank header is written: the commit is made, in the bank not written last (R102). -/
def State.commitMade (s : State) (vals : List (Word × Word × Bytes)) : State :=
  let c : Commit :=
    { seq := s.prog.commitSeq + 1, layouts := s.prog.loaded.map fun c => (c.id, c.retLayout, c.perLayout)
      digests := s.prog.loaded.map (·.digest), forces := s.prog.forces, inRun := s.sys.mode == .run, vals := vals }
  s.modProg fun p => { p with
    bank0 := if p.last1 then some c else p.bank0, bank1 := if p.last1 then p.bank1 else some c, last1 := !p.last1
    commitSeq := c.seq }
/-- The commits of publish points that are not made yet are made, in their order (R102); one of a PERSISTENT_RESET stays. -/
def State.commitOlder (s : State) : State :=
  let s := match s.prog.writing with
    | some j => if j.tasks.isEmpty then s else (s.commitMade j.commit.vals).modProg fun p => { p with writing := none }
    | none => s
  let s := (s.prog.due.filter fun j => !j.tasks.isEmpty).foldl (fun s j => s.commitMade (s.commitVals j.commit.vals)) s
  s.modProg fun p => { p with due := p.due.filter fun j => j.tasks.isEmpty }
/-- A commit of every retained value as it stands, made behind those before it (R53 step 5, R107 phase 4). -/
def State.commitAll (s : State) : State :=
  let s := s.commitOlder
  s.commitMade (s.prog.loaded.flatMap fun c => c.retained none)

/-! ## Publish points (R26, R88, R128, R149, R157, R179, R303) -/

/-- The publish point holds its task when a drain waits for it; the longest-period task's publish point holds the idle
tasks too (R107 phase 3, R315). -/
def State.drainHold (s : State) (t : Nat) (l : List Nat) (drained : Bool) : State × Bool :=
  let first := !drained && s.longest l == some t
  let hold (s : State) (x : Nat) : State := s.modTask x fun k =>
    if k.running then k else { k with held := true, state := 4, stretched := true }
  if first then (l.foldl hold s, true) else if drained then (hold s t, true) else (s, false)
/-- Standard tasks of the partition of an on-line change. -/
def State.partTasks (s : State) (part : Byte) : List Nat := s.stdPresent.filter fun t => if part = 0 then t ≤ 8 else 9 ≤ t
/-- The drains of an on-line change and of a role swap at a publish point. -/
def State.drains (s : State) (t : Nat) : State :=
  let s := match s.prog.olc with
    | some o =>
      if o.phase = 3 ∧ (s.partTasks o.part).contains t then
        let (s, d) := s.drainHold t (s.partTasks o.part) o.drained
        s.modProg fun p => { p with olc := p.olc.map fun o => { o with drained := d } }
      else s
    | none => s
  if s.dpx.swap.isSome ∧ t ≠ 0 then
    let (s, d) := s.drainHold t s.stdPresent s.dpx.swapDrained
    s.modDpx fun x => { x with swapDrained := d }
  else s
/-- Every re-executed body has published: the pair is CHECKED again, or stays SINGLE, and held tasks go on (R181, R183). -/
def State.recovered (s : State) : State :=
  if s.cpr.recovery = 2 ∧ !(s.stdPresent.any fun t => (s.task t).running && (s.task t).rerun) then
    let before := s.pairCode
    let s := s.modCpr fun p => { p with recovery := 0 }
    let s := if s.pairCode = before then s else s.raisePairState before s.pairCode s.cpr.lastKind 0xFF 4
    s.resume (s.stdPresent.filter fun t => (s.task t).held) true
  else s
/-- The input segments of a version by directory index. -/
def State.versionSegs (s : State) (v : Version) : List (Nat × Bytes × BitVec 16) :=
  ((s.segs.zipIdx.filter fun (x, _) => !x.isOut).zip v.segs).map fun ((_, i), b, q) => (i, b, q)
/-- The stations that a task's container maps. -/
def State.mappedStations (s : State) (t : Nat) : List (Net × Nat) :=
  ((s.taskOf t).toList.flatMap fun p => p.1.maps.filterMap fun m => (srcNetOf m.source).map fun n => (n, m.station)).eraseDups
/-- Journal entries of commands that have taken effect, for the standby (R305). -/
def State.mirrorCommits (s : State) : List JMirror :=
  (s.journal.filter (·.committed)).map fun e => ⟨e.handle, e.status, e.result, e.extended, e.phase == .doneWritten⟩
/-- Segments that differ from the last version mirrored. -/
def State.notMirrored (s : State) (l : List (Nat × Bytes × BitVec 16)) : List (Nat × Bytes × BitVec 16) :=
  l.filter fun (i, b, q) => Tbl.get (fun _ => ([], 0)) s.dpx.mirrored i != (b, q)
/-- Segments taken into the newest mirrored version. -/
def State.noteMirrored (s : State) (l : List (Nat × Bytes × BitVec 16)) : State :=
  s.modDpx fun d => { d with mirrored := l.foldl (fun m (i, b, q) => Tbl.set (fun _ => ([], 0)) m i (b, q)) d.mirrored }
/-- What the cycle mirror of a publish point carries (R303); the size of its lines is not visible here (log entry 19). -/
def State.cycleMirror (s : State) (t : Fin 17) (vars : List (Word × Bytes)) (seq : Quad) (kib : BitVec 16) : CycleMirror :=
  let k := s.task t
  let segs := ((k.cur.bind fun n => s.swd.versions.find? (·.num == n)).map s.versionSegs).getD []
  { task := t, mseq := seq, kib := kib, vnum := k.cur.getD 0, version := s.notMirrored segs
    exportBuf := if t = 0 then s.tri.expLatest.bytes 0 2048 else [], handover := if t = 0 then s.tri.xchg.read.handover else []
    header := s.prog.lastCommit.map fun c => (c.seq, c.inRun)
    forces := s.prog.forces.map fun f => (f.var, f.elem, f.isOut, f.value)
    outputs := s.sentBytes.filter fun x => s.ownsAt t x.1, vars := vars, commits := s.mirrorCommits
    stations := (s.mappedStations t).map fun (n, a) =>
      let x := s.station n a
      (n == .hl2, a, x.state, x.missed, x.fails)
    complete := true }
/-- The cycle mirror of a publish point is sent to a standby that receives mirrors (R303, R304). -/
def State.mirrorOut (s : State) (t : Nat) (vars : List (Word × Bytes)) : State :=
  if s.dpx.role = 1 ∧ s.dpx.standby ≠ 0 then
    let m := s.cycleMirror (Fin.ofNat 17 t) vars (s.dpx.mseq + 1) (Config.freeBits s.free 16)
    ((((s.modDpx fun d => { d with
      mseq := m.mseq, lastKib := m.kib, maxKib := if d.maxKib.toNat < m.kib.toNat then m.kib else d.maxKib }).modTask t fun k =>
        { k with unacked := some m.mseq }).noteMirrored m.version).emit (.mirror m)).bump
  else s
/-- What the body of a task left (R157, R179, R192): its stores, its variables, the handover area. A store of another
task's bytes, or of a handover area that its partition lacks, is refused and recorded. The variables of task 0 stand in
the memories of the lanes that executed it. -/
def State.bodyDone (s : State) (t : Nat) (b : Body) : State :=
  let s := if t = 0 then s else
    (b.writes.filter fun w => !s.ownsAt t w.1).foldl
      (fun s w => s.programRefused t 1 (BitVec.ofNat 64 (writingBase + w.1))) (s.store t b.writes)
  let s := match s.taskOf t with
    | some (c, _) => s.modProg fun p => p.modContainer c.kind c.part fun c => b.vars.foldl (fun c (i, v) => c.setVal i v) c
    | none => s
  if t = 0 then s.storeVars false else
  let bad (w : Nat × Byte) : Bool := decide (4096 ≤ w.1) || (s.cpr.split && decide (9 ≤ t))
  let s := s.modCpr fun p => { p with
    handover := b.handover.foldl (fun m w => if bad w then m else Tbl.set byte0 m w.1 w.2) p.handover }
  let s := (b.handover.filter bad).foldl
    (fun s w => s.programRefused t 1 (BitVec.ofNat 64 (handoverBase + w.1))) s
  s.noteLog b.logKib
/-- A copy made on the TBU count of task 0's latch point is the one that the latch point captures (R157). -/
def State.handOver (s : State) : State :=
  if (s.task 0).running ∧ (s.task 0).latchAt = s.now then
    s.modTri fun r => { r with xchg := .all { r.xchg.read with handover := s.handoverBytes } }
  else s
/-- The publish point of a task (R26, R88, R128). -/
def State.publishPoint (s : State) (t : Nat) (b : Body) : State :=
  let s := s.bodyDone t b
  let s := (if t = 0 then s.formMessages else s).publish t
  let k := s.task t
  let s := if k.firstAfterChange then s.stopUnowned else s
  let s := k.doorbells.foldl (fun s (r, i) => s.cover r i) s
  let s := k.consumers.foldl (fun s (r, v) => s.writeCons r v) s
  let s := if t = 0 then s else (s.modCpr fun p => { p with handCopy := (s.now, BitVec.ofNat 8 t, p.handover) }).handOver
  let ns := Nat.min 0xFFFFFFFF (2 * (s.now - k.latchAt))
  let s := s.modTask t fun k => { k with
    lastNs := BitVec.ofNat 32 ns, maxNs := if k.maxNs.toNat < ns then BitVec.ofNat 32 ns else k.maxNs
    running := false, errRuns := false, rerun := false, state := if s.cpr.recovery = 2 ∧ t ≠ 0 then 4 else 1
    held := s.cpr.recovery == 2 && t != 0, doorbells := [], consumers := [], haltAfter := none }
  let s := (s.restate.commitDue t).mirrorOut t b.vars
  let s := (s.drains t).forceProgress fun p => p == (t, true)
  let s := if t = 0 then s.constantsDone else s
  match k.haltAfter with
  | some c => s.fault c
  | none => if t = 0 then s else s.recovered

end Sys2Proof.Machine
end

