-- ==== Sys2Proof/Machine/Cyclic.lean ====
section
/-! DEFINITION. Base ticks, latch points, publish points, retentive commits, the init-task limit (04_cyclic_execution.md,
05_sward_process_image.md). -/

namespace Sys2Proof.Machine

/-- Lanes that passed their final pass are back in the vote from the next base tick while task 0 does not latch (R160). -/
def State.tickReadmit (s : State) : State :=
  if s.sys.mode = .run ∧ (s.task 0).present then s else s.readmitReady
/-- While task 0 does not run in RUN, the scrub passes count base ticks (R153). -/
def State.tickScrub (s : State) : State :=
  if s.sys.mode = .run ∧ (s.task 0).present then s else s.modTri fun t => { t with scrub := t.scrub + 1 }
/-- The stretch of the base tick that ends (R85): STRETCHED and event 0x0006 for every running program's task, when the
tick has been longer than its length. -/
def State.tickStretch (s : State) : State :=
  let us := (s.now - (s.sys.tickAt + s.tickUs * countsUs)) / countsUs
  if s.sys.stretch && s.sys.mode == .run && decide (s.sys.tickAt + s.tickUs * countsUs < s.now) then
    s.present.foldl (fun s t => s.modTask t fun k => { k with stretched := true, stretchUs := k.stretchUs + us }) s
  else s
/-- The base tick in progress ends now (R84, R85): never shortened; on an integrated HL1 at the start of a cycle, else
when the length of the internal tick has passed. Before the first tick of a power cycle there is none to end. -/
def State.tickEnds (s : State) : Bool :=
  let full := s.sys.tickAt + s.tickUs * countsUs
  if s.hl1.isIntegrated then s.hl1.cycleAt == s.now && (!s.sys.stretch || decide (full ≤ s.now))
  else decide (s.sys.tickAt = 0 ∨ full ≤ s.now)
/-- The latch points of the periods that begin with the base tick in progress (R86). -/
def State.setDue (s : State) : State :=
  s.present.foldl (fun s t =>
    match s.taskOf t with
    | none => s
    | some (_, d) =>
      if s.tickUs ≠ 0 ∧ s.sys.baseTick.toNat % (d.periodUs / s.tickUs) = 0 then
        s.modTask t fun k => { k with due := some (s.now + d.offsetUs * countsUs) }
      else s) s
/-- The service-firmware state that the standby is to hold (R303). -/
def State.stileMirror (s : State) : StileMirror :=
  { routing := [], log := s.stl.log.filterMap fun (i, e) => e.map fun e => (i, e)
    ctxs := s.stl.ctxs.map fun (i, c) => ⟨i, c.fences, c.fenceAll, c.lost, c.lostAt⟩
    posted := (s.stl.reqs.filter (·.op == 3)).map fun r => ⟨r.ctx, r.hl2, r.station, r.tag, r.addr⟩
    grants := (s.hl1.grants.map fun g => (false, g)) ++ s.hl2.grants.map fun g => (true, g) }
/-- It goes to a standby that receives mirrors with the first base tick after its change, within the 10 ms of R303. -/
def State.stileChanged (s : State) : State :=
  if s.dpx.role = 1 ∧ s.dpx.standby ≠ 0 ∧ s.dpx.stileSent ≠ some s.stileMirror then
    (s.modDpx fun d => { d with stileSent := some s.stileMirror }).sendState (.stile s.stileMirror)
  else s
/-- BASE_TICK (R84, R85, R86): numbered by CYCLE on an integrated HL1, by the internal counter otherwise. -/
def effBaseTick (s : State) : State :=
  if s.pwr.on && s.sys.mode != .halt && s.tickEnds then
    let s := s.tickStretch.modSys fun y => { y with
      baseTick := if s.hl1.isIntegrated then s.hl1.cycle else y.baseTick + 1, tickAt := s.now, stretch := false }
    s.setDue.tickReadmit.tickScrub.stileChanged
  else s
/-- BASE_TICK. -/
def execBaseTick (s : State) : Res := .next (effBaseTick s)

/-- The DONE record of MODE_RUN, at the earliest first latch point (R38, R80). -/
def State.firstLatch (s : State) : State :=
  match s.sys.runWait with
  | none => s
  | some h => (s.modSys fun y => { y with runWait := none }).complete h stOk (leBytes 8 s.now)
/-- The latch point of a task falls (R49, R87, R89, R90, R107, R120, R183, R304). -/
def State.latchPoint (s : State) (t : Nat) : State :=
  let k := s.task t
  if k.stopped then s
  else if k.held ∨ (t ≠ 0 ∧ s.cpr.recovery ≠ 0) then
    if s.sys.stopJob.isSome ∧ !k.running then s.stopTask t else s.holdLatch t
  else if k.running then s.overrun t
  else if s.sys.stopJob.isSome then s.stopTask t
  else if k.unacked.isSome ∧ t = 0 then (s.mirrorMissed 1).latch t false
  else if k.unacked.isSome ∧ s.inSync ∧ !k.mirrorWait then s.mirrorHold t
  else if k.mirrorWait then s
  else (if k.unacked.isSome then s.mirrorMissed 1 else s).latch t false
/-- The present task with the shortest period. -/
def State.fastest (s : State) (t : Nat) : Bool := s.present.all fun x => decide (s.periodUs t ≤ s.periodUs x)
/-- The fastest task's first latch point after a takeover ends the takeover gap (R310); the instant of the failure is not
visible to the new active, so its length is a free value (log entry 35). -/
def State.gapEnds (s : State) (t : Nat) : State :=
  if s.dpx.decidedAt.isSome ∧ s.fastest t then
    (s.modDpx fun d => { d with decidedAt := none, gapNs := Config.freeBits s.free 32 }).bump
  else s
/-- A latch point that falls sooner than 5 µs after the takeover decision is not taken (R310). -/
def State.tooSoon (s : State) : Bool :=
  match s.dpx.decidedAt with
  | some d => decide (s.now < d + 5 * countsUs)
  | none => false
/-- The latch point of a task falls now (R86), and the period in progress has no other. -/
def State.latchFalls (s : State) (t : Nat) : State := s.modTask t fun k => { k with due := none }
/-- LATCH_POINT (R86, R120): at the latch offset of the task's period. -/
def effLatchPoint (t : Fin 17) (s : State) : State :=
  if s.sys.mode == .run && s.pwr.on && (s.task t).present && (s.task t).due == some s.now && !s.tooSoon then
    ((s.latchFalls t).gapEnds t).firstLatch.latchPoint t
  else s
/-- LATCH_POINT. -/
def execLatchPoint (t : Fin 17) (s : State) : Res := .next (effLatchPoint t s)

/-- PUBLISH_POINT (R128): the body of a task ends. Task 0 publishes only what the voter released, after its publish
request has been released (R145, R149): of its body's operands only the variables are taken. A pre-empted body ends
only once it runs again (R87). -/
def effPublishPoint (t : Fin 17) (b : Body) (s : State) : State :=
  let k := s.task t
  if s.sys.mode == .run && s.pwr.on && k.present && k.running && !k.held && k.state != 3 && (t != 0 || (s.tri.publishOk && s.voting)) then
    s.publishPoint t b
  else s
/-- PUBLISH_POINT. -/
def execPublishPoint (t : Fin 17) (b : Body) (s : State) : Res := .next (effPublishPoint t b s)

/-- RETENTIVE_COMMIT (R102): the oldest commit due begins once no other is being written; on hold-up at the reserve level
none begins (R363). -/
def effRetentiveCommit (s : State) : State :=
  match s.prog.writing, s.prog.due with
  | none, j :: rest =>
    if s.pwr.on then
      s.modProg fun p => { p with
        due := rest, writing := some ⟨j.tasks, { j.commit with vals := s.commitVals j.commit.vals }⟩ }
    else s
  | _, _ => s
/-- RETENTIVE_COMMIT. -/
def execRetentiveCommit (s : State) : Res := .next (effRetentiveCommit s)
/-- The commit of a PERSISTENT_RESET: in a mode that its Modes column lacks it changes nothing (R69). -/
def State.persistMade (s : State) (j : CommitJob) (h : Quad) (i : Word) : State :=
  let s := s.modProg fun p => { p with writing := none, persistWait := none }
  if !(s.entry h).any s.commitMode then s.fail h stWrongMode
  else
    let s := s.commitMade j.commit.vals
    match s.prog.loaded.find? fun c => c.id == i with
    | none => s.complete h stOk []
    | some c =>
      (s.modProg fun p => p.modContainer c.kind c.part fun c =>
        (c.vars.filter fun v => v.cls == 2).foldl (fun c v => c.setVal v.id (v.initial c.constData)) c).storeVars true |>.complete
          h stOk (leBytes 4 (c.clsLen 2))
/-- COMMIT_MADE (R102): the header is written; a PERSISTENT_RESET that waited for it is done. -/
def effCommitMade (s : State) : State :=
  match s.prog.writing with
  | none => s
  | some j =>
    if !s.pwr.on then s else
    match j.tasks, s.prog.persistWait with
    | [], some (h, i) => s.persistMade j h i
    | _, _ => (s.commitMade j.commit.vals).modProg fun p => { p with writing := none }
/-- COMMIT_MADE. -/
def execCommitMade (s : State) : Res := .next (effCommitMade s)

/-- The limit of an init task in counts (R91). -/
def initLimit : Nat := 5000 * countsMs
/-- INIT_TASK_TIMEOUT (R91): 5 s after it can have begun, a start fails; under MODE_RUN it is HALT with cause 0x0D. -/
def effInitTaskTimeout (s : State) : State :=
  match s.initStart, s.sys.initRun with
  | some r, _ => if r.entered + initLimit ≤ s.now then s.fault 0x0D else s
  | none, some j => if j.since + initLimit ≤ s.now then s.fault 0x0D else s
  | none, none => s
/-- INIT_TASK_TIMEOUT. -/
def execInitTaskTimeout (s : State) : Res := .next (effInitTaskTimeout s)

end Sys2Proof.Machine
end

