-- ==== Sys2Proof/Machine/Pair.lean ====
section
/-! DEFINITION. The commands of the Control Pair (07_control_pair.md, R427). -/

namespace Sys2Proof.Machine

/-- LOCKSTEP_MISMATCH (R181). -/
def effLockstepMismatch (k : PairKind) (logKib : Nat) (s : State) : State := s.pairMismatch k logKib
/-- LOCKSTEP_MISMATCH. -/
def execLockstepMismatch (k : PairKind) (logKib : Nat) (s : State) : Res := .next (effLockstepMismatch k logKib s)

/-- An uncorrectable error that names no lane (R177): HALT; in SINGLE as R181 states. -/
def State.pairUncorrectable (s : State) : State :=
  if !s.domOn 2 then s else if s.pairMode = 2 then s.pairLost 0 else s.fault 0x06
/-- Corrections of the L2 or of the DRAM program area. -/
def State.countL2 (s : State) (dram : Bool) (n : Nat) : State :=
  if !s.domOn 2 then s else
  s.modCpr fun p =>
    if dram then { p with dramCorrected := satAdd p.dramCorrected n } else { p with l2Corrected := satAdd p.l2Corrected n }
/-- CACHE_ECC_ERROR (R177, R187): refetched, corrected and counted, a mismatch of its lane, or HALT. -/
def effCacheEccError (e : CacheEvent) (s : State) : State :=
  match e with
  | .l1iParity _ => s
  | .l1dCorrected lane =>
    if !s.domOn 2 then s else
    s.modCpr fun p =>
      if lane = 0 then { p with corrected0 := satInc p.corrected0 } else { p with corrected1 := satInc p.corrected1 }
  | .l2Corrected => s.countL2 false 1
  | .dramCorrected => s.countL2 true 1
  | .l1dUncorrectable _ logKib => s.pairMismatch .l1Uncorrectable logKib
  | .l2CleanUncorrectable => s
  | .l2DirtyUncorrectable => s.pairUncorrectable
  | .dramUncorrectable => s.pairUncorrectable
/-- CACHE_ECC_ERROR. -/
def execCacheEccError (e : CacheEvent) (s : State) : Res := .next (effCacheEccError e s)
/-- DRAM_PATROL_SCRUB (R427): a pass ends every 8 h; corrections are counted, an uncorrectable error is handled as R177
states. -/
def effDramPatrolScrub (corrected : Nat) (uncorrectable : Bool) (s : State) : State :=
  if s.cpr.patrolAt + 8 * msHour * countsMs ≤ s.now then
    let s := (s.modCpr fun p => { p with patrolAt := s.now }).countL2 true corrected
    if uncorrectable then s.pairUncorrectable else s
  else s
/-- DRAM_PATROL_SCRUB. -/
def execDramPatrolScrub (corrected : Nat) (uncorrectable : Bool) (s : State) : Res :=
  .next (effDramPatrolScrub corrected uncorrectable s)

/-- PAIR_SELF_TEST_COMPLETE (R181, R182), 5 ms after the mismatch: both lanes pass, one fails, or both. -/
def effPairSelfTestComplete (pass : BitVec 2) (s : State) : State :=
  if s.domOn 2 && s.cpr.recovery == 1 && decide (s.cpr.since + 5 * countsMs ≤ s.now) then
    let k := s.cpr.lastKind
    if pass = 0 then s.pairLost k
    else
      let s := s.modCpr fun p => { p with recovery := 2, reexecs := satInc p.reexecs }
      if pass = 3 then s.raisePairState 1 2 k 0xFF 4
      else
        let l : Nat := if pass = 1 then 1 else 0
        (s.pairExclude l).raisePairState 1 3 k (BitVec.ofNat 8 l) 4
  else s
/-- PAIR_SELF_TEST_COMPLETE. -/
def execPairSelfTestComplete (pass : BitVec 2) (s : State) : Res := .next (effPairSelfTestComplete pass s)
/-- CHECKPOINT_RESTORE (R179, R181): the open bodies are re-executed; with none open recovery has ended. -/
def effCheckpointRestore (s : State) : State :=
  if s.domOn 2 && s.cpr.recovery == 2 && s.open.all (fun t => (s.task t).held) then s.restore.recovered else s
/-- CHECKPOINT_RESTORE. -/
def execCheckpointRestore (s : State) : Res := .next (effCheckpointRestore s)

/-- PROGRAM_ACCESS_REFUSED (R192): an access that the address map does not allow is recorded; HALT after the task's publish
point. -/
def effProgramAccessRefused (t : Fin 17) (access : Byte) (addr : Quad) (s : State) : State :=
  if s.domOn 2 && decide (1 ≤ t.val) && (s.task t).running && !s.mapAllows t access addr then
    s.programRefused t access addr
  else s
/-- PROGRAM_ACCESS_REFUSED. -/
def execProgramAccessRefused (t : Fin 17) (access : Byte) (addr : Quad) (s : State) : Res :=
  .next (effProgramAccessRefused t access addr s)

end Sys2Proof.Machine
end

