-- ==== Sys2Proof/Machine/BistOps.lean ====
section
/-! DEFINITION. What a run of the built-in self-test stores (19_self_test.md). -/

namespace Sys2Proof.Machine

/-- Spare rows of an array (R420). -/
def spareRows (arr : BitVec 6) : Nat :=
  let a := arr.toNat
  if a ≤ 5 then 32 else if a ≤ 9 then 8 else if a = 0x0A then 32 else if a ≤ 0x0C then 8
  else if 0x10 ≤ a ∧ a ≤ 0x1F then 16 else 0
/-- The condition of R422 that fails now: 0 none, 1 core voltage, 2 PLL, 3 temperature. -/
def Pwr.bistCause (p : Pwr) : BitVec 2 :=
  if ¬ (776 ≤ p.coreMv.toNat ∧ p.coreMv.toNat ≤ 824) then 1
  else if !p.pllLocked then 2
  else if ¬ (-640 ≤ p.temp.toInt ∧ p.temp.toInt ≤ 2000) then 3 else 0

/-- Repair during a run (R420, R423): the map, entries added, bits left unrepaired, each bit with its fate. -/
structure Repair where
  map : List (BitVec 6 × BitVec 20)
  added : Nat
  left : Nat
  bits : List (FailBit × Bool)
  deriving DecidableEq, Repr
/-- One failing bit: repaired when its row was mapped in this run, or a spare row of its array is free and good. -/
def Repair.bit (old : List (BitVec 6 × BitVec 20)) (r : Repair) (b : FailBit) : Repair :=
  let row := (b.arr, Config.rowOf b.arr b.addr)
  let mine := r.map.drop old.length
  if mine.contains row then { r with bits := r.bits ++ [(b, true)] }
  else if (r.map.filter fun x => x.1 == b.arr).length < spareRows b.arr ∧ b.spareGood then
    { r with map := r.map ++ [row], added := r.added + 1, bits := r.bits ++ [(b, true)] }
  else { r with left := r.left + 1, bits := r.bits ++ [(b, false)] }
/-- All failing bits of a run. -/
def repairs (old : List (BitVec 6 × BitVec 20)) (bs : List FailBit) : Repair :=
  bs.foldl (Repair.bit old) ⟨old, 0, 0, []⟩

/-- A skipped or aborted run (R422). -/
def State.bistSkip (s : State) (occ : Nat) (cause : BitVec 2) : State :=
  (s.modBst fun b => { b with
    skipped := true, skipCause := cause, lastKind := BitVec.ofNat 2 occ, running := 0, job := none }).raise srcBist 0x7030 3
    ([cause.setWidth 8, BitVec.ofNat 8 occ] ++ le 2 s.pwr.coreMv ++ le 2 s.pwr.temp)
/-- A run that stays within the limits stores its results (R423); a complete one restarts the hours (R426). -/
def State.bistStore (s : State) (occ : Nat) (o : BistOutcome) (logic mem : Bool) : State :=
  let mask : BitVec 16 := if logic then (if occ = 3 then o.failMask &&& 0xDFFF else o.failMask) else 0
  let r := repairs s.bst.repairs (if mem then o.failing else [])
  let pass := mask == 0 && r.left == 0
  (s.modBst fun b => { b with
    running := 0, job := none, skipped := false, skipCause := 0, lastKind := BitVec.ofNat 2 occ, failed := !pass
    failMask := mask, unrepaired := satAdd 0 r.left, repairs := r.map, fails := r.bits.take 16
    ranAt := if logic && mem then s.opMs else b.ranAt, due := b.due && !(logic && mem) }).raise srcBist 0x7031
    (if pass then 2 else 4)
    ([BitVec.ofNat 8 occ, 0] ++ le 2 mask ++ leBytes 2 (Nat.min 0xFFFF r.left) ++ leBytes 2 r.added)
/-- A run (R419 to R423) on an occasion: 1 start, 2 shutdown, 3 on demand. -/
def State.bist (s : State) (occ : Nat) (o : BistOutcome) (logic mem : Bool) : State :=
  let c := s.pwr.bistCause
  if c ≠ 0 then s.bistSkip occ c else if o.skip ≠ 0 then s.bistSkip occ o.skip else s.bistStore occ o logic mem
/-- RESULT bytes 0 to 7 of SHUTDOWN and BIST_RUN (R80); of a skipped run they are open (log entry 16). -/
def State.bistResult (s : State) : Bytes :=
  if s.bst.skipped then (List.range 8).map fun j => Config.freeBits (s.free + j) 8
  else leBytes 4 s.bst.failMask.toNat ++ leBytes 4 s.bst.unrepaired.toNat

/-- The shutdown-BIST record of the run just made (R423, R53 step 8). -/
def State.writeRecord (s : State) (added : Nat) : State :=
  s.modBst fun b => { b with
    record := some ⟨true, s.hyk.powerCycles, !b.skipped, b.failMask, b.unrepaired.toNat, added, s.opMs⟩ }
/-- The record is valid at a start (R54). -/
def State.recordGood (s : State) : Bool :=
  match s.bst.record with
  | none => false
  | some r => r.good && r.inLimits && r.cycles + 1 == s.hyk.powerCycles
/-- Step 1 of R42: the record is used, or the start BIST runs; `true` when the start fails (R54, R423). -/
def State.startBist (s : State) (o : BistOutcome) : State × Bool :=
  let s := s.modBst fun b => { b with failed := false }
  if s.recordGood then
    (s.modBst fun b => { b with recordValid := true },
      match s.bst.record with
      | some r => r.failMask != 0 || r.unrepaired != 0
      | none => false)
  else
    let t := (s.modBst fun b => { b with recordValid := false }).bist 1 o true true
    (t, t.bst.failed)

/-- BST_HOURS (R426). -/
def State.bistHours (s : State) : Nat := (s.opMs - s.bst.ranAt) / msHour
/-- BIST_DUE (R426): at 720 h, and every 24 h further. -/
def effBistDue (s : State) : State :=
  if s.pwr.on && decide (720 ≤ s.bistHours) && (!s.bst.due || decide (s.bst.dueAt + 24 * msHour ≤ s.opMs)) then
    let t := (s.modBst fun b => { b with due := true, dueAt := s.opMs }).raise srcBist 0x7032 3 (leBytes 4 (Nat.min 0xFFFF s.bistHours))
    t.iff (!s.bst.due) fun t => t.setEvent 4
  else s
/-- BIST_DUE. -/
def execBistDue (s : State) : Res := .next (effBistDue s)

end Sys2Proof.Machine
end

