-- ==== Sys2Proof/Machine/SafetyCmds.lean ====
section
/-! DEFINITION. The safety parameter set: password, change, change log (R242 to R249). -/

namespace Sys2Proof.Machine

/-! ## The change log (R249) -/

/-- One entry of the change log: change number, part, payload; its severity is not stated, a free one (log entry 17). -/
def State.logPart (s : State) (code : BitVec 16) (part : Nat) (payload : Bytes) : State :=
  (s.raise srcSup code (freeSev s.free) (le 3 s.saf.changeNo ++ [BitVec.ofNat 8 part] ++ padTo 8 payload)).bump
/-- The next change number. -/
def State.nextChange (s : State) : State := s.modSaf fun x => { x with changeNo := x.changeNo + 1 }
/-- The user parts. -/
def State.logUser (s : State) (user : Bytes) : State :=
  (s.logPart 0x5002 0 (sub user 0 8)).logPart 0x5002 1 (sub user 8 4)
/-- Low 32 bits of the plant-time seconds. -/
def State.plantSec (s : State) : Nat := ((s.plantNow / 1000000000) % 4294967296).toNat
/-- A failed password check is recorded. -/
def State.logFailed (s : State) (n : Nat) (locks : Bool) (user : Bytes) : State :=
  let s := s.nextChange
  (s.logPart 0x5004 0 ([BitVec.ofNat 8 n, if locks then 1 else 0, 0, 0] ++ leBytes 4 s.plantSec)).logUser user
/-- A committed change is recorded: eleven entries; the sequence of the head. -/
def State.logChange (s : State) (items : Nat) (kind : Byte) (user : Bytes) (old new : BitVec 256) : State × Word :=
  let s := s.nextChange
  let s := s.logPart 0x5001 0 (leBytes 2 items ++ [kind, (modeCode s.sys.mode).setWidth 8] ++ leBytes 4 s.plantSec)
  let q := s.hyk.safSeq
  let s := s.logUser user
  ((List.range 8).foldl (fun s p =>
    s.logPart 0x5003 p (sub (le 32 (if p < 4 then old else new)) (8 * (p % 4)) 8)) s, q)
/-- A safety container load is recorded: five entries (R248). -/
def State.logContainer (s : State) (c : Container) : State :=
  let s := s.nextChange
  let s := s.logPart 0x5005 0 (le 4 c.id ++ le 4 c.build)
  [0, 1, 2, 3].foldl (fun s p => s.logPart 0x5005 (p + 1) (sub (le 32 c.digest) (8 * p) 8)) s

/-! ## The password (R245) -/

/-- The stored hash of a password under a salt. -/
def passHash (salt : BitVec 128) (pw : Bytes) : BitVec 256 :=
  BitVec.ofNat 256 (leNat (padTo 32 (Config.shake256 (le 16 salt ++ pw) 32)))
/-- The presented password is accepted; without a password, only the length 0. -/
def Saf.passOk (x : Saf) (len : Nat) (pw : Bytes) : Bool :=
  match x.password with
  | none => len == 0
  | some (salt, hash) => decide (len ≤ 32) && passHash salt (pw.take len) == hash
/-- A failed check: counted, the fifth begins the lockout of 15 min, recorded. -/
def State.passFailed (s : State) (h : Quad) (user : Bytes) : State :=
  let n := Nat.min 5 (s.saf.fails + 1)
  let locks := n == 5 && s.saf.lockout.isNone
  let s := s.modSaf fun x => { x with fails := n, lockout := if locks then some s.opMs else x.lockout }
  (s.logFailed n locks user).fail h stAuthFailed

/-! ## The change (R246, R247) -/

/-- The items of a change set. -/
def changeItems (b : Bytes) : List Bytes := entries 16 (sub b 80 (16 * leAt b 34 2))
def itemId (e : Bytes) : Nat := leAt e 0 2
def itemIx (e : Bytes) : Nat := leAt e 2 2
def itemVal (e : Bytes) : Nat := leAt e 8 8
/-- The new password that the items carry: none carried, a faulty one, or its bytes (R242, item 0x0008). -/
def newPassword (es : List Bytes) : Option (Option Bytes) :=
  let p := es.filter fun e => itemId e = 8
  if p.isEmpty then none else
  match p.find? fun e => itemIx e = 4 with
  | none => some none
  | some l =>
    let n := itemVal l
    some (some (((List.range 4).flatMap fun k =>
      leBytes 8 (((p.find? fun e => itemIx e == k).map itemVal).getD 0)).take n))
/-- The form of a change set: KIND, number of items, length (log entry 23), known items once each, the password. -/
def changeForm (b : Bytes) : Bool :=
  let es := changeItems b
  decide ((byteAt b 32).toNat ≤ 1 ∧ 1 ≤ leAt b 34 2 ∧ leAt b 34 2 ≤ 4096 ∧ 80 + 16 * leAt b 34 2 ≤ b.length) &&
  es.all (fun e => leAt e 4 4 == 0 && safKnown (itemId e) (itemIx e) (itemVal e)) &&
  decide (es.map fun e => (itemId e, itemIx e)).Nodup && newPassword es != some none
/-- The set after a change. -/
def changedSet (old : Tbl (Option Quad)) (full : Bool) (es : List Bytes) : Tbl (Option Quad) :=
  (es.filter fun e => itemId e ≠ 8).foldl
    (fun t e => Tbl.set (fun _ => none) t (itemId e * 65536 + itemIx e) (some (BitVec.ofNat 64 (itemVal e))))
    (if full then [] else old)
/-- The first check after the password that a change set fails (R246 steps 2 to 5): a status with its detail. -/
def State.changeRefusal (s : State) (b : Bytes) : Option (BitVec 16 × Nat) :=
  let es := changeItems b
  let full := byteAt b 32 == 1
  let new := changedSet s.saf.items full es
  if s.sys.mode = .run ∧ (full ∨ es.any fun e => safStructural (itemId e)) then some (stRefused, 0x71)
  else if s.sys.mode = .service ∧ s.sys.substate ≠ 3 then some (stWrongMode, 0)
  else if sub b 0 32 ≠ le 32 (setDigest s.saf.items) then some (stRefused, 0x72)
  else if !changeForm b then some (stRefused, 0x73)
  else if !(safSetOk new s.cfg.cur s.prog.loaded) || (s.saf.password.isNone && !(full && (newPassword es).isSome)) then
    some (stRefused, 0x74)
  else if s.dpx.role = 1 ∧ s.dpx.standby ≠ 2 then some (stRefused, 0x75)
  else none
/-- The commit (R246 step 6) and the application (R247): discrepancy times at the next channel tick, the cells' part with
their configuration blocks, the constants in the gap after the next publish point of task 0, at once where task 0 does not run. The salt is drawn from entropy: a free
value. -/
def State.changeCommit (s : State) (h : Quad) (b : Bytes) : State :=
  let es := changeItems b
  let full := byteAt b 32 == 1
  let old := setDigest s.saf.items
  let salt := Config.freeBits s.free 128
  let s := (s.modSaf fun x => { x with
    items := changedSet x.items full es
    password := match newPassword es with
      | some (some p) => some (salt, passHash salt p)
      | _ => x.password }).bump
  let new := setDigest s.saf.items
  let (s, q) := s.logChange (leAt b 34 2) (byteAt b 32) (sub b 36 12) old new
  let s := (s.executing h).applyChannels.modSaf fun x => { x with applying := some (h, padTo 48 (le 32 new ++ le 4 q), s.now) }
  if s.sys.mode = .run ∧ (s.task 0).present then s else s.constantsDone
/-- SAFETY_PARAM_CHANGE (R246): the new set goes to an IN_SYNC standby, whose acknowledgement the commit waits for. -/
def effSafetyParamChange (h : Quad) (b : SentBuf) (s : State) : State :=
  s.begin h 0x2030 false fun e =>
    match s.input e.ring (sub e.args 0 16) b.buf with
    | none => s.fail h stBufferFault
    | some x =>
      if s.saf.lockout.isSome ∨ ¬ s.saf.passOk (byteAt x 33).toNat (sub x 48 32) then s.passFailed h (sub x 36 12)
      else
        let s := s.modSaf fun y => { y with fails := 0 }
        match s.changeRefusal x with
        | some (st, d) => s.fail h st d
        | none =>
          let s := s.sendItem 2 x
          if s.inSync ∧ !b.standbyOk then s else s.changeCommit h x
/-- SAFETY_PARAM_CHANGE. -/
def execSafetyParamChange (h : Quad) (b : SentBuf) (s : State) : Res :=
  .next (effSafetyParamChange h b s)
/-- PASSWORD_LOCKOUT_END (R245): 15 min of operating time after the lockout began. -/
def effPasswordLockoutEnd (s : State) : State :=
  match s.saf.lockout with
  | none => s
  | some t =>
    if s.pwr.on ∧ t + 900000 ≤ s.opMs then s.modSaf fun x => { x with lockout := none, fails := 0 } else s
/-- PASSWORD_LOCKOUT_END. -/
def execPasswordLockoutEnd (s : State) : Res := .next (effPasswordLockoutEnd s)

end Sys2Proof.Machine
end

