-- ==== Sys2Proof/Machine/Program.lean ====
section
/-! DEFINITION. Loading containers, the on-line change, forces, the reset of persistent data (R93 to R113, R248, R466). -/

namespace Sys2Proof.Machine

/-! ## Verification (R94, R95, R401) -/

/-- The integrator's public key and key identifier of the safety parameter set (item 0x0007). -/
def integratorKey (t : Tbl (Option Quad)) : Option (Bytes × Quad) :=
  match (List.range 8).mapM fun i => safRaw t 7 i, safRaw t 7 8 with
  | some ks, some i => some (ks.flatMap fun k => le 8 k, i)
  | _, _ => none
/-- Steps 1 and 3 of R401: the toolchain's signature, and the integrator's where a safety container must carry it. -/
def signaturesOk (t : Tbl (Option Quad)) (b : Bytes) (c : Container) : Bool :=
  let len := leAt b 60 4
  (match sigBlock b len with
    | some g => g.kind == 0 && Config.slhVerify 0 (le 8 g.key) c.digest g.sig
    | none => false) &&
  (c.kind == 0 || safItem t 6 0 == 0 ||
    match sigBlock b (len + sigBlockLen), integratorKey t with
    | some g, some (key, i) => g.kind == 1 && g.key == i && Config.slhVerify 1 key c.digest g.sig
    | _, _ => false)
/-- A container that keeps the layout of R94 and the signatures of R401. -/
def verified (t : Tbl (Option Quad)) (b : Bytes) : Option Container :=
  (parseContainer b).bind fun c => if signaturesOk t b c then some c else none
/-- Bytes of the variables in the EXPORT section (R158). -/
def Container.exportLen (c : Container) : Nat := (c.expIds.map fun i => ((c.var i).map fun v => v.count * v.size).getD 0).sum
/-- The limits of a safety container, in the order of R248. -/
def Container.safetyRefusal (c : Container) (digest : BitVec 256) : Option Nat :=
  if c.kind ≠ 1 then none
  else if c.paramDigest ≠ digest then some 0x1A
  else if c.codeLen + c.constData.length > 896 * 1024 then some 0x11
  else if c.dataLen > 896 * 1024 then some 0x12
  else if (c.tasks.map (·.stack)).sum > 96 * 1024 then some 0x62
  else if c.exportLen > 2048 then some 0x61
  else none
/-- The limit or rule that a container breaks when it is loaded as kind and partition, beside the other containers (R96,
R124, R141, R158, R248). -/
def State.loadRefusal (s : State) (c : Container) (kind part : Byte) (others : List Container) : Option Nat :=
  let d := structDigest s.saf.items
  match c.safetyRefusal d with
  | some x => some x
  | none =>
    match c.refusal (if c.part = 0xFF then part else c.part).toNat others s.segs d with
    | some x => some x
    | none =>
      if c.kind ≠ kind ∨ (c.kind = 0 ∧ c.part ≠ part ∧ c.part ≠ 0xFF) ∨ (c.kind = 1 ∧ part ≠ 0) then some 0x1C
      else if !bufferRule s.segs (counted s.cpr.split ({ c with part := part } :: others)) then some 0x51
      else none

/-! ## Containers in place -/

/-- The container loaded as a kind and partition. -/
def Prog.slot (p : Prog) (kind part : Byte) : Option Container :=
  if kind = 1 then p.safety else if part = 0 then p.std0 else p.std1
/-- Put a container into its place. -/
def Prog.putSlot (p : Prog) (c : Container) : Prog :=
  if c.kind = 1 then { p with safety := some c } else if c.part = 0 then { p with std0 := some c } else { p with std1 := some c }
/-- The containers beside the one of a kind and partition. -/
def Prog.besides (p : Prog) (kind part : Byte) : List Container :=
  p.loaded.filter fun c => !(c.kind == kind && (kind == 1 || c.part == part))
/-- The container's bytes in the NOR flash (R402). -/
def Prog.store (p : Prog) (kind part : Byte) (b : Bytes) : Prog :=
  { p with flash := p.flash.filter (fun x => !(x.1 == kind && x.2.1 == part)) ++ [(kind, part, b)] }

/-- The variables of a loaded container (R101): retained ones of the same identity carried where R111 converts them, every
other at its initial value; the lossy ones. -/
def carryLoad (new old : Container) : Container × List (Word × Nat) :=
  let one (v : VarDecl) : Word × Bytes × Nat :=
    let ini := v.initial new.constData
    match old.var v.id with
    | none => (v.id, ini, 0)
    | some o =>
      if v.cls = 0 ∨ v.reinit then (v.id, ini, 0)
      else match carryVar v ini o (old.val v.id) with
        | none => (v.id, ini, 0)
        | some (b, n) => (v.id, b, n)
  let l := new.vars.map one
  ({ new with vals := l.map fun (i, b, _) => (i, b) }, (l.filter fun (_, _, n) => n != 0).map fun (i, _, n) => (i, n))
/-- Values converted with loss are recorded (code 0x3002). -/
def State.recordLossy (s : State) (l : List (Word × Nat)) : State :=
  l.foldl (fun s (i, n) => s.raise srcPair 0x3002 2 (le 4 i ++ leBytes 4 n ++ le 4 (s.prog.changes.setWidth 32))) s

/-! ## Forces across a change (R112, R113) -/

/-- What becomes of the forces: those of other containers and the carried ones; how many are carried; the dropped ones. -/
structure ForceFate where
  kept : List Force
  carried : Nat
  dropped : List Force
  deriving DecidableEq, Repr
/-- The fate of the forces when `new` replaces `old`; a new identity drops them all. -/
def forceFate (fs : List Force) (new old : Container) : ForceFate :=
  let mine (f : Force) : Bool := (old.var f.var).isSome
  let moved (f : Force) : Option Force := if new.id = old.id then f.carry new old else none
  { kept := fs.filterMap fun f => if mine f then moved f else some f
    carried := ((fs.filter mine).filter fun f => (moved f).isSome).length
    dropped := (fs.filter mine).filter fun f => (moved f).isNone }
/-- The list of dropped forces, as many whole entries as the buffer holds. -/
def droppedBytes (fs : List Force) (len : Nat) : Bytes := (fs.take (len / 8)).flatMap fun f => le 4 f.var ++ le 4 f.elem
/-- Dropped forces leave the table; listed in the output buffer and recorded (code 0x3003). -/
def State.dropForces (s : State) (ring : Nat) (desc : Bytes) (x : ForceFate) (cause : Byte) : State :=
  let s := s.modProg fun p => { p with forces := x.kept }
  let s := if x.dropped.isEmpty then s else s.output ring desc (droppedBytes x.dropped (descLen desc))
  x.dropped.foldl (fun s f => s.raise srcSward 0x3003 3 (le 4 f.var ++ le 4 f.elem ++ [cause])) s

/-! ## CONTAINER_LOAD (R96, R101, R113, R248) -/

/-- The container takes effect: variables, forces, flash, tasks, stop values; a safety container's lanes, HOLD and log. -/
def State.installContainer (s : State) (c : Container) (b : Bytes) (old : Option Container) : State :=
  let (c, lossy) := match old with
    | some o => if o.id = c.id then carryLoad c o else (c, [])
    | none => (c, [])
  let s := s.modProg fun p => (p.putSlot { c with fresh := true }).store c.kind c.part b
  let s := s.modSys fun y => { y with verifyFailed := y.verifyFailed.filter (· != (c.kind, c.part)) }
  let s := ((s.recordLossy lossy).setTasks).publishStops
  if c.kind = 1 then s.loadLanes.holdAll.logContainer c else s
/-- CONTAINER_LOAD and PROG_LOAD on their entry. The container is transferred to an IN_SYNC standby and verified there
before the commit (R248, R303); while the standby has not verified it, the command goes no further. -/
def State.doLoad (s : State) (e : JEntry) (b : SentBuf) (kind part : Byte) (outOk lanesAgree : Bool) : State :=
  let h := e.handle
  let desc := if e.v1 then List.replicate 16 0 else sub e.args 24 16
  match s.input e.ring (sub e.args 0 16) b.buf with
  | none => s.fail h stBufferFault
  | some x =>
    match verified s.saf.items x with
    | none => s.fail h stVerifyFailed
    | some c0 =>
      let others := s.prog.besides c0.kind part
      let c : Container := { c0.rebase part.toNat with part := if c0.kind = 1 then 0 else part }
      match s.loadRefusal { c with part := c0.part } kind part others with
      | some d => s.refuseLoad h d
      | none =>
        if c.kind = 1 ∧ s.dpx.role = 1 ∧ (s.dpx.standby = 1 ∨ s.dpx.standby = 3) then s.refuse h 0x75
        else if s.inSync ∧ !b.standbyOk then s.sendItem 0 x
        else if c.kind = 1 ∧ !lanesAgree then (s.sendItem 0 x).fail h stHwFault
        else
          let s := s.sendItem 0 x
          let old := s.prog.slot c.kind part
          let fate : ForceFate := match old with
            | some o => if c.kind = 0 then forceFate s.prog.forces c o else ⟨s.prog.forces, 0, []⟩
            | none => ⟨s.prog.forces, 0, []⟩
          match fate.dropped with
          | f :: _ =>
            if !e.dropForces then s.complete h stForcedVariable (le 4 f.var)
            else if !s.outReach e.ring desc outOk then s.fail h stBufferFault
            else
              ((s.installContainer c x old).dropForces e.ring desc fate 2).complete h stOk
                (le 32 c.digest ++ le 4 c.id ++ leBytes 2 fate.carried ++ leBytes 2 fate.dropped.length) true
          | [] =>
            ((s.installContainer c x old).dropForces e.ring desc fate 2).complete h stOk
              (le 32 c.digest ++ le 4 c.id ++ leBytes 2 fate.carried ++ leBytes 2 0)
/-- CONTAINER_LOAD. -/
def effContainerLoad (h : Quad) (b : SentBuf) (outOk lanesAgree : Bool) (s : State) : State :=
  s.begin h 0x2020 false fun e => s.doLoad e b (byteAt e.args 16) (byteAt e.args 17) outOk lanesAgree
/-- CONTAINER_LOAD. -/
def execContainerLoad (h : Quad) (b : SentBuf) (outOk lanesAgree : Bool) (s : State) : Res :=
  .next (effContainerLoad h b outOk lanesAgree s)
/-- PROG_LOAD (R82): a standard container in partition 0. -/
def effProgLoad (h : Quad) (b : SentBuf) (outOk : Bool) (s : State) : State :=
  s.begin h 0x2020 true fun e => s.doLoad e b 0 0 outOk true
/-- PROG_LOAD. -/
def execProgLoad (h : Quad) (b : SentBuf) (outOk : Bool) (s : State) : Res := .next (effProgLoad h b outOk s)

/-! ## ONLINE_CHANGE (R107 to R112) -/

/-- The partition that a build changes: one that holds a container of its identity and that its PARTITION admits. -/
def State.targetPart (s : State) (c : Container) : Option Byte :=
  ([0, 1] : List Byte).find? fun p => (c.part == p || c.part == 0xFF) && (s.prog.slot 0 p).any fun o => o.id == c.id
/-- Bytes of a container in the DRAM program area. -/
def Container.dramLen (c : Container) : Nat := c.codeLen + c.constData.length + c.dataLen
/-- The first case of R108 that refuses a change at its load. -/
def State.changeRefused (s : State) (c old : Container) (part : Byte) : Option Nat :=
  if c.digest = old.digest then some 0x43
  else if carriedBytes c old > 64 * 2 ^ 20 then some 0x44
  else if (carry c old fun _ => true).isNone then some 0x45
  else if (c.refusal part.toNat (s.prog.besides 0 part) s.segs (structDigest s.saf.items)).isSome then some 0x46
  else if c.dramLen + (s.prog.standard.map Container.dramLen).sum > 3 * 2 ^ 30 then some 0x47
  else if s.dpx.role = 1 ∧ (s.dpx.standby = 1 ∨ s.dpx.standby = 3) then some 0x49
  else if !bufferRule s.segs (counted s.cpr.split (c :: s.prog.besides 0 part)) then some 0x51
  else none
/-- Phase 1 ends: the new build has been transferred to an IN_SYNC standby and verified there, or the command goes no
further yet; then the change stands in phase 2. -/
def State.startChange (s : State) (e : JEntry) (c old : Container) (p : Byte) (x : Bytes) (partnerOk : Bool) : State :=
  if s.inSync ∧ !partnerOk then s.sendItem 0 x else
  ((s.sendItem 0 x).executing e.handle).modProg fun g => { g with
    passes := 0, olcPart := p == 1
    olc := some { h := e.handle, phase := 2, drained := false, switchAt := 0, part := p, next := c, image := x
                  dropForces := e.dropForces, desc := sub e.args 16 16, carriedKib := (carriedBytes c old + 1023) / 1024 } }
/-- ONLINE_CHANGE, phase 1: verified, checked, placed beside the old build; the pre-copy begins. -/
def effOnlineChange (h : Quad) (b : SentBuf) (s : State) : State :=
  s.begin h 0x2021 false fun e =>
    match s.input e.ring (sub e.args 0 16) b.buf with
    | none => s.fail h stBufferFault
    | some x =>
      match verified s.saf.items x with
      | none => s.fail h stVerifyFailed
      | some c0 =>
        if c0.kind = 1 then s.refuse h 0x41
        else
          match s.targetPart c0 with
          | none => s.refuse h 0x42
          | some p =>
            match s.prog.slot 0 p with
            | none => s.refuse h 0x42
            | some old =>
              let c : Container := { c0.rebase p.toNat with part := p, fresh := false }
              match s.changeRefused c old p, (forceFate s.prog.forces c old).dropped with
              | some d, _ => s.refuseLoad h d
              | none, f :: _ =>
                if e.dropForces then s.startChange e c old p x b.standbyOk else s.complete h stForcedVariable (le 4 f.var)
              | none, [] => s.startChange e c old p x b.standbyOk
/-- ONLINE_CHANGE. -/
def execOnlineChange (h : Quad) (b : SentBuf) (s : State) : Res := .next (effOnlineChange h b s)

/-- Change the change in progress. -/
def State.modOlc (s : State) (f : Olc → Olc) : State := s.modProg fun p => { p with olc := p.olc.map f }
/-- PRE_COPY_PASS (R107): a residue of 4 MiB ends phase 2; after 8 passes above it the change is refused. In STOP the
switch needs no drain (R110). -/
def effPreCopyPass (residueKib : Nat) (s : State) : State :=
  match s.prog.olc with
  | none => s
  | some o =>
    if o.phase ≠ 2 ∨ !s.pwr.on then s else
    let s := s.modProg fun p => { p with passes := p.passes + 1 }
    if residueKib ≤ 4096 then
      if s.sys.mode = .run then s.modOlc fun o => { o with phase := 3 }
      else s.modOlc fun o => { o with phase := 4, switchAt := s.now }
    else if 8 ≤ s.prog.passes.toNat then (s.modProg fun p => { p with olc := none }).refuse o.h 0x48
    else s
/-- PRE_COPY_PASS. -/
def execPreCopyPass (residueKib : Nat) (s : State) : Res := .next (effPreCopyPass residueKib s)
/-- DRAIN (R107, R110): no standard task of the partition runs any more after the longest-period task has published, or
the module is in STOP. -/
def effDrain (s : State) : State :=
  match s.prog.olc with
  | none => s
  | some o =>
    let ts := s.partTasks o.part
    if o.phase = 3 ∧ s.pwr.on ∧ (s.sys.mode ≠ .run ∨ ts.isEmpty ∨ (o.drained ∧ ts.all fun t => !(s.task t).running)) then
      s.modOlc fun o => { o with phase := 4, switchAt := s.now }
    else s
/-- DRAIN. -/
def execDrain (s : State) : Res := .next (effDrain s)

/-- The old build owned a byte of an output segment. -/
def ownedBy (segs : List Segment) (c : Container) (x : Segment) (i o : Nat) : Bool :=
  c.maps.any fun m => m.isOut && (pointOf segs m).any fun p => p.seg == i && (x.source != 2 || p.off == o)
/-- Output points of the old build that the new one does not bind take the stop value that the old build gave them, with the
next publication; bytes that lose their owner hold nothing else (R107). -/
def State.unbindOld (s : State) (old new : Container) : State :=
  let s := s.outSegs.foldl (fun s (x, i) =>
    let b := (List.range x.size).map fun o =>
      if ownedBy s.segs old x i o ∧ !s.owned x i o then 0 else byteAt (s.writingOf i) o
    s.modSwd fun w => { w with writing := Tbl.set (fun _ => []) w.writing i b }) s
  (old.maps.filter fun m => m.isOut && !(new.maps.any fun n => n.isOut && n.meets m)).foldl (fun s m =>
    match pointOf s.segs m with
    | none => s
    | some p =>
      s.modSwd fun w => { w with
        writing := Tbl.upd (fun _ => []) w.writing p.seg fun b =>
          p.write (padTo (p.off + p.len) b ++ b.drop (p.off + p.len)) m.stop.toNat }) s
/-- The tasks of a partition after a switch: new ones wait for their first latch point, the others go on (R107 phase 5). -/
def State.resumeChanged (s : State) (part : Byte) : State :=
  let s := s.setTasks
  let ts := s.partTasks part
  let s := ts.foldl (fun s t => s.modTask t fun k => { k with
    changeDue := true, state := if k.state = 4 ∧ !k.held ∧ s.sys.mode = .run then 1 else k.state }) s
  s.resume (ts.filter fun t => (s.task t).held) false
/-- The switch (R107 phase 4 and 5, R111, R112): values carried, forces rebound, mappings and code switched, a commit with
the new layouts, held tasks resume. -/
def State.switchTo (s : State) (o : Olc) (old : Container) (c : Container) (lossy : List (Word × Nat)) (outOk : Bool) : State :=
  let ring := handleRing o.h
  let fate := forceFate s.prog.forces c old
  if !fate.dropped.isEmpty ∧ !s.outReach ring o.desc outOk then (s.modProg fun p => { p with olc := none }).fail o.h stBufferFault
  else
    let s := s.modProg fun p => { (p.putSlot c).store 0 o.part o.image with olc := none, changes := p.changes + 1 }
    let s := (s.recordLossy lossy).dropForces ring o.desc fate 1
    let s := if s.sys.mode = .run then s.unbindOld old c else (s.publishStops.unbindOld old c).stopUnowned
    let s := s.commitAll.resumeChanged o.part
    s.complete o.h stOk (leBytes 8 o.switchAt ++ leBytes 4 (Nat.min 0xFFFFFFFF (2 * (s.now - o.switchAt)))
      ++ leBytes 4 o.carriedKib ++ leBytes 2 fate.carried ++ leBytes 2 fate.dropped.length) (!fate.dropped.isEmpty)
/-- SWITCH_WINDOW (R107): ends when an IN_SYNC standby has acknowledged the switch; without that it goes on. -/
def effSwitchWindow (partnerAck outOk : Bool) (s : State) : State :=
  match s.prog.olc with
  | none => s
  | some o =>
    if o.phase ≠ 4 ∨ !s.pwr.on then s else
    if !(s.entry o.h).any s.commitMode then (s.modProg fun p => { p with olc := none }).fail o.h stWrongMode else
    if s.inSync ∧ !partnerAck then s else
    match s.prog.slot 0 o.part with
    | none => (s.modProg fun p => { p with olc := none }).refuse o.h 0x42
    | some old =>
      match carry o.next old fun _ => true with
      | none => (s.modProg fun p => { p with olc := none }).refuse o.h 0x45
      | some (c, lossy) => s.switchTo o old c lossy outOk
/-- SWITCH_WINDOW. -/
def execSwitchWindow (partnerAck outOk : Bool) (s : State) : Res := .next (effSwitchWindow partnerAck outOk s)

/-! ## Forces (R105, R106, R466) -/

/-- Order of the force table. -/
def Force.before (a b : Force) : Bool := a.var.toNat < b.var.toNat || (a.var == b.var && a.elem.toNat < b.elem.toNat)
/-- A force in its place. -/
def putForce (f : Force) : List Force → List Force
  | [] => [f]
  | g :: l => if f.before g then f :: g :: l else if f.var = g.var ∧ f.elem = g.elem then f :: l else g :: putForce f l
/-- Force active on an element. -/
def Prog.forced (p : Prog) (v e : Word) : Bool := p.forces.any fun f => f.var == v && f.elem == e
/-- The container and declaration of a variable ID, any container. -/
def Prog.varOf (p : Prog) (v : Word) : Option (Container × VarDecl) :=
  p.loaded.findSome? fun c => (c.var v).map fun d => (c, d)
/-- The element is bound to the safety task or to a safety channel. -/
def State.safetyBound (s : State) (c : Container) (v : Word) : Bool :=
  c.kind == 1 || c.maps.any fun m => m.var == v && m.source == 2 && decide (s.modeOf m.station ∈ [2, 3, 4, 7, 8])
/-- The detail code with which FORCE_SET is refused (R105). -/
def State.forceRefusal (s : State) (c : Container) (d : VarDecl) (e : Word) (len : Nat) : Option Nat :=
  if ¬ (d.forceable ∧ (d.inBound ∨ d.outBound)) then some 0x21
  else if s.safetyBound c d.id then some 0x22
  else if !s.prog.forced d.id e ∧ 1024 ≤ s.prog.forces.length then some 0x23
  else if len ≠ d.size ∨ 32 < d.size then some 0x24 else none
/-- The points at which a force takes effect (R106): for an input the latch points of every task of the container, for
each output mapping the publish point of the task that owns it. -/
def State.forcePoints (s : State) (f : Force) : List (Nat × Bool) :=
  match s.prog.ownerOf f.var with
  | none => []
  | some c =>
    (if (c.var f.var).any (·.inBound) then c.cyclic.map fun t => (t.task, false) else []) ++
      (c.maps.filter fun m => m.isOut && m.var == f.var).map fun m => (m.task, true)
/-- The command commits at the last of the points that its forces wait for; outside RUN at once. A latch point on the same
TBU count has taken the forces (R121). -/
def State.awaitPoints (s : State) (h : Quad) (fs : List Force) : State :=
  let s := s.refreeze
  let past (p : Nat × Bool) : Bool := !p.2 && (s.task p.1).running && (s.task p.1).latchAt == s.now
  let l := ((fs.flatMap s.forcePoints).filter fun p => (s.task p.1).present && !(s.task p.1).stopped && !past p).eraseDups
  let s := (s.executing h).modProg fun p => { p with forceJob := some (h, l) }
  s.forceProgress fun _ => s.sys.mode != .run
/-- FORCE_SET and FORCE_ADDR on their entry. DESIGN CHOICE: the direction that FORCE_LIST shows of a variable bound both
ways is output; the force acts on its inputs and outputs alike (log entry 70). -/
def State.doForceSet (s : State) (e : JEntry) : State :=
  let h := e.handle
  let v := BitVec.ofNat 32 (leAt e.args 0 4)
  let i := BitVec.ofNat 32 (leAt e.args 4 4)
  match s.prog.varOf v with
  | none => s.fail h stNotFound
  | some (c, d) =>
    if d.count ≤ i.toNat then s.fail h stNotFound
    else
      match s.forceRefusal c d i (byteAt e.args 8).toNat with
      | some x => s.refuse h x
      | none =>
        let f : Force := ⟨v, i, d.outBound, sub e.args 16 d.size⟩
        (s.modProg fun p => { p with forces := putForce f p.forces }).awaitPoints h [f]
/-- FORCE_SET. -/
def effForceSet (h : Quad) (s : State) : State := s.begin h 0x2022 false fun e => s.doForceSet e
/-- FORCE_SET. -/
def execForceSet (h : Quad) (s : State) : Res := .next (effForceSet h s)
/-- FORCE_ADDR (R82): its address was resolved at acceptance. -/
def effForceAddr (h : Quad) (s : State) : State := s.begin h 0x2022 true fun e => s.doForceSet e
/-- FORCE_ADDR. -/
def execForceAddr (h : Quad) (s : State) : Res := .next (effForceAddr h s)

/-- The value 0xFFFF_FFFF of FORCE_CLEAR. -/
def allOf : Word := 0xFFFFFFFF
/-- FORCE_CLEAR and UNFORCE_ADDR on their entry (R105, R106). -/
def State.doForceClear (s : State) (e : JEntry) : State :=
  let h := e.handle
  let v := BitVec.ofNat 32 (leAt e.args 0 4)
  let i := BitVec.ofNat 32 (leAt e.args 4 4)
  let known := v = allOf ∨ (s.prog.varOf v).any fun x => i == allOf || decide (i.toNat < x.2.count)
  if ¬ known then s.fail h stNotFound
  else
    let hit (f : Force) : Bool := (v == allOf || f.var == v) && (i == allOf || f.elem == i)
    let gone := s.prog.forces.filter hit
    let s := s.modProg fun p => { p with forces := p.forces.filter fun f => !hit f }
    s.awaitPoints h gone
/-- FORCE_CLEAR. -/
def effForceClear (h : Quad) (s : State) : State := s.begin h 0x2023 false fun e => s.doForceClear e
/-- FORCE_CLEAR. -/
def execForceClear (h : Quad) (s : State) : Res := .next (effForceClear h s)
/-- UNFORCE_ADDR (R82). -/
def effUnforceAddr (h : Quad) (s : State) : State := s.begin h 0x2023 true fun e => s.doForceClear e
/-- UNFORCE_ADDR. -/
def execUnforceAddr (h : Quad) (s : State) : Res := .next (effUnforceAddr h s)

/-- An entry of FORCE_LIST (R466). -/
def Force.entry (f : Force) : Bytes :=
  le 4 f.var ++ le 4 f.elem ++ [BitVec.ofNat 8 f.value.length, if f.isOut then 1 else 0] ++ List.replicate 6 0 ++ padTo 32 f.value
/-- FORCE_LIST on its entry. DESIGN CHOICE: EXTENDED stays 0, R80 names it for the two loads only (log entry 70). -/
def State.doForceList (s : State) (e : JEntry) (outOk : Bool) : State :=
  let desc := sub e.args 0 16
  if !s.outReach e.ring desc outOk then s.fail e.handle stBufferFault
  else
    let fs := s.prog.forces.take (descLen desc / 48)
    (s.output e.ring desc (fs.flatMap Force.entry)).complete e.handle stOk
      (leBytes 4 fs.length ++ leBytes 4 (48 * fs.length) ++ leBytes 4 s.prog.forces.length)
/-- FORCE_LIST (R466), held back at its acceptance by FENCE. -/
def effForceList (h : Quad) (outOk : Bool) (s : State) : State := s.begin h 0x2024 false fun e => s.doForceList e outOk
/-- FORCE_LIST. -/
def execForceList (h : Quad) (outOk : Bool) (s : State) : Res := .next (effForceList h outOk s)

/-! ## PERSISTENT_RESET (R101, R102) -/

/-- PERSISTENT_RESET: a commit falls due that carries the initial values of the persistent variables; they take them when it
is made. -/
def effPersistentReset (h : Quad) (s : State) : State :=
  s.begin h 0x2025 false fun e =>
    match s.prog.loaded.find? fun c => c.id.toNat == leAt e.args 0 4 with
    | none => s.fail h stNotFound
    | some c =>
      let vs := c.vars.filter fun v => v.cls == 2
      (s.executing h).modProg fun p => { p with
        due := p.due ++ [⟨[], { Commit.blank with vals := vs.map fun v => (c.id, v.id, v.initial c.constData) }⟩]
        persistWait := some (h, c.id) }
/-- PERSISTENT_RESET. -/
def execPersistentReset (h : Quad) (s : State) : Res := .next (effPersistentReset h s)

end Sys2Proof.Machine
end

