-- ==== Sys2Proof/Machine/Trust.lean ====
section
/-! DEFINITION. Firmware slots, update, armed activation, identity, attestation, debug tokens, recovery
(18_firmware_trust_and_update.md). -/

namespace Sys2Proof.Machine

/-! ## Slots and manifests (R402 to R404) -/

/-- Hardware issue of the module (SYS_ID.HW_ISSUE). -/
def hwIssue : Nat := 2
/-- Number of a firmware key by its identifier. -/
def firmwareIx (k : Quad) : Option (Fin 4) := ([0, 1, 2, 3] : List (Fin 4)).find? fun i => Config.firmwareKey i == k
/-- The key is a firmware key whose revocation fuse is not blown. -/
def keyAlive (revoked : BitVec 4) (k : Quad) : Bool :=
  match firmwareIx k with
  | some i => !revoked.getLsbD i
  | none => false
/-- A slot is bootable (R404), its stored image answering as the world says. -/
def FwSlot.bootable (x : FwSlot) (m : Mfg) (imageGood : Bool) : Bool :=
  imageGood && keyAliveDelivered m x && decide (m.fused.toNat ≤ x.secVersion.toNat) && x.hwIssues.getLsbD hwIssue
where
  /-- A slot as delivered carries no manifest in the model; its key counts as alive (log entry 2). -/
  keyAliveDelivered (m : Mfg) (x : FwSlot) : Bool := x.manifest.isEmpty || keyAlive m.revoked x.keyId
/-- Read a manifest (R403): a LOADING slot with every block missing; none when the layout is broken. -/
def parseManifest (b : Bytes) : Option FwSlot :=
  let n := leAt b 16 4
  if b.length ≤ 87152 ∧ sub b 0 4 = [0x44, 0x58, 0x46, 0x4D] ∧ leAt b 4 2 = 1 ∧ 1 ≤ n ∧ n ≤ 1790 ∧ leAt b 20 4 ≤ n
      ∧ allZero (sub b 32 32) ∧ b.length = 64 + 32 * n + sigBlockLen then
    some { state := .loading, manifest := b, secVersion := byteAt b 6, revoke := (byteAt b 7).setWidth 4
           tfVersion := BitVec.ofNat 16 (leAt b 8 2), sfVersion := BitVec.ofNat 16 (leAt b 10 2)
           mirrorVersion := BitVec.ofNat 16 (leAt b 12 2), hwIssues := BitVec.ofNat 16 (leAt b 14 2), blocks := n
           keyId := BitVec.ofNat 64 (leAt b 24 8), digest := Config.sha3 (b.take (64 + 32 * n))
           digests := (entries 32 (sub b 64 (32 * n))).map fun d => BitVec.ofNat 256 (leNat d), missing := List.range n }
  else none
/-- A manifest whose signature is valid under R404. -/
def signedManifest (m : Mfg) (b : Bytes) : Option FwSlot :=
  (parseManifest b).bind fun x =>
    match sigBlock b (64 + 32 * x.blocks) with
    | some g =>
      if g.kind = 0 ∧ g.key = x.keyId ∧ keyAlive m.revoked x.keyId ∧ Config.slhVerify 2 (le 8 x.keyId) x.digest g.sig then some x
      else none
    | none => none

/-! ## UPDATE_MANIFEST, UPDATE_BLOCK (R407) -/

/-- The slot that a new manifest makes of the inactive one: blocks verified under the same digest stay. -/
def FwSlot.reload (old new : FwSlot) : FwSlot :=
  let kept (i : Nat) : Bool :=
    old.state != .empty && !old.missing.contains i && decide (i < old.blocks) && old.digests[i]? == new.digests[i]?
  let miss := new.missing.filter fun i => !kept i
  { new with missing := miss, state := if miss.isEmpty then .valid else .loading }
/-- UPDATE_MANIFEST on its entry. -/
def State.doManifest (s : State) (h : Quad) (x : Bytes) : State :=
  match signedManifest s.mfg x with
  | none => s.fail h stVerifyFailed
  | some m =>
    if m.secVersion.toNat < s.mfg.fused.toNat then s.fail h stRollback
    else if !m.hwIssues.getLsbD hwIssue then s.refuse h 0xA1
    else if s.upd.armed.isSome then s.refuse h 0xA2
    else
      let t := !s.upd.activeB
      let old := s.upd.slot t
      let s := if old.state = .valid ∧ old.digest = m.digest then s else s.modSlot t fun o => o.reload m
      s.complete h stOk (leBytes 4 m.secVersion.toNat ++ [if t then 1 else 0, 0, 0, 0] ++ leBytes 4 m.blocks)
/-- UPDATE_MANIFEST. -/
def effUpdateManifest (h : Quad) (b : Buf) (s : State) : State :=
  s.begin h 0x2040 false fun e =>
    match s.input e.ring (sub e.args 0 16) b with
    | none => s.fail h stBufferFault
    | some x => s.doManifest h x
/-- UPDATE_MANIFEST. -/
def execUpdateManifest (h : Quad) (b : Buf) (s : State) : Res := .next (effUpdateManifest h b s)

/-- A block written into a slot: verified, or left missing when it does not read back. -/
def FwSlot.write (x : FwSlot) (n : Nat) (good : Bool) : FwSlot :=
  let miss := if good then x.missing.filter (· != n) else if x.missing.contains n then x.missing else x.missing ++ [n]
  { x with missing := miss, state := if miss.isEmpty then .valid else .loading }
/-- UPDATE_BLOCK. -/
def effUpdateBlock (h : Quad) (b : Buf) (readBackOk : Bool) (s : State) : State :=
  s.begin h 0x2041 false fun e =>
    let t := !s.upd.activeB
    let x := s.upd.slot t
    let n := leAt e.args 16 4
    if x.state ≠ .loading ∧ x.state ≠ .valid then s.fail h stNotFound
    else if s.upd.armed.isSome then s.refuse h 0xA2
    else if x.blocks ≤ n then s.refuse h 0xA3
    else
      match s.input e.ring (sub e.args 0 16) b with
      | none => s.fail h stBufferFault
      | some d =>
        if (crc32c d).toNat ≠ leAt e.args 20 4 then s.fail h stVerifyFailed
        else if x.digests[n]? ≠ some (Config.sha3 d) then s.fail h stVerifyFailed
        else
          let s := s.modSlot t fun x => x.write n readBackOk
          if readBackOk then s.complete h stOk (leBytes 4 n ++ leBytes 4 (s.upd.slot t).missing.length)
          else s.fail h stHwFault
/-- UPDATE_BLOCK. -/
def execUpdateBlock (h : Quad) (b : Buf) (readBackOk : Bool) (s : State) : Res := .next (effUpdateBlock h b readBackOk s)

/-! ## Armed activation (R408 to R411) -/

/-- The first count at which a scale reads a time or later. -/
def Scale.countAt (c : Scale) (t : Int) : Nat :=
  let p : Int := 1099511627776
  let d := ((t - c.o) * p + (2 * (p + c.r.toInt) - 1)) / (2 * (p + c.r.toInt))
  ((c.base : Int) + d).toNat
/-- The configured group of a number. -/
def State.groupCfg (s : State) (g : Byte) : Option GroupCfg := s.cfg.cur.groups.find? fun x => x.number == g
/-- Network of a group. -/
def GroupCfg.netOf (g : GroupCfg) : Net := if g.net = 1 then .hl2 else .hl1
/-- The module is a member of the group. -/
def State.memberOf (s : State) (g : GroupCfg) : Bool := g.members.getLsbD (s.net g.netOf).addr.toNat
/-- The named scale can be used: plant time set; for network time the group's network, or for group 0 any, integrated
(log entry 25). -/
def State.scaleUsable (s : State) (plant : Bool) (g : Byte) : Bool :=
  if plant then s.tbu.plantSet
  else if g = 0 then s.hl1.isIntegrated || s.hl2.isIntegrated
  else match s.groupCfg g with
    | some x => (s.net x.netOf).isIntegrated
    | none => true
/-- Why UPDATE_ARM is refused (R406, R408). -/
def State.armRefusal (s : State) (t : Int) (plant : Bool) (g : Byte) : Option (BitVec 16 × Nat) :=
  let x := s.upd.slot (!s.upd.activeB)
  let now := if plant then s.plantNow else s.netNow
  if x.state ≠ .valid then some (stRefused, 0xA4)
  else if x.secVersion.toNat < s.mfg.fused.toNat then some (stRollback, 0)
  else if t < now + 1500000000 then some (stRefused, 0xA5)
  else if !s.scaleUsable plant g then some (stRefused, 0xA6)
  else if g ≠ 0 ∧ !((s.groupCfg g).any fun x => s.memberOf x) then some (stRefused, 0xA7)
  else if s.inSync then some (stRefused, 0xA8)
  else if s.upd.armed.isSome then some (stRefused, 0xA2)
  else none
/-- An entry of code 0x7022. -/
def State.armRecord (s : State) (ev : Nat) (sev : BitVec 4) (a : Arming) : State :=
  s.raise srcSup 0x7022 sev ([BitVec.ofNat 8 ev, a.group, 0, 0] ++ leBytes 8 a.count)
/-- UPDATE_ARM (R408). -/
def effUpdateArm (h : Quad) (s : State) : State :=
  s.begin h 0x2042 false fun e =>
    let sec := BitVec.ofNat 64 (leAt e.args 0 8)
    let ns := BitVec.ofNat 32 (leAt e.args 8 4)
    let plant := byteAt e.args 12 == 1
    let g := byteAt e.args 13
    let t : Int := sec.toNat * 1000000000 + ns.toNat
    match s.armRefusal t plant g with
    | some (st, d) => s.fail h st d
    | none =>
      let a : Arming := ⟨sec, ns, plant, g, (if plant then s.tbu.plant else s.tbu.net).countAt t, false⟩
      ((s.modUpd fun u => { u with armed := some a, ready := false }).armRecord 1 2 a).complete h stOk (leBytes 8 a.count)
/-- UPDATE_ARM. -/
def execUpdateArm (h : Quad) (s : State) : Res := .next (effUpdateArm h s)
/-- UPDATE_CANCEL (R411). -/
def effUpdateCancel (h : Quad) (s : State) : State :=
  s.begin h 0x2043 false fun _ =>
    if s.upd.armed.isSome then (s.cancelArmed 4 3).complete h stOk [1] else s.complete h stOk [0]
/-- UPDATE_CANCEL. -/
def execUpdateCancel (h : Quad) (s : State) : Res := .next (effUpdateCancel h s)

/-- The armed time in ns on its scale, and the scale as it reads now and as it read at the start of the base tick in
progress (R352, R408). -/
def Arming.time (a : Arming) : Int := (a.sec.toNat * 1000000000 + a.ns.toNat : Nat)
def State.tickScale (s : State) (a : Arming) : Int := (if a.plant then s.tbu.plant else s.tbu.net).at s.sys.tickAt
def State.armedScale (s : State) (a : Arming) : Int := if a.plant then s.plantNow else s.netNow
/-- Slot-0 time of the group's network's present cycle on the armed scale (R409). -/
def State.slotZero (s : State) (a : Arming) (g : GroupCfg) : Int :=
  let x := s.net g.netOf
  if a.plant then s.tbu.plant.at x.cycleAt else x.cycleTime
/-- The activation boundary has come (R409): for group 0 the base tick in progress, for another group a cycle of its
network, began at or after the armed time. -/
def State.atBoundary (s : State) (a : Arming) : Bool :=
  if a.group = 0 then decide (a.time ≤ s.tickScale a)
  else a.checked && (s.groupCfg a.group).any fun g => (s.net g.netOf).isIntegrated && decide (a.time ≤ s.slotZero a g)
/-- The check point has come on a time (R409): the armed time minus 1 s, and `late` ns. -/
def Arming.pastCheck (a : Arming) (t : Int) (late : Int) : Bool := decide (a.time + late ≤ t + 1000000000)
/-- CHECK_POINT (R409): the READY map of the first valid BEACON whose slot-0 time lies at or after the armed time minus 1 s;
none when none came within 4 cycles. -/
def effCheckPoint (beacon : Option (BitVec 256)) (s : State) : State :=
  match s.upd.armed with
  | none => s
  | some a =>
    if !s.pwr.on ∨ a.group = 0 ∨ a.checked ∨ !a.pastCheck (s.armedScale a) 0 then s
    else
      match s.groupCfg a.group with
      | none => s.cancelArmed 2 3
      | some g =>
        if !(s.net g.netOf).isIntegrated then s.cancelArmed 2 3 else
        match beacon with
        | some m =>
          if !a.pastCheck (s.slotZero a g) 0 then s
          else if m &&& g.members = g.members then s.modUpd fun u => { u with armed := some { a with checked := true } }
          else s.cancelArmed 2 3
        | none => if a.pastCheck (s.armedScale a) (4 * (s.net g.netOf).cycleNs) then s.cancelArmed 2 3 else s
/-- CHECK_POINT. -/
def execCheckPoint (beacon : Option (BitVec 256)) (s : State) : Res := .next (effCheckPoint beacon s)

/-- The modes in which an armed activation takes place (R410). -/
def State.activates (s : State) : Bool :=
  s.pwr.on && s.sys.mode != .start && s.sys.mode != .halt && !(s.sys.mode == .service && s.sys.substate == 6)
/-- The armed activation whose boundary has come. -/
def State.activationDue (s : State) : Option Arming :=
  match s.upd.armed with
  | none => none
  | some a => if s.activates ∧ s.atBoundary a then some a else none
/-- The activation (R410): from RUN and FOLLOW through SERVICE; the new slot is ACTIVE and pending, a warm start begins. -/
def State.activate (s : State) : State :=
  match s.activationDue with
  | none => s
  | some a =>
    let s := if s.sys.mode = .run ∨ s.sys.mode = .follow then
        ((s.modAllTasks fun _ k => k.abandon).publishStops).setMode .service 1 4 else s
    let s := (s.modUpd fun u => { u with armed := none, ready := false, fallback := false }).armRecord 5 2 a
    (s.swapSlots true).enterStart .warm 4
/-- ACTIVATION_BOUNDARY (R410). -/
def effActivationBoundary (s : State) : State := s.activate
/-- ACTIVATION_BOUNDARY. -/
def execActivationBoundary (s : State) : Res := .next (effActivationBoundary s)

/-- FUSE_RULE (R406): after 24 operating hours on a pending slot the fuses are blown; the key of its own manifest is
spared. -/
def effFuseRule (s : State) : State :=
  let t := s.fuseMark
  if s.pwr.on ∧ s.upd.pending ∧ 24 * msHour ≤ t.upd.fuseMs then
    let x := s.upd.slot s.upd.activeB
    let spare : BitVec 4 := match firmwareIx x.keyId with
      | some i => ~~~ (1 <<< i.val)
      | none => 0xF
    let s := { s with mfg := { s.mfg with
      fused := if s.mfg.fused.toNat < x.secVersion.toNat then x.secVersion else s.mfg.fused
      revoked := s.mfg.revoked ||| (x.revoke &&& spare) } }
    (s.modUpd fun u => { u with pending := false, fuseMs := 0, fuseSince := none }).raise srcSup 0x7023 2
      [s.mfg.fused, s.mfg.revoked.setWidth 8]
  else s
/-- FUSE_RULE. -/
def execFuseRule (s : State) : Res := .next (effFuseRule s)

/-! ## Identity and attestation (R413 to R415) -/

/-- Length of the two certificates (R413). -/
def chainLen : Nat := 59840
/-- The identifier of a public key: the first 8 bytes of the SHA3-256 of its 64 bytes (R400). -/
def keyIdOf (key : Bytes) : Quad := (Config.sha3 (padTo 64 key)).setWidth 64
/-- A certificate (R414): its body and the issuer's signature. -/
def certificate (kind alg : Byte) (serial issuer : Quad) (key : Bytes) (after : Quad) (issue : Nat) (variant : Byte) : Bytes :=
  let body := [0x44, 0x58, 0x43, 0x54, 1, 0, kind, alg] ++ le 8 serial ++ le 8 (keyIdOf key) ++ le 8 issuer ++ padTo 64 key
    ++ le 8 (Config.notBefore kind) ++ le 8 after ++ leBytes 2 issue ++ [variant] ++ List.replicate 13 0
  body ++ padTo 29792 (Config.issuerSign issuer body)
/-- The device certificate and the authority certificate that issued it (R413). -/
def State.certificates (s : State) : Bytes :=
  certificate 3 2 s.mfg.serial (keyIdOf Config.authorityKey) Config.identityKey 0 hwIssue (s.mfg.variant.setWidth 8)
    ++ certificate 2 1 Config.authoritySerial (keyIdOf Config.rootKey) Config.authorityKey Config.authorityNotAfter 0 0
/-- IDENTITY_GET on its entry. DESIGN CHOICE: EXTENDED stays 0 (log entry 70). -/
def State.doIdentity (s : State) (e : JEntry) (outOk : Bool) : State :=
  let desc := sub e.args 0 16
  if descLen desc < chainLen ∨ !s.outReach e.ring desc outOk then s.fail e.handle stBufferFault
  else (s.output e.ring desc s.certificates).complete e.handle stOk (leBytes 4 chainLen)
/-- IDENTITY_GET, held back at its acceptance by FENCE. -/
def effIdentityGet (h : Quad) (outOk : Bool) (s : State) : State := s.begin h 0x2050 false fun e => s.doIdentity e outOk
/-- IDENTITY_GET. -/
def execIdentityGet (h : Quad) (outOk : Bool) (s : State) : Res := .next (effIdentityGet h outOk s)

/-- TBU_STATUS bits [3:0]. -/
def Tbu.flags (t : Tbu) : Nat := maskOf [t.plantSet, t.plantLocked, t.jumpRefused, t.netLocked]
/-- The digest of a container, or 0. -/
def digestOf (c : Option Container) : BitVec 256 := (c.map (·.digest)).getD 0
/-- The statement of ATTEST (R415). -/
def State.statement (s : State) (nonce : Bytes) : Bytes :=
  let sec := s.plantNow / 1000000000
  let ns := s.plantNow % 1000000000
  [0x44, 0x58, 0x41, 0x54, 1, 0, 0, 0] ++ le 8 s.mfg.serial ++ padTo 32 nonce ++ leBytes 8 s.now
    ++ le 8 (BitVec.ofInt 64 sec) ++ le 4 (BitVec.ofInt 32 ns)
    ++ [BitVec.ofNat 8 s.tbu.flags, s.mfg.fused, BitVec.ofNat 8 (maskOf [s.upd.activeB, s.upd.pending]), s.dpx.epoch]
    ++ le 4 s.sys.modeWord ++ leBytes 4 s.sys.epoch.toNat ++ le 32 (s.upd.slot s.upd.activeB).digest
    ++ le 32 (setDigest s.saf.items) ++ le 32 (digestOf s.prog.safety) ++ le 32 (digestOf s.prog.std0)
    ++ le 32 (digestOf s.prog.std1) ++ List.replicate 16 0
/-- ATTEST (R415). DESIGN CHOICE: EXTENDED stays 0 (log entry 70). -/
def effAttest (h : Quad) (outOk : Bool) (s : State) : State :=
  s.begin h 0x2051 false fun e =>
    let desc := sub e.args 32 16
    if !s.outReach e.ring desc outOk then s.fail h stBufferFault
    else
      let x := s.statement (sub e.args 0 32)
      (s.output e.ring desc (x ++ padTo 49856 (Config.slhSign x))).complete h stOk
        (leBytes 8 49856 ++ leBytes 8 s.now ++ le 32 (Config.sha3 x))
/-- ATTEST. -/
def execAttest (h : Quad) (outOk : Bool) (s : State) : Res := .next (effAttest h outOk s)

/-! ## Debug tokens (R416, R417) -/

/-- A token is accepted (R416, R417). -/
def State.tokenOk (s : State) (b : Bytes) : Bool :=
  let sec := s.plantNow / 1000000000
  let from_ := leAt b 24 8
  let until_ := leAt b 32 8
  sub b 0 4 == [0x44, 0x58, 0x44, 0x54] && leAt b 4 2 == 1 && decide ((byteAt b 6).toNat ≤ 1) && decide ((byteAt b 7).toNat < 16)
    && allZero (sub b 20 4) && allZero (sub b 40 24) && leAt b 8 8 == s.mfg.serial.toNat && leAt b 16 4 == s.hyk.powerCycles.toNat
    && decide ((from_ : Int) ≤ sec ∧ sec ≤ (until_ : Int)) && decide (until_ ≤ from_ + 28800) &&
  match sigBlock b 64 with
  | none => false
  | some g =>
    g.kind == byteAt b 6 &&
    if byteAt b 6 = 0 then Config.slhVerify 3 (le 8 g.key) (Config.sha3 (b.take 64)) g.sig
    else match integratorKey s.saf.items with
      | some (k, i) => g.key == i && Config.slhVerify 1 k (Config.sha3 (b.take 64)) g.sig
      | none => false
/-- Scopes open (R171, R417): lanes or IEEE 1149.1 break the lockstep, the Service Processor alone does not. -/
def State.openScopes (s : State) (sc : Byte) (expiry : Quad) : State :=
  let lanes := sc.getLsbD 0 || sc.getLsbD 1
  let s := s.modUpd fun u => { u with
    scope := u.scope ||| BitVec.ofNat 3 (maskOf [lanes, sc.getLsbD 2, sc.getLsbD 3]), expiry := expiry }
  if lanes || sc.getLsbD 3 then
    ((s.modSys fun y => { y with lockstepBroken := true }).modTri fun t => { t with debug := true, gateClosed := true }).modFld
      fun f => { f with safetyOff := true }
  else s
/-- DEBUG_TOKEN (R417). -/
def effDebugToken (h : Quad) (b : Buf) (s : State) : State :=
  s.begin h 0x2052 false fun e =>
    if s.sys.substate ≠ 4 then s.fail h stWrongMode
    else
      match s.input e.ring (sub e.args 0 16) b with
      | none => s.fail h stBufferFault
      | some x =>
        if !s.tbu.plantSet then s.refuse h 0xA9
        else if !s.tokenOk x then s.fail h stAuthFailed
        else (s.openScopes (byteAt x 7) (BitVec.ofNat 64 (leAt x 32 8))).complete h stOk (leBytes 8 (leAt x 32 8))
/-- DEBUG_TOKEN. -/
def execDebugToken (h : Quad) (b : Buf) (s : State) : Res := .next (effDebugToken h b s)
/-- DEBUG_EXPIRY (R417): LOCKSTEP_BROKEN stays. -/
def effDebugExpiry (s : State) : State :=
  if s.pwr.on ∧ s.upd.scope ≠ 0 ∧ (s.upd.expiry.toNat : Int) * 1000000000 ≤ s.plantNow then
    (s.modUpd fun u => { u with scope := 0 }).modTri fun t => { t with debug := false }
  else s
/-- DEBUG_EXPIRY. -/
def execDebugExpiry (s : State) : Res := .next (effDebugExpiry s)

/-! ## Recovery (R418) -/

/-- USB_RECOVERY_IMAGE (R407, R418): the manifest, then every block; a bootable image becomes ACTIVE, not pending. -/
def effUsbRecoveryImage (manifest : Bytes) (blocks : List Bytes) (s : State) : State :=
  match signedManifest s.mfg manifest with
  | none => s
  | some m =>
    if !s.pwr.on ∨ m.secVersion.toNat < s.mfg.fused.toNat ∨ !m.hwIssues.getLsbD hwIssue ∨ s.upd.armed.isSome then s
    else
      let t := !s.upd.activeB
      let old := s.upd.slot t
      let s := if old.state = .valid ∧ old.digest = m.digest then s else s.modSlot t fun o => o.reload m
      let s := blocks.zipIdx.foldl (fun s (d, n) =>
        if d.length = 65536 ∧ m.digests[n]? = some (Config.sha3 d) then s.modSlot t fun x => x.write n true else s) s
      if (s.upd.slot t).state = .valid ∧ (s.upd.slot t).bootable s.mfg true then
        (s.swapSlots false).modUpd fun u => { u with recovered := true } else s
/-- USB_RECOVERY_IMAGE. -/
def execUsbRecoveryImage (manifest : Bytes) (blocks : List Bytes) (s : State) : Res :=
  .next (effUsbRecoveryImage manifest blocks s)

end Sys2Proof.Machine
end

