-- ==== Sys2Proof/Machine/ModeCmds.lean ====
section
/-! DEFINITION. The commands that change the mode, of both command sets (R38 to R53, R76, R82, R315). -/

namespace Sys2Proof.Machine

/-! ## Init tasks (R91) -/

/-- The containers whose cold-init task MODE_RUN runs: loaded by CONTAINER_LOAD since the last start (R91). -/
def Prog.coldInits (p : Prog) : List Container := p.loaded.filter fun c => c.fresh && c.tasks.any (·.type == 1)
/-- Init tasks of a list of containers run to completion, one at a time: each reads a version promoted at its start; what
they stored in the Writing bank waits for the owners' first publish points (R91). -/
def State.runInits (s : State) (cs : List Container) (b : Body) : State :=
  cs.foldl (fun s c =>
    let s := s.promote.1
    let s := c.cyclic.foldl (fun s t => s.store t.task b.writes) s
    ((s.modProg fun p => p.modContainer c.kind c.part fun c => b.vars.foldl (fun c (i, v) => c.setVal i v) c).storeVars false).prune) s

/-! ## MODE_RUN (R38, R41, R46, R86, R91, R124, R247) -/

/-- The detail code with which MODE_RUN is refused; LOCKSTEP_BROKEN has none of its own (log entry 21). DESIGN CHOICE: of
several grounds the first of this list is named, 0x33 before 0x32 (log entry 70). -/
def State.runRefusal (s : State) : Option Nat :=
  if s.sys.lockstepBroken then some 0
  else if !s.sys.verifyFailed.isEmpty then some 0x33
  else if s.prog.loaded.isEmpty then some 0x32
  else if s.prog.safety.any fun c => c.paramDigest ≠ structDigest s.saf.items then some 0x76
  else if !bufferRule s.segs (counted s.cpr.split s.prog.loaded) then some 0x51
  else if s.present.any fun t => s.tickUs == 0 || s.periodUs t % s.tickUs != 0 then some 0x31
  else none
/-- RUN is entered: SYS_MODE reads RUN at once, every task waits for its own first latch point (R38). -/
def State.enterRun (s : State) (trigger : Nat) : State :=
  (s.setMode .run 0 trigger).modAllTasks fun _ k =>
    if k.present then { k with state := 1, latched := false, stopped := false, due := none } else k
/-- The transition of MODE_RUN; without a task there is no latch point to wait for. -/
def State.goRun (s : State) (h : Quad) : State :=
  let s := s.modProg fun p => { p with
    safety := p.safety.map fun c => { c with fresh := false }, std0 := p.std0.map fun c => { c with fresh := false }
    std1 := p.std1.map fun c => { c with fresh := false } }
  let s := (s.enterRun 0).modSys fun y => { y with initRun := none }
  if s.present.isEmpty then s.complete h stOk (leBytes 8 s.now)
  else s.modSys fun y => { y with runWait := some h }
/-- MODE_RUN on its entry: the cold-init tasks of newly loaded containers run before RUN is entered (R91). How long they
take is open (log entry 37). A refusal by the buffer rule sets REFUSED_CFG (R124, R139). -/
def State.doRun (s : State) (e : JEntry) (b : Body) : State :=
  match s.runRefusal with
  | some d => s.refuseLoad e.handle d
  | none =>
    let s := s.executing e.handle
    if s.prog.coldInits.isEmpty then s.goRun e.handle
    else (s.modSys fun y => { y with initRun := some ⟨e.handle, b, s.now, (Config.freeBits s.free 32).toNat⟩ }).bump
/-- The init tasks that a MODE_RUN started have ended: its commit point, with its mode check (R69). -/
def State.initEnded (s : State) : State :=
  match s.sys.initRun with
  | none => s
  | some j =>
    if s.now < j.since + j.need then s
    else if !(s.entry j.h).any s.commitMode then (s.modSys fun y => { y with initRun := none }).fail j.h stWrongMode
    else (s.runInits s.prog.coldInits j.body).goRun j.h
/-- A mode command at its cycle boundary (R40): what stands before it in the order of precedence takes effect first, an
armed activation whose boundary has come; the command so overtaken ends with WRONG_MODE (log entry 71). -/
def State.modeTrigger (s : State) (h : Quad) (op : BitVec 16) (v1 : Bool) (f : JEntry → State) : State :=
  if s.activationDue.isSome then (s.begin h op v1 fun e => s.fail e.handle stWrongMode).activate else s.begin h op v1 f
/-- MODE_RUN. -/
def effModeRun (h : Quad) (b : Body) (s : State) : State := s.modeTrigger h 0x2010 false fun e => s.doRun e b
/-- MODE_RUN. -/
def execModeRun (h : Quad) (b : Body) (s : State) : Res := .next (effModeRun h b s)
/-- GO (R82). -/
def effGoV1 (h : Quad) (b : Body) (s : State) : State := s.modeTrigger h 0x2010 true fun e => s.doRun e b
/-- GO. -/
def execGoV1 (h : Quad) (b : Body) (s : State) : Res := .next (effGoV1 h b s)

/-! ## MODE_STOP (R49) -/

/-- MODE_STOP on its entry: the stop waits for each task's stop publication. -/
def State.doStop (s : State) (e : JEntry) : State :=
  let s := (s.executing e.handle).modSys fun y => { y with stopJob := some ⟨e.handle, false⟩ }
  if s.present.isEmpty then s.finishStop else s
/-- MODE_STOP. -/
def effModeStop (h : Quad) (s : State) : State := s.modeTrigger h 0x2011 false fun e => s.doStop e
/-- MODE_STOP. -/
def execModeStop (h : Quad) (s : State) : Res := .next (effModeStop h s)
/-- HOLD (R82). -/
def effHoldV1 (h : Quad) (s : State) : State := s.modeTrigger h 0x2011 true fun e => s.doStop e
/-- HOLD. -/
def execHoldV1 (h : Quad) (s : State) : Res := .next (effHoldV1 h s)

/-! ## SERVICE (R38, R41, R425) -/

/-- SERVICE_ENTER (R38): the purpose is the SUBSTATE. -/
def effServiceEnter (h : Quad) (s : State) : State :=
  s.modeTrigger h 0x2012 false fun e =>
    let p := byteAt e.args 0
    (s.setMode .service (p.setWidth 4) 0).complete h stOk [p]
/-- SERVICE_ENTER. -/
def execServiceEnter (h : Quad) (s : State) : Res := .next (effServiceEnter h s)
/-- SERVICE_LEAVE (R41, R425). -/
def effServiceLeave (h : Quad) (s : State) : State :=
  s.begin h 0x2013 false fun _ =>
    if s.sys.lockstepBroken then s.fail h stWrongMode
    else if s.bst.failed then s.refuse h 0xB2
    else (s.setMode .stop 0 0).complete h stOk []
/-- SERVICE_LEAVE. -/
def execServiceLeave (h : Quad) (s : State) : Res := .next (effServiceLeave h s)

/-! ## START_WARM and START_COLD (R43, R51, R53, R55, R76) -/

/-- A start command of a ring pair: its commit point is the moment the start begins (R75, R76). -/
def State.ringStart (s : State) (k : StartKind) (e : JEntry) : State := (s.commitOnly e.handle []).enterStart k 0
/-- A start through the service USB port (R51, R53, R55): never out of START; out of a latched HALT only cold, which
clears the latch and the counts; without bootable firmware only cold, once recovery has written an image, and after
recovery only cold (R55, R418). -/
def State.usbStart (s : State) (k : StartKind) : State :=
  if !s.pwr.on || s.sys.mode == .start then s
  else if (s.upd.recovered ∨ (s.sys.mode = .halt ∧ (s.sys.haltLatched ∨ s.sys.haltCause = 2))) ∧ k ≠ .cold then s
  else if s.sys.mode = .halt ∧ s.sys.haltCause = 2 ∧ !s.upd.recovered then s
  else
    let s := if s.sys.haltLatched ∧ k = .cold then
        s.modSys fun y => { y with haltLatched := false, warmFails := [], coldFails := [] } else s
    s.enterStart k 0
/-- START_WARM. -/
def effStartWarm (src : Source) (s : State) : State :=
  match src with
  | .ring h => s.begin h 0x2014 false fun e => s.ringStart .warm e
  | .usb => s.usbStart .warm
/-- START_WARM. -/
def execStartWarm (src : Source) (s : State) : Res := .next (effStartWarm src s)
/-- START_COLD. -/
def effStartCold (src : Source) (s : State) : State :=
  match src with
  | .ring h => s.begin h 0x2015 false fun e => s.ringStart .cold e
  | .usb => s.usbStart .cold
/-- START_COLD. -/
def execStartCold (src : Source) (s : State) : Res := .next (effStartCold src s)
/-- RESTART (R82). -/
def effRestartV1 (h : Quad) (s : State) : State := s.begin h 0x2014 true fun e => s.ringStart .warm e
/-- RESTART. -/
def execRestartV1 (h : Quad) (s : State) : Res := .next (effRestartV1 h s)
/-- INIT (R82). -/
def effInitV1 (h : Quad) (s : State) : State := s.begin h 0x2015 true fun e => s.ringStart .cold e
/-- INIT. -/
def execInitV1 (h : Quad) (s : State) : Res := .next (effInitV1 h s)

/-! ## SHUTDOWN (R53) -/

/-- A record of the shutdown's progress (code 0x1006). -/
def State.shutdownRecord (s : State) (stage : Nat) (left : Nat) : State :=
  s.raise srcSup 0x1006 2 ([BitVec.ofNat 8 stage, 0, 0, 0] ++ leBytes 4 left)
/-- Commands other than the SHUTDOWN that have no DONE record yet. -/
def State.leftOver (s : State) (h : Quad) : Nat :=
  (s.journal.filter fun e => !e.combined && e.phase != .doneWritten && e.handle != h).length
/-- Steps 5 to 8 of R53: the final commit, silence on the networks, the test and its record. -/
def State.shutdownTest (s : State) (o : BistOutcome) : State :=
  let s := (s.commitAll.modHl1 HlNet.silence).modHl2 HlNet.silence
  let t := s.bist 2 o true true
  t.writeRecord (t.bst.repairs.length - s.bst.repairs.length)
/-- Step 9: the DONE record with the result of the test. -/
def State.shutdownAnswer (s : State) (h : Quad) (left : Nat) : State :=
  { s.complete h stOk (s.bistResult ++ leBytes 4 left) with free := s.free + 8 }
/-- Step 10: every domain but PD0 off, ready for power-off. -/
def State.shutdownOff (s : State) (left : Nat) : State :=
  ((((s.modPwr fun p => { p with domains := domainWord [0] }).modSys fun y => { y with
    substate := 6, shutJob := none }).shutdownRecord 3 left)).modHyk fun h => { h with lastOff := 1 }
/-- Steps 5 to 10 of R53. -/
def State.shutdownEnd (s : State) (j : ShutJob) : State :=
  let left := s.leftOver j.h
  ((((s.shutdownTest j.bist).shutdownRecord 2 left).shutdownAnswer j.h left).shutdownOff left)
/-- The shutdown waits in SERVICE for the accepted commands (R53 step 4). -/
def State.draining (s : State) : Option ShutJob :=
  if s.sys.mode = .service ∧ s.sys.substate = 5 then s.sys.shutJob else none
/-- No accepted command is outstanding any more: the shutdown goes on. -/
def State.shutdownDrained (s : State) : State :=
  match s.draining with
  | some j => if s.leftOver j.h = 0 then s.shutdownEnd j else s
  | none => s
/-- SHUTDOWN (R53): in RUN the tasks stop first; in FOLLOW the module stops being standby; refused with WRONG_MODE while
the standby is IN_SYNC. -/
def effShutdown (h : Quad) (o : BistOutcome) (s : State) : State :=
  s.modeTrigger h 0x2016 false fun _ =>
    if s.inSync then s.fail h stWrongMode
    else
      let s := (s.executing h).modSys fun y => { y with shutJob := some ⟨h, o, s.now⟩ }
      if s.sys.mode = .run then
        let s := s.modSys fun y => { y with stopJob := some ⟨h, true⟩ }
        if s.present.isEmpty then s.finishStop else s
      else
        let s := if s.sys.mode = .follow then s.setRole 0 0 else s
        s.setMode .service 5 0
/-- SHUTDOWN. -/
def execShutdown (h : Quad) (o : BistOutcome) (s : State) : Res := .next (effShutdown h o s)
/-- SHUTDOWN_DRAIN_LIMIT (R53 step 4): 5 s after SERVICE was entered. -/
def effShutdownDrainLimit (s : State) : State :=
  match s.draining with
  | some j => if s.pwr.on ∧ j.entered + 5000 * countsMs ≤ s.now then s.shutdownEnd j else s
  | none => s
/-- SHUTDOWN_DRAIN_LIMIT. -/
def execShutdownDrainLimit (s : State) : Res := .next (effShutdownDrainLimit s)

/-! ## ROLE_SWAP (R315) -/

/-- Every lane of this module is in its checked state (R166, R185, R315). -/
def State.lanesChecked (s : State) : Bool :=
  s.tri.allIn && s.cpr.excluded ||| s.cpr.permanent == 0 && s.cpr.recovery == 0
/-- ROLE_SWAP: refused, or the drain begins. Whether the standby has a lane out of its checked state is not visible to the
active: a free value (log entry 18). -/
def effRoleSwap (h : Quad) (s : State) : State :=
  s.begin h 0x2017 false fun _ =>
    if !s.inSync then s.refuse h 0x81
    else if s.journal.any fun e => e.opcode == 0x2021 && !e.committed then s.refuse h 0x82
    else if s.lanesChecked && (Config.freeBits s.free 1).getLsbD 0 then s.bump.refuse h 0x83
    else ((s.bump.executing h).modDpx fun d => { d with swap := some (some h), swapDrained := false })
/-- ROLE_SWAP. -/
def execRoleSwap (h : Quad) (s : State) : Res := .next (effRoleSwap h s)

end Sys2Proof.Machine
end

