-- ==== Sys2Proof/Machine/TimeBase.lean ====
section
/-! DEFINITION. Plant time, network time, the servos, IEEE 1588 (15_time_base.md). -/

namespace Sys2Proof.Machine

/-! ## Scales (R349, R350) -/

/-- The bases kept: the last 16 (R350). -/
def keep16 (l : List (Nat × Int × Word)) : List (Nat × Int × Word) := l.take 16
/-- A new base at a count: O is the time there (R350). -/
def Scale.rebase (c : Scale) (count : Nat) (r : Word) : Scale :=
  { c with base := count, o := c.at count, r := r, past := keep16 ((c.base, c.o, c.r) :: c.past) }
/-- A step of the scale: O of the current base changes (R357), the integral is reset (R358). -/
def Scale.step (c : Scale) (d : Int) : Scale := { c with o := c.o + d, i := 0 }
/-- The time of a past count, by the base in force at it; by the oldest kept when it is older (R350). -/
def Scale.atPast (c : Scale) (count : Nat) : Int :=
  let rec go : Nat × Int × Word → List (Nat × Int × Word) → Nat × Int × Word
    | b, [] => b
    | b, x :: l => if b.1 ≤ count then b else go x l
  let b := go (c.base, c.o, c.r) c.past
  Scale.at { c with base := b.1, o := b.2.1, r := b.2.2 } count

/-! ## The servo (R358) -/

/-- ±500 ppm in units of 2⁻⁴⁰ (R351). -/
def ppm500 : Int := 549755813
/-- Clamp to ±500 ppm. -/
def clampPpm (x : Int) : Int := if x < -ppm500 then -ppm500 else if ppm500 < x then ppm500 else x
/-- 2⁻ᵏ e / Δ in units of 2⁻⁴⁰; where it is no whole number the spec gives no rounding: the neighbour is free; for two
samples on one count, Δ = 0, it gives no value at all: that is free (log entry 14). -/
def gainOf (k : Nat) (e : Int) (delta : Nat) (free : Nat) : Int :=
  let d : Int := (2 ^ k * delta : Nat)
  let n : Int := e * 1099511627776
  if d = 0 then (Config.freeBits free 64).toInt
  else if n % d = 0 then n / d else n / d + ((Config.freeBits free 1).toNat : Int)
/-- One sample fed to a servo (R358). -/
def Scale.sample (c : Scale) (count : Nat) (kp ki : Nat) (e : Int) (delta : Nat) (free : Nat) : Scale :=
  let i := clampPpm (c.i + gainOf ki e delta free)
  let r := clampPpm (-(gainOf kp e delta (free + 1) + i))
  { c.rebase count (BitVec.ofInt 32 r) with i := i }
/-- The lock counts after a sample with offset `e` (R358). -/
def Scale.judge (c : Scale) (e : Int) (limit : Nat) : Scale :=
  if e.natAbs ≤ limit then { c with within := c.within + 1, above := 0 }
  else { c with within := 0, above := c.above + 1 }
/-- The lock after a sample: 16 within set it, 4 above clear it (R358). -/
def Scale.lock (c : Scale) (now : Bool) : Bool := if 16 ≤ c.within then true else if 4 ≤ c.above then false else now
/-- kp and ki exponents in force (R114, item 0x0137). -/
def State.gains (s : State) (ix : Nat) : Nat × Nat :=
  let v := s.param 0x0137 ix
  (v % 256, v / 256 % 256)

/-- A reference's rate is that of plant time while that is locked (R353). -/
def State.referenceRate (s : State) (n : Net) : State :=
  if (s.net n).state = .reference && s.tbu.plantLocked && s.tbu.net.r != s.tbu.plant.r then
    s.modTbu fun t => { t with net := t.net.rebase s.now t.plant.r }
  else s
/-- A sample within the threshold, or the first one: fed to the plant servo, or applied as a step (R355, R356). -/
def State.plantFeed (s : State) (e : Int) (delta : Nat) : State :=
  let (kp, ki) := s.gains 0
  (s.modTbu fun t =>
    let p := (if t.plantSet then t.plant.sample s.now kp ki e delta s.free else t.plant.step (-e)).judge e 1000
    { t with plant := p, plantSet := true, plantLocked := p.lock t.plantLocked, jumpRefused := false, jump := none
             refusedNow := false, plantOfs := e }).bump.bump.referenceRate .hl1 |>.referenceRate .hl2
/-- A refused sample (R356): the first after one within the threshold is recorded. -/
def State.plantRefuse (s : State) (e : Int) : State :=
  let first := !s.tbu.refusedNow
  let set := !s.tbu.jumpRefused
  let s := s.modTbu fun t =>
    let p := t.plant.judge e 1000
    { t with plant := p, plantLocked := p.lock t.plantLocked, jumpRefused := true, refusedNow := true, jump := some e, plantOfs := e
             refusals := satInc t.refusals }
  (s.iff first fun s => s.raise srcTbu 0x6002 3 (le 8 (BitVec.ofInt 64 e))).iff set fun s => s.setEvent 3
/-- PTP_SAMPLE (R355, R356). -/
def effPtpSample (e : Int) (delta : Nat) (s : State) : State :=
  if s.stileUp then
    if s.tbu.plantSet && decide (s.param 0x0130 0 < e.natAbs) then s.plantRefuse e else s.plantFeed e delta
  else s
/-- PTP_SAMPLE. -/
def execPtpSample (e : Int) (delta : Nat) (s : State) : Res := .next (effPtpSample e delta s)

/-- The effect of PLANT_JUMP_ACCEPT on its entry (R357). -/
def State.doJumpAccept (s : State) (e : JEntry) : State :=
  match s.tbu.jump with
  | none => s.fail e.handle stNotFound
  | some j =>
    let d := le 8 (BitVec.ofInt 64 (-j))
    let s := s.modTbu fun t => { t with plant := t.plant.step (-j), jumpRefused := false, jump := none }
    (s.raise srcTbu 0x6003 2 d).complete e.handle stOk d
/-- PLANT_JUMP_ACCEPT (R357). -/
def effPlantJumpAccept (h : Quad) (s : State) : State := s.begin h 0x2070 false fun e => s.doJumpAccept e
/-- PLANT_JUMP_ACCEPT. -/
def execPlantJumpAccept (h : Quad) (s : State) : Res := .next (effPlantJumpAccept h s)

/-- PTP_STATE codes. -/
def ptpCode : PtpDecision → BitVec 2
  | .listening => 1
  | .slave => 2
  | .master => 3
/-- PTP_MESSAGE (R354): the best master clock algorithm decides; master only when SLAVE_ONLY is cleared; as master the
module answers. -/
def effPtpMessage (d : PtpDecision) (answerTo : Option Byte) (s : State) : State :=
  if s.stileUp && s.param 0x0131 0 == 1 then
    let d := if d = .master ∧ s.param 0x0135 0 = 1 then .listening else d
    let s := s.modTbu fun t => { t with ptpState := ptpCode d }
    match d, answerTo with
    | .master, some k => s.emit (.ptp k)
    | _, _ => s
  else s
/-- PTP_MESSAGE. -/
def execPtpMessage (d : PtpDecision) (answerTo : Option Byte) (s : State) : Res := .next (effPtpMessage d answerTo s)

/-- The plant Ethernet port configured for PTP is port 2 (item 0x0136). -/
def State.ptpHome2 (s : State) : Bool := s.param 0x0136 0 % 256 == 2
/-- Fallback to the other port is configured (item 0x0136). -/
def State.ptpFallback (s : State) : Bool := s.param 0x0136 0 / 256 % 256 == 1
/-- The port in use: the configured one, or the other while only that has a link and fallback is configured (R354). -/
def State.ptpPort (s : State) : Bool :=
  let home := s.ptpHome2
  let upHome := if home then s.tbu.eth2Up else s.tbu.eth1Up
  let upOther := if home then s.tbu.eth1Up else s.tbu.eth2Up
  if !upHome && upOther && s.ptpFallback then !home else home
/-- PLANT_ETHERNET_LINK_CHANGE (R354). -/
def effPlantEthernetLinkChange (port : Fin 2) (up : Bool) (s : State) : State :=
  let s := s.modTbu fun t => if port = 0 then { t with eth1Up := up } else { t with eth2Up := up }
  s.modTbu fun t => { t with ptpOn2 := s.ptpPort }
/-- PLANT_ETHERNET_LINK_CHANGE. -/
def execPlantEthernetLinkChange (port : Fin 2) (up : Bool) (s : State) : Res := .next (effPlantEthernetLinkChange port up s)

/-- A network-time sample (R358, R288): lock limit 20 ns on generation 2, 200 ns on generation 1. -/
def State.netFeed (s : State) (e : Int) (delta : Nat) (limit : Nat) : State :=
  let (kp, ki) := s.gains 1
  (s.modTbu fun t =>
    let n := (t.net.sample s.now kp ki e delta s.free).judge e limit
    { t with net := n, netLocked := n.lock t.netLocked, netOfs := e }).bump.bump
/-- A step of network time (R353). -/
def State.netStep (s : State) (d : Int) : State := s.modTbu fun t => { t with net := t.net.step d }

end Sys2Proof.Machine
end

