-- ==== Sys2Proof/Machine/Mailbox.lean ====
section
/-! DEFINITION. Doorbells, consumer indices, the acceptance of command entries, the status queries of both command sets
(R56 to R82). -/

namespace Sys2Proof.Machine

/-! ## Doorbells and consumer indices (R58, R64, R65, R434) -/

/-- The party writes this ring pair (R56, R77). -/
def ownsRing (p : Party) (n : Nat) : Bool :=
  match p with
  | .pcie => n < 8
  | .legacy => 8 ≤ n && n < 12
  | .runtime => 12 ≤ n && n < 24
  | .service => 24 ≤ n
  | .part0 => false
  | .part1 => false
/-- The party code of 0x2001. -/
def partyCode : Party → Option Byte
  | .pcie => some 0
  | .legacy => some 1
  | .part0 => some 2
  | .part1 => some 3
  | .runtime => none
  | .service => none
/-- A write ignored or refused is recorded (code 0x2001): reason, BAR0 offset, data written. -/
def State.refuseWrite (s : State) (p : Party) (reason : Byte) (off : Nat) (v : Word) : State :=
  match partyCode p with
  | some c => s.raise srcHost 0x2001 3 ([c, reason, 0, 0] ++ leBytes 4 off ++ le 4 v)
  | none => s
/-- A write that a party may not make (R434): a host path's is recorded, a program's refused by the fabric as well (R192),
the Service Processor's by the firewall (R15), at the register's address in R188 (log entry 69). -/
def State.forbid (s : State) (p : Party) (reason : Byte) (off : Nat) (v : Word) : State :=
  let s := s.refuseWrite p reason off v
  let addr : Quad := BitVec.ofNat 64 (0x0101000000 + off)
  match p with
  | .part0 => match s.runner false with
    | some t => s.programRefused t 1 addr
    | none => s
  | .part1 => match s.runner true with
    | some t => s.programRefused t 1 addr
    | none => s
  | .service => s.firewallRefused 1 addr
  | _ => s
/-- The mailboxes answer: not in HALT, nor after a SHUTDOWN (R50, R53, R367). -/
def State.mailboxUp (s : State) : Bool :=
  s.pwr.on && s.sys.mode != .halt && !(s.sys.mode == .service && s.sys.substate == 6)
/-- A write to the control block of a ring pair: refused for the party with the reason of 0x2001, or allowed. -/
def State.ringWrite (s : State) (p : Party) (n off : Nat) (v : Word) (f : State → State) : State :=
  if !s.mailboxUp then s
  else
    let at_ := 0x10000 + n * 0x800 + off
    if p = .service ∧ !s.upd.granted then s.forbid p 1 at_ v
    else if p = .legacy ∧ !s.sys.legacyWrite then s.refuseWrite p 3 at_ v
    else if ownsRing p n then f s
    else s.forbid p (if p = .pcie ∨ p = .legacy then 4 else 1) at_ v

/-- DOORBELL_WRITE (R64). -/
def effDoorbellWrite (p : Party) (n : Fin 32) (v : Word) (s : State) : State :=
  s.ringWrite p n 0x008 v fun s => s.writeDoorbell n v
/-- DOORBELL_WRITE. -/
def execDoorbellWrite (p : Party) (n : Fin 32) (v : Word) (s : State) : Res := .next (effDoorbellWrite p n v s)
/-- CPL_CONS_WRITE (R65, R67). -/
def effCplConsWrite (p : Party) (n : Fin 32) (v : Word) (s : State) : State :=
  s.ringWrite p n 0x014 v fun s => s.writeCons n v
/-- CPL_CONS_WRITE. -/
def execCplConsWrite (p : Party) (n : Fin 32) (v : Word) (s : State) : Res := .next (effCplConsWrite p n v s)
/-- IRQ_TIMER_EXPIRY (R67): the age condition holds. -/
def effIrqTimerExpiry (n : Fin 32) (s : State) : State :=
  if s.mailboxUp && (s.ring n).irqOn s.now then s.signal n else s
/-- IRQ_TIMER_EXPIRY. -/
def execIrqTimerExpiry (n : Fin 32) (s : State) : Res := .next (effIrqTimerExpiry n s)

/-! ## Arguments (R69 step 2, R80, R329) -/

/-- A buffer descriptor at an ARGS offset is well formed (R72). -/
def descAt (a : Bytes) (o : Nat) : Bool := descOk (sub a o 16)
/-- Every ARGS byte from an offset on is 0 (R59). -/
def restZero (a : Bytes) (o : Nat) : Bool := allZero (a.drop o)
/-- The context class that a version 2 ring pair owns; partition 1 submits in split mode only (R329). -/
def ringClass (n : Nat) (part1 : Bool) : BitVec 3 :=
  if n < 8 then 1 else if n < 12 then 2 else if n < 20 then (if part1 then 4 else 3) else 5
/-- A destination identifier keeps the encoding of its port (R322). -/
def identOk (port : Nat) (i : Nat) : Bool :=
  if port < 4 then true else if port < 7 then i < 256 else if port < 9 then i < 2 ^ 24 else i < 128
/-- Longest message of a port (R322): CAN classic 8, FD 64. -/
def portLongest (port : Nat) (i : Nat) : Nat :=
  if port < 4 then (if i / 2 ^ 30 % 2 = 1 then 64 else 8) else if port < 6 then 256 else if port = 6 then 1472
  else if port < 9 then 16384 else 4096
/-- ARGS of STILE_TRANSFER and REMOTE_XFER obey R329; the context is checked apart. -/
def transferArgs (a : Bytes) : Bool :=
  let op := (byteAt a 2).toNat
  let port := (byteAt a 3).toNat
  let ident := leAt a 4 4
  let len := descLen (sub a 16 16)
  let net := port == 7 || port == 8
  decide (op ≤ 2 ∧ port ≤ 9) && (op == 1 || (op == 0 && (net || port == 9)) || (op == 2 && net)) && descAt a 16 && restZero a 32 &&
  identOk port ident && (net || leAt a 8 8 == 0) &&
  (if net then decide (1 ≤ len ∧ len ≤ 4096) else op == 0 || decide (len ≤ portLongest port ident))
/-- ARGS of a version 2 command (R80); `cls` is the context class of the ring pair. -/
def State.argsOk (s : State) (op : BitVec 16) (cls : BitVec 3) (a : Bytes) : Bool :=
  let b (o : Nat) : Nat := (byteAt a o).toNat
  match op.toNat with
  | 0x2002 => restZero a 8
  | 0x2012 => decide (2 ≤ b 0 ∧ b 0 ≤ 4) && restZero a 1
  | 0x2020 => descAt a 0 && decide (b 16 ≤ 1 ∧ b 17 ≤ 1) && allZero (sub a 18 6) && descAt a 24 && restZero a 40 &&
      (b 16 == 0 || allZero (sub a 24 16))
  | 0x2021 => descAt a 0 && descAt a 16 && restZero a 32
  | 0x2022 => decide (1 ≤ b 8 ∧ b 8 ≤ 32) && allZero (sub a 9 7) && restZero a (16 + b 8)
  | 0x2023 => restZero a 8
  | 0x2024 => descAt a 0 && restZero a 16
  | 0x2025 => restZero a 4
  | 0x2026 => descAt a 0 && restZero a 16
  | 0x2030 => descAt a 0 && restZero a 16
  | 0x2031 => decide (b 0 ≤ 2) && decide (b 1 < if b 0 = 0 then 96 else if b 0 = 1 then 6 else 1) && restZero a 3
  | 0x2040 => descAt a 0 && restZero a 16
  | 0x2041 => descAt a 0 && descLen a == 65536 && restZero a 24
  | 0x2042 => decide (leAt a 8 4 < 1000000000 ∧ b 12 ≤ 1) && restZero a 14
  | 0x2050 => descAt a 0 && restZero a 16
  | 0x2051 => descAt a 32 && decide (50112 ≤ descLen (sub a 32 16)) && restZero a 48
  | 0x2052 => descAt a 0 && restZero a 16
  | 0x2060 => decide (b 0 ≤ 2) && restZero a 1
  | 0x2080 => transferArgs a && decide (leAt a 0 2 < 112) && (s.ctx (leAt a 0 2)).owner == cls
  | 0x2081 => decide (leAt a 0 2 < 128) && (s.ctx (leAt a 0 2)).owner == cls && (decide (b 2 < 32) || b 2 == 0xFF) && restZero a 3
  | _ => restZero a 0
/-- The variable that a DK-5100 image address names (R82; log entry 20). -/
def State.varAt (s : State) (addr : Word) : Option Word :=
  match Config.imageAddr addr with
  | none => none
  | some (isOut, byte, bit) =>
    s.prog.standard.findSome? fun c => (c.maps.find? fun m =>
      m.isOut == isOut &&
      match pointOf s.segs m with
      | none => false
      | some p => match s.segs[p.seg]? with
        | none => false
        | some x => x.imageOff + p.off == byte && p.bit == bit).map (·.var)
/-- ARGS of a version 1 command as they are performed (R82), none for BAD_ARGUMENT. -/
def State.v1Args (s : State) (op : BitVec 16) (a : Bytes) : Option Bytes :=
  match op.toNat with
  | 0x2020 => if descAt a 0 && allZero (sub a 18 6) && descAt a 24 && restZero a 40 then some (patch a 16 [0, 0]) else none
  | 0x2022 | 0x2023 =>
    if s.argsOk op 0 a then (s.varAt (BitVec.ofNat 32 (leAt a 0 4))).map fun v => patch a 0 (le 4 v) else none
  | 0x2080 => if transferArgs a then some a else none
  | _ => if s.argsOk op 0 a then some a else none

/-! ## The checks of R69 -/

/-- What the checks read of an entry: ring pair, index, the 64 bytes, version 1, submitted by partition 1. -/
structure Entry where
  ring : Nat
  index : Word
  raw : Bytes
  v1 : Bool
  part1 : Bool
  deriving DecidableEq, Repr
/-- Fields of R59. -/
def Entry.opcode (e : Entry) : BitVec 16 := BitVec.ofNat 16 (leAt e.raw 0 2)
def Entry.flags (e : Entry) : BitVec 16 := BitVec.ofNat 16 (leAt e.raw 2 2)
def Entry.tag (e : Entry) : Word := BitVec.ofNat 32 (leAt e.raw 4 4)
def Entry.args (e : Entry) : Bytes := sub e.raw 8 56
/-- The entry at the head of a ring pair's command ring. -/
def State.headEntry (s : State) (n : Nat) : Entry :=
  let r := s.ring n
  { ring := n, index := r.cmdCons, raw := s.mem.ring.bytes (r.cmdOff r.cmdCons) 64, v1 := r.cmdset == 1
    part1 := r.from1.contains r.cmdCons }
/-- FLAGS obey the catalogue (R59, R81). -/
def Entry.flagsOk (e : Entry) (op : BitVec 16) : Bool :=
  if e.v1 then e.flags == 0
  else e.flags.toNat < 8 && (!e.flags.getLsbD 2 || op == 0x2021 || (op == 0x2020 && byteAt e.args 16 == 0))
/-- A SHUTDOWN has been accepted and is not over (R53 step 1). -/
def State.shuttingDown (s : State) : Bool := s.sys.shutJob.isSome || s.journal.any fun e => e.opcode == 0x2016 && !e.committed
/-- The class queue has room for a further command (R71, R329). -/
def State.classRoom (s : State) (c : Cls) (ctx : Nat) : Bool :=
  match c with
  | .q => true
  | .b => (s.journal.filter fun e => e.cls == .b && e.context == ctx && e.phase != .doneWritten).length < 16
  | c => (s.journal.filter fun e => e.cls == c && e.phase != .doneWritten).length < 16
/-- Steps 1 to 4 of R69: a REJECTED code, or the command performed with its arguments. -/
def State.check (s : State) (e : Entry) : Except (BitVec 16) (BitVec 16 × CmdInfo × Bytes) :=
  match if e.v1 then v1Opcode e.opcode else some e.opcode with
  | none => .error stUnknownOpcode
  | some op =>
    match cmdInfo op with
    | none => .error stUnknownOpcode
    | some c =>
      if !c.permits e.ring then .error stNotPermitted
      else if !e.flagsOk op then .error stBadFlags
      else
        match if e.v1 then s.v1Args op e.args
          else if s.argsOk op (ringClass e.ring e.part1) e.args then some e.args else none with
        | none => .error stBadArgument
        | some a =>
          if s.sys.mode = .follow ∧ !c.inFollow then .error stStandby
          else if s.shuttingDown ∧ op ≠ 0x2001 ∧ op ≠ 0x2002 then .error stShuttingDown
          else if !s.classRoom c.cls (if e.v1 then 116 + e.ring else leAt a 0 2) then .error stClassFull
          else .ok (op, c, a)

/-! ## Records of the acceptance -/

/-- A REJECTED record (R60, R81). -/
def State.reject (s : State) (e : Entry) (st : BitVec 16) : State :=
  s.putRecord e.ring (mkRecord 0 e.tag (shownStatus e.v1 st) kindRejected (shownResult e.v1 st (le 4 e.index))) (!e.flags.getLsbD 1)
/-- The journal entry of an acceptance (R30, R61). -/
def State.journalEntry (s : State) (e : Entry) (op : BitVec 16) (c : CmdInfo) (a : Bytes) : JEntry :=
  { handle := mkHandle e.ring s.sys.epoch (s.ring e.ring).seq, ring := e.ring, tag := e.tag, opcode := op, flags := e.flags
    args := a, accepted := s.now, index := e.index, v1 := e.v1, phase := .accepted, status := 0, result := []
    extended := false, combined := c.cls == .q, doneAt := 0, replay := false }

/-! ## Status queries (R80, R82) -/

/-- STATUS_GET. -/
def State.doStatus (s : State) (e : JEntry) : State :=
  let first := le 4 s.sys.modeWord ++ [s.dpx.role.setWidth 8, s.dpx.standby.setWidth 8, 0, 0] ++ leBytes 8 s.now
  s.complete e.handle stOk
    (if e.v1 then first else first ++ leBytes 4 s.sys.epoch.toNat ++ leBytes 4 (s.outstandingAll e.handle))
/-- HANDLE_QUERY's state of a journal entry. -/
def JEntry.queryState (e : JEntry) : Nat :=
  match e.phase with
  | .accepted => 1
  | .executing => 1
  | .committed => 2
  | .doneWritten => 3
/-- HANDLE_QUERY. DESIGN CHOICE: of a handle of a version 1 ring pair it shows the version 1 status code (log entry 70). -/
def State.doQuery (s : State) (e : JEntry) : State :=
  match s.entry (BitVec.ofNat 64 (leAt e.args 0 8)) with
  | none => s.complete e.handle stOk []
  | some x =>
    s.complete e.handle stOk (leBytes 8 x.queryState ++ leBytes 8 x.accepted
      ++ leBytes 2 (if x.committed then (shownStatus x.v1 x.status).toNat else 0))
/-- NOP. -/
def State.doNop (s : State) (e : JEntry) : State := s.complete e.handle stOk []
/-- A class Q command performed at its acceptance; `outOk`: its output buffer can be reached. -/
def State.performQ (s : State) (e : JEntry) (outOk : Bool) : State :=
  s.begin e.handle e.opcode e.v1 fun e =>
    match e.opcode.toNat with
    | 0x2001 => s.doStatus e
    | 0x2002 => s.doQuery e
    | 0x2024 => s.doForceList e outOk
    | 0x2050 => s.doIdentity e outOk
    | 0x2070 => s.doJumpAccept e
    | _ => s.doNop e

/-- NOP (R80), held back at its acceptance by FENCE. -/
def effNop (h : Quad) (s : State) : State := s.begin h 0x2000 false fun e => s.doNop e
/-- NOP. -/
def execNop (h : Quad) (s : State) : Res := .next (effNop h s)
/-- STATUS_GET (R80). -/
def effStatusGet (h : Quad) (s : State) : State := s.begin h 0x2001 false fun e => s.doStatus e
/-- STATUS_GET. -/
def execStatusGet (h : Quad) (s : State) : Res := .next (effStatusGet h s)
/-- HANDLE_QUERY (R80). -/
def effHandleQuery (h : Quad) (s : State) : State := s.begin h 0x2002 false fun e => s.doQuery e
/-- HANDLE_QUERY. -/
def execHandleQuery (h : Quad) (s : State) : Res := .next (effHandleQuery h s)
/-- The version 1 NOP (R82). -/
def effV1Nop (h : Quad) (s : State) : State := s.begin h 0x2000 true fun e => s.doNop e
/-- The version 1 NOP. -/
def execV1Nop (h : Quad) (s : State) : Res := .next (effV1Nop h s)
/-- STATUS (R82): RESULT bytes 16 to 47 are 0. -/
def effStatusV1 (h : Quad) (s : State) : State := s.begin h 0x2001 true fun e => s.doStatus e
/-- STATUS. -/
def execStatusV1 (h : Quad) (s : State) : Res := .next (effStatusV1 h s)

/-! ## Taking entries (R66, R68, R69, R70) -/

/-- Ring pairs with an entry that a doorbell has covered; one that an open cycle submitted is not taken (R88). -/
def State.waiting (s : State) (n : Nat) : Bool :=
  let r := s.ring n
  r.enabled && r.cmdProd != r.cmdCons && !r.subs.contains r.cmdCons
/-- An open cycle of a task has submitted the entry. -/
def State.submitted (s : State) (n : Nat) (i : Word) : Bool := allTasks.any fun t => (s.task t).doorbells.contains (n, i)
/-- Entries at the head whose cycle never published are passed over, never taken (R88). -/
def Ring.passVoid (live : Word → Bool) : Nat → Ring → Ring
  | 0, r => r
  | k + 1, r =>
    if r.cmdProd ≠ r.cmdCons ∧ r.subs.contains r.cmdCons ∧ !live r.cmdCons then
      Ring.passVoid live k { r with
        cmdCons := r.cmdCons + 1, subs := r.subs.filter (· != r.cmdCons), from1 := r.from1.filter (· != r.cmdCons) }
    else r
/-- The same over the programs' ring pairs. -/
def State.passVoids (s : State) : State :=
  ((List.range 12).map (· + 12)).foldl (fun s n => s.modRing n fun r => r.passVoid (s.submitted n) r.depth) s
/-- The order in which the Supervisor serves the ring pairs (R68): 20 to 23, then the others behind the one served last. -/
def State.serveOrder (s : State) : List Nat :=
  let rest := (List.range 32).map fun k => (s.sys.served + 1 + k) % 32
  [20, 21, 22, 23] ++ rest.filter fun n => n < 20 || 24 ≤ n
/-- ACCEPT_HELD of the ring pairs that are passed over (R66). -/
def State.markHeld (s : State) : State :=
  s.serveOrder.foldl (fun s n =>
    if s.waiting n && !s.room n then s.modRing n fun r => { r with acceptHeld := true } else s) s
/-- The entry leaves the command ring. -/
def State.advance (s : State) (n : Nat) : State :=
  (s.modRing n fun r => { r with
    cmdCons := r.cmdCons + 1, acceptHeld := false, from1 := r.from1.filter (· != r.cmdCons) }).modSys fun y =>
      { y with served := if 20 ≤ n ∧ n < 24 then y.served else n }
/-- The acceptance (R69 steps 5 and 6): journalled, mirrored to an IN_SYNC standby; ACCEPTED, or for class Q the COMBINED
record of the command performed, unless FENCE holds it back. -/
def State.accept (s : State) (j : JEntry) (outOk : Bool) : State :=
  let s := (s.modJournal fun l => l ++ [j]).modRing j.ring fun r => { r with seq := nextHandleSeq r.seq }
  let s := if s.inSync then s.emit (.mirrorAccept j.handle) else s
  let s := if j.opcode = 0x2016 then s.shutdownRecord 1 (s.leftOver j.handle) else s
  if j.combined then s.performQ j outOk else s.putAccepted j false
/-- Entries are accepted: always but before the end of step 8 of a start (R39). -/
def State.accepting (s : State) : Bool := s.sys.mode != .start || decide (9 ≤ s.sys.substate.toNat)
/-- One entry is taken and handled; `ack` is the acknowledgement of an IN_SYNC standby within 20 µs (R70). -/
def State.takeEntry (s : State) (journalOk ack outOk : Bool) : State :=
  if !s.mailboxUp || !s.accepting then s
  else
    let s := s.passVoids.markHeld
    match s.serveOrder.find? fun n => s.waiting n && s.room n with
    | none => s
    | some n =>
      let e := s.headEntry n
      let s := s.advance n
      match s.check e with
      | .error st => s.reject e st
      | .ok (op, c, a) =>
        let j := s.journalEntry e op c a
        if !journalOk then
          (s.raise srcSup 0x2003 4 ([BitVec.ofNat 8 n, 0, 0, 0] ++ le 4 e.index ++ le 2 e.opcode)).reject e stJournalFailed
        else if s.inSync && !ack then
          ((s.emit (.mirrorAccept j.handle)).lag 2).reject e stPartnerNoAck
        else s.accept j outOk
/-- TAKE_ENTRY (R69); of a standby only entries that the catalogue permits in FOLLOW are taken (R28, R80). -/
def effTakeEntry (journalOk outOk : Bool) (s : State) : State := s.takeEntry journalOk true outOk
/-- TAKE_ENTRY. -/
def execTakeEntry (journalOk outOk : Bool) (s : State) : Res := .next (effTakeEntry journalOk outOk s)
/-- PARTNER_NO_ACK (R70): an entry is taken, and the IN_SYNC standby stays silent. -/
def effPartnerNoAck (s : State) : State := if s.inSync then s.takeEntry true false true else s
/-- PARTNER_NO_ACK. -/
def execPartnerNoAck (s : State) : Res := .next (effPartnerNoAck s)

end Sys2Proof.Machine
end

