-- ==== Sys2Proof/Machine/Runtime.lean ====
section
/-! DEFINITION. The runtime service calls of the programs (R103, R104). -/

namespace Sys2Proof.Machine

/-! Return codes. -/
def rtOk : Word := 0
def rtFull : Word := 1
def rtEmpty : Word := 2
def rtNotPermitted : Word := 3
def rtBadArgument : Word := 4
def rtRateLimited : Word := 5
def rtNotFound : Word := 6

/-- The caller runs: the body of its cyclic task, neither pre-empted nor stopped by a recovery, or an init task, in step 6
of a start or under MODE_RUN (R87, R91, R181). A start shows no step between its entry and its row, so an init task may
call from its entry on (log entry 43). -/
def State.calling (s : State) (c : Caller) : Bool :=
  s.pwr.on &&
  if c.ini then s.sys.initRun.isSome || s.initStart.isSome
  else (s.task c.task).present && (s.task c.task).running && !(s.task c.task).held && (s.task c.task).state != 3 && (c.task == 0 || s.cpr.recovery != 1)
/-- What a call hands back. -/
def State.ret (s : State) (c : Caller) (code : Word) (results : List Quad) (buffer : Bytes := []) : State :=
  s.modTask c.task fun k => { k with ret := ⟨code, results, buffer⟩ }
/-- A call of a running caller; `may` says whether its group and task type may make it. -/
def State.call (s : State) (c : Caller) (may : Bool) (f : State → State) : State :=
  if !s.calling c then s else if may then f s else s.ret c rtNotPermitted []
/-- A count as a 64-bit result. -/
def res (n : Nat) : Quad := BitVec.ofNat 64 n
/-- Seconds and nanoseconds of a time in ns. -/
def secNs (t : Int) : List Quad := [BitVec.ofInt 64 (t / 1000000000), BitVec.ofInt 64 (t % 1000000000)]

/-- CYCLE_INFO (R103): of the latch point; an init task has none, its own moment stands (log entry 27). -/
def effCycleInfo (c : Caller) (s : State) : State :=
  s.call c true fun s =>
    let k := s.task c.task
    if c.ini then s.ret c rtOk [res s.sys.baseTick.toNat, res s.now, res s.swd.version.toNat, res k.overruns.toNat]
    else if c.task = 0 then
      let x := s.tri.xchg.read
      s.ret c rtOk [res x.tick.toNat, res x.count, res x.version.toNat, res x.overruns.toNat]
    else s.ret c rtOk [res k.latchTick.toNat, res k.latchAt, res (k.cur.getD 0).toNat, res k.overruns.toNat]
/-- CYCLE_INFO. -/
def execCycleInfo (c : Caller) (s : State) : Res := .next (effCycleInfo c s)

/-- Plant or network time as a call sees it: as at the latch point (R103, R104). -/
def State.timeFor (s : State) (c : Caller) (net : Bool) : Int :=
  if c.ini then (if net then s.netNow else s.plantNow)
  else if c.task = 0 then (if net then s.tri.xchg.read.net else s.tri.xchg.read.plant)
  else (if net then s.tbu.net else s.tbu.plant).atPast (s.task c.task).latchAt
/-- TIME_GET (R103). -/
def effTimeGet (c : Caller) (scale : Quad) (s : State) : State :=
  s.call c true fun s =>
    if 1 < scale.toNat then s.ret c rtBadArgument [] else s.ret c rtOk (secNs (s.timeFor c (scale == 1)))
/-- TIME_GET. -/
def execTimeGet (c : Caller) (scale : Quad) (s : State) : Res := .next (effTimeGet c scale s)

/-- TBU_READ (R103): Control Pair only. -/
def effTbuRead (c : Caller) (s : State) : State :=
  s.call c (!c.ini && c.task != 0) fun s => s.ret c rtOk [res s.now]
/-- TBU_READ. -/
def execTbuRead (c : Caller) (s : State) : Res := .next (effTbuRead c s)

/-- CMD_SUBMIT (R77, R88, R103): the entry is placed at once, its doorbell waits for the publish point; of task 0 the
voter places it (R104, R145). -/
def effCmdSubmit (c : Caller) (ring : Quad) (entry : Bytes) (s : State) : State :=
  s.call c (!c.ini) fun s =>
    let r := ring.toNat
    if !groupRing c.task r then s.ret c rtBadArgument []
    else if !s.hasSlot r then s.ret c rtFull []
    else
      let i := s.nextEntry r
      (if c.task = 0 then s else s.submit c.task r entry).ret c rtOk [res i.toNat]
/-- CMD_SUBMIT. -/
def execCmdSubmit (c : Caller) (ring : Quad) (entry : Bytes) (s : State) : Res := .next (effCmdSubmit c ring entry s)

/-- Where a task stands in the completion ring of a ring pair: its kept consumer index (R180). -/
def State.readAt (s : State) (t r : Nat) : Word :=
  (((s.task t).consumers.find? fun x => x.1 == r).map (·.2)).getD (s.ring r).cplCons
/-- The records of a ring pair that the latch point shows to a task end here (R77, R155). -/
def State.readEnd (s : State) (t r : Nat) : Word :=
  (((s.task t).seenProd.find? fun x => x.1 == r).map (·.2)).getD (s.ring r).cplCons
/-- CPL_NEXT (R77, R103, R180): the next record written before the latch point; the consumer index is kept to the publish
point, for task 0 until the voter releases it (R145). -/
def effCplNext (c : Caller) (ring : Quad) (s : State) : State :=
  s.call c (!c.ini) fun s =>
    let r := ring.toNat
    if !groupRing c.task r then s.ret c rtBadArgument []
    else
      let i := s.readAt c.task r
      let left := (s.readEnd c.task r - i).toNat
      if left = 0 ∨ (s.ring r).depth < left then s.ret c rtEmpty []
      else
        let b := s.mem.ring.bytes ((s.ring r).cplOff i) 64
        (if c.task = 0 then s
          else s.modTask c.task fun k => { k with consumers := putPair k.consumers r (i + 1) }).ret c rtOk [] b
/-- CPL_NEXT. -/
def execCplNext (c : Caller) (ring : Quad) (s : State) : Res := .next (effCplNext c ring s)

/-- An entry of ERR_EVENTS (R103). -/
def ErrEvent.bytes (e : ErrEvent) : Bytes := le 2 e.kind ++ [e.net, e.station] ++ le 4 e.data ++ leBytes 8 e.count
/-- ERR_EVENTS (R92, R103, R104): the dispatched events, the overflow event last, of task 0 as the latch point captured it;
what is copied is read. -/
def effErrEvents (c : Caller) (limit : Nat) (s : State) : State :=
  s.call c (!c.ini) fun s =>
    let k := s.task c.task
    let n := Nat.min limit k.dispatched
    let more := k.dispLost && decide (k.dispatched < limit)
    let (lost, at_) := if c.task = 0 then (s.tri.xchg.read.lost, s.tri.xchg.read.lostAt) else (k.lost, k.lostAt)
    let l := k.events.take n ++ (if more then [⟨0x000F, 0, 0, BitVec.ofNat 32 lost, at_⟩] else [])
    (s.modTask c.task fun k => { k with
      events := k.events.drop n, dispatched := k.dispatched - n, dispLost := k.dispLost && !more
      lost := if more then k.lost - lost else k.lost }).ret c rtOk [res l.length] (l.flatMap ErrEvent.bytes)
/-- ERR_EVENTS. -/
def execErrEvents (c : Caller) (limit : Nat) (s : State) : Res := .next (effErrEvents c limit s)

/-- COMMIT_INFO (R103, R104). -/
def effCommitInfo (c : Caller) (s : State) : State :=
  s.call c true fun s =>
    if c.task = 0 ∧ !c.ini then s.ret c rtOk [s.tri.xchg.read.commitSeq, res s.tri.xchg.read.commitLate.toNat]
    else s.ret c rtOk [s.prog.commitSeq, res s.prog.commitLate.toNat]
/-- COMMIT_INFO. -/
def execCommitInfo (c : Caller) (s : State) : Res := .next (effCommitInfo c s)

/-- FORCE_INFO (R103): an element that the loaded standard containers do not declare is NOT_FOUND. -/
def effForceInfo (c : Caller) (var elem : Word) (s : State) : State :=
  s.call c (!c.ini && c.task != 0) fun s =>
    match (s.prog.ownerOf var).bind fun x => x.var var with
    | none => s.ret c rtNotFound []
    | some v =>
      if v.count ≤ elem.toNat then s.ret c rtNotFound [] else s.ret c rtOk [if s.prog.forced var elem then 1 else 0]
/-- FORCE_INFO. -/
def execForceInfo (c : Caller) (var elem : Word) (s : State) : Res := .next (effForceInfo c var elem s)

/-- EVENT_LOG (R103, R393): of task 0 the voter writes it (R104, R145). -/
def effEventLog (c : Caller) (code : BitVec 16) (data : Bytes) (s : State) : State :=
  s.call c true fun s =>
    if code.toNat / 4096 ≠ 8 then s.ret c rtBadArgument []
    else
      let (t, ok) := s.logEvent c.task code (padTo 12 data)
      (if c.task = 0 then s else t).ret c (if ok then rtOk else rtRateLimited) []
/-- EVENT_LOG. -/
def execEventLog (c : Caller) (code : BitVec 16) (data : Bytes) (s : State) : Res := .next (effEventLog c code data s)

/-- CHANGE_INFO (R103): Control Pair only. -/
def effChangeInfo (c : Caller) (s : State) : State :=
  s.call c (!c.ini && c.task != 0) fun s =>
    s.ret c rtOk [res s.prog.changes.toNat, if (s.task c.task).firstAfterChange then 1 else 0]
/-- CHANGE_INFO. -/
def execChangeInfo (c : Caller) (s : State) : Res := .next (effChangeInfo c s)

/-- FAULT_RAISE (R103): recorded; with reaction 1, HALT after the publish point; of task 0 the voter takes it (R104). -/
def effFaultRaise (c : Caller) (reaction : Quad) (data : Bytes) (s : State) : State :=
  s.call c (!c.ini) fun s =>
    if 1 < reaction.toNat then s.ret c rtBadArgument []
    else (if c.task = 0 then s else s.raiseFault c.task reaction.toNat (padTo 12 data)).ret c rtOk []
/-- FAULT_RAISE. -/
def execFaultRaise (c : Caller) (reaction : Quad) (data : Bytes) (s : State) : Res := .next (effFaultRaise c reaction data s)

end Sys2Proof.Machine
end

