-- ==== Sys2Proof/Machine/StileOps.lean ====
section
/-! DEFINITION. Stile: routing, remote requests, answers, failures of posted writes, fences (R322 to R347). -/

namespace Sys2Proof.Machine

/-! ## Transforms and routing (R323 to R326) -/

/-- The byte order reversed within each whole word of `n` bytes. -/
def swapWords (n : Nat) : Nat → Bytes → Bytes
  | 0, b => b
  | k + 1, b => if b.length < n ∨ n = 0 then b else (b.take n).reverse ++ swapWords n k (b.drop n)
/-- Port number of a network's acyclic port. -/
def netPort : Net → Nat
  | .hl1 => 7
  | .hl2 => 8
/-- Network of an acyclic port. -/
def portNet (p : Nat) : Option Net := if p = 7 then some .hl1 else if p = 8 then some .hl2 else none
/-- A message transformed on its way from a port and identifier (R326): the bytes and the destination identifier; none when
it is dropped. A code without a meaning drops the message (log entry 28). -/
def transform (code : Byte) (port : Nat) (ident dst : Word) (m : Bytes) : Option (Bytes × Word) :=
  match code.toNat with
  | 0 => some (m, dst)
  | 1 => some (swapWords 2 m.length m, dst)
  | 2 => some (swapWords 4 m.length m, dst)
  | 3 => some ([BitVec.ofNat 8 port, 0, 0, 0] ++ le 4 ident ++ m, dst)
  | 4 => if m.length < 8 then none else some (m.drop 8, BitVec.ofNat 32 (leAt m 4 4))
  | _ => none
/-- The data lengths of a CAN FD frame; a message is padded to the next one (R326). -/
def fdPad (m : Bytes) : Bytes :=
  match [0, 1, 2, 3, 4, 5, 6, 7, 8, 12, 16, 20, 24, 32, 48, 64].find? fun n => decide (m.length ≤ n) with
  | some n => padTo n m
  | none => m
/-- Longest UDP message to an endpoint (R322): IPv4-mapped addresses are IPv4. -/
def udpLongest (e : EndpointCfg) : Nat :=
  if allZero (e.remote.take 10) ∧ sub e.remote 10 2 = [0xFF, 0xFF] then 1472 else 1452
/-- Longest message of a port for an identifier, under the endpoint table in force. -/
def State.longestFor (s : State) (port : Nat) (ident : Word) : Nat :=
  if port = 6 then
    match s.cfg.cur.endpoints[ident.toNat % 256]? with
    | some e => udpLongest e
    | none => 1472
  else portLongest port ident.toNat
/-- A message taken into the queue of a port, or dropped and counted (R323). -/
def State.forward (s : State) (port : Nat) (ident : Word) (m : Bytes) : State :=
  let m := if port < 4 ∧ ident.getLsbD 30 then fdPad m else m
  let lost (s : State) : State := s.modStl fun t => { t with overflow := satInc t.overflow }
  if s.longestFor port ident < m.length then lost s
  else if port = 9 then
    let x := ident.toNat % 128
    let q := Tbl.get (fun _ => []) s.stl.boxes x
    if 64 ≤ q.length then lost s else s.modStl fun t => { t with boxes := Tbl.set (fun _ => []) t.boxes x (q ++ [m]) }
  else if 64 ≤ (s.port port).queue.length then lost s
  else s.modPort port fun p => { p with queue := p.queue ++ [(ident, m, none)] }
/-- The entry matches a message of a port (R325); on CAN ports bits [31:30] play no part (R322). -/
def Route.hit (r : Route) (port : Nat) (ident : Word) : Bool :=
  let cut (x : Word) : Word := if port < 4 then x &&& 0x3FFFFFFF else x
  r.valid && r.srcPort.toNat == port && cut (ident &&& r.srcMask) == cut (r.srcId &&& r.srcMask)
/-- The entries that send a message on: the first match and, while CONTINUE is set, the next ones, four at most. -/
def hits (port : Nat) (ident : Word) : Nat → List Route → List Route
  | 0, _ => []
  | _, [] => []
  | n + 1, r :: l => if r.hit port ident then (if r.cont then r :: hits port ident n l else [r]) else hits port ident (n + 1) l
/-- A received message is looked up and sent on, or dropped (R325); the Boolean says whether an entry matched. -/
def State.route (s : State) (port : Nat) (ident : Word) (m : Bytes) : State × Bool :=
  let l := hits port ident 4 s.cfg.cur.routing
  if l.isEmpty then (s.modStl fun t => { t with noRoute := satInc t.noRoute }, false)
  else
    (l.foldl (fun s r =>
      match transform r.transform port ident r.dstId m with
      | none => s
      | some (b, d) => s.forward r.dstPort.toNat d b) s, true)

/-! ## Contexts and credits (R330, R337, R338) -/

/-- Free credits (STL_CTX_n.FREE). -/
def Ctx.free (x : Ctx) : Nat := x.credits - x.held
/-- A write tag's successor. -/
def nextTag (t : Word) : Word := if t = 0xFFFFFFFF then 1 else t + 1
/-- The target is fenced for the context (R337, R338). -/
def Ctx.fenced (x : Ctx) (hl2 : Bool) (a : Nat) : Bool := x.fenceAll || x.fences.contains (hl2, a)
/-- ERR is set and raises the context's error interrupt (R337). -/
def State.ctxError (s : State) (x : Nat) : State :=
  let t := s.modCtx x fun c => { c with err := true }
  if (s.ctx x).err then t
  else if (s.ctx x).owner = 1 then t.msix 8
  else if (s.ctx x).owner = 5 then t.emit .serviceIrq
  else t
/-- A request's target is this one. -/
def Req.at (r : Req) (x : Nat) (hl2 : Bool) (a : Nat) : Bool := r.ctx == x && r.hl2 == hl2 && r.station == a
/-- A posted write (R331). -/
def Req.posted (r : Req) : Bool := r.op == 3
/-- Transmitted and not answered yet, a busy one sent again included. -/
def Req.onWire (r : Req) : Bool := r.sent || r.busy
/-- Change only the requests. -/
def State.modReqs (s : State) (f : List Req → List Req) : State := s.modStl fun t => { t with reqs := f t.reqs }
/-- Requests leave their queue; the credits of posted ones return. -/
def State.dropReqs (s : State) (p : Req → Bool) : State :=
  let gone := s.stl.reqs.filter p
  let s := s.modReqs fun l => l.filter fun r => !p r
  gone.foldl (fun s r => if r.posted then s.modCtx r.ctx fun c => { c with held := c.held - 1 } else s) s
/-- Free entries of the posted-error log. -/
def State.freePel (s : State) : Option Nat := (List.range 32).find? fun i => (s.pel i).isNone
/-- Network byte of a target. -/
def hl2Net (b : Bool) : Net := if b then .hl2 else .hl1
/-- The failure of a posted write (R335, R336, R338): causes 1 to 3 leave the transmitted ones running. -/
def State.postedFail (s : State) (r : Req) (cause : BitVec 4) (far : Byte) : State :=
  let mine (q : Req) : Bool := q.posted && q.at r.ctx r.hl2 r.station && q.tag != r.tag
  let disc := s.stl.reqs.filter fun q => mine q && !q.onWire
  let open_ := 4 ≤ cause.toNat
  let s := s.dropReqs fun q => q.posted && q.at r.ctx r.hl2 r.station && (q.tag == r.tag || !q.onWire || open_)
  let e : Pel :=
    { cause := cause, outcome := open_, ctx := r.ctx, hl2 := r.hl2, station := r.station, tag := r.tag, addr := r.addr
      cycle := (s.net (hl2Net r.hl2)).cycle, discFirst := ((disc.map (·.tag)).head?).getD 0
      discCount := BitVec.ofNat 16 disc.length, far := far }
  let slot := s.freePel
  let s := match slot with
    | some i => s.modStl fun t => { t with log := Tbl.set (fun _ => none) t.log i (some e) }
    | none => (s.modStl fun t => { t with lost := t.lost + 1 }).modCtx r.ctx fun c =>
        { c with lost := satInc c.lost, lostAt := c.lostAt ++ [(r.hl2, r.station)] }
  let s := s.modCtx r.ctx fun c =>
    if c.fences.contains (r.hl2, r.station) then c
    else if 8 ≤ c.fences.length then { c with fenceAll := true }
    else { c with fences := c.fences ++ [(r.hl2, r.station)] }
  (s.ctxError r.ctx).raise srcStile 0x7010 3
    ([BitVec.ofNat 8 r.ctx, cause.setWidth 8, BitVec.ofNat 8 (netPort (hl2Net r.hl2)), BitVec.ofNat 8 r.station] ++ le 4 r.tag
      ++ leBytes 2 disc.length ++ [far, if slot.isSome then 1 else 2])
/-- The fences of a context that no entry, logged or lost, holds any more lift; FENCE_ALL when none is left at all. -/
def State.liftFences (s : State) (x : Nat) : State :=
  let logged := (List.range 32).filterMap fun i => (s.pel i).bind fun e => if e.ctx = x then some (e.hl2, e.station) else none
  s.modCtx x fun c =>
    let left := logged ++ c.lostAt
    { c with fences := c.fences.filter left.contains, fenceAll := c.fenceAll && !left.isEmpty }

/-! ## Completion of transfers -/

/-- RESULT of STILE_TRANSFER (R80): bytes transferred, write tag, far-side status. -/
def transferResult (len : Nat) (tag : Word) (far : Nat) : Bytes := leBytes 4 len ++ le 4 tag ++ leBytes 2 far
/-- A transfer completes; in a mode that its Modes column lacks, with WRONG_MODE (R69). -/
def State.transferDone (s : State) (h : Quad) (st : BitVec 16) (len : Nat) (tag : Word) (far : Nat) : State :=
  if (s.entry h).any s.commitMode then s.complete h st (transferResult len tag far) else s.fail h stWrongMode
/-- A window load ends without data (R344): 0xFF bytes, ERR, code 0x7012; kind 1 without answer, 2 at the read timeout. -/
def State.loadFailed (s : State) (r : Req) (task win kind : Nat) : State :=
  let s := s.modTask task fun k => { k with loaded := List.replicate r.len 0xFF }
  (s.ctxError r.ctx).raise srcStile 0x7012 3
    ([BitVec.ofNat 8 kind, BitVec.ofNat 8 r.ctx, BitVec.ofNat 8 win, 0] ++ le 8 r.addr)
/-- A read or non-posted write ends with a far-side error. -/
def State.reqError (s : State) (r : Req) (st : BitVec 16) (far : Nat) : State :=
  let s := s.modReqs fun l => l.filter fun q => q != r
  match r.h, r.win with
  | some h, _ => s.transferDone h st 0 0 far
  | none, some (t, w, _) => if r.op = 1 then s.loadFailed r t w 1 else s
  | none, none => s
/-- A stalled read (R334): of a ring pair it is aborted with RETRY; a window load is issued again, as a new read, in the
next slot (R344). -/
def State.stall (s : State) (r : Req) (far : Nat) : State :=
  if r.win.isSome then s.modStl fun t => { t with
    txTag := nextTag t.txTag
    reqs := t.reqs.map fun q => if q = r then { q with sent := false, busy := q.busy || far == 3, again := true, tag := t.txTag } else q }
  else s.reqError r stRetry far
/-- A network has left integration: remote reads and writes that have not been sent are refused as R329 says of an access
while it is not integrated, a window load among them ends without an answer (R344). -/
def State.unsentLost (s : State) (n : Net) : State :=
  (s.stl.reqs.filter fun r => r.hl2 == (n == .hl2) && !r.posted && !r.onWire).foldl (fun s r =>
    let s := s.modReqs fun l => l.filter fun q => q != r
    match r.h, r.win with
    | some h, _ => s.refuse h 0x91
    | none, some (t, w, _) => if r.op = 1 then s.loadFailed r t w 1 else s
    | none, none => s) s
/-- The failure of everything a context has for a target that does not answer any more: posted writes with a cause, reads
and writes with a far-side status. -/
def State.targetLost (s : State) (hl2 : Bool) (a : Nat) (cause : BitVec 4) (far : Byte) (others : Bool) : State :=
  let ctxs := ((s.stl.reqs.filter fun r => r.hl2 == hl2 && r.station == a).map (·.ctx)).eraseDups
  ctxs.foldl (fun s x =>
    let s := match s.stl.reqs.find? fun r => r.posted && r.at x hl2 a with
      | some r => s.postedFail r cause far
      | none => s
    if others then
      (s.stl.reqs.filter fun r => !r.posted && r.at x hl2 a).foldl (fun s r => s.reqError r stRemoteError far.toNat) s
    else s) s

/-! ## Remote requests and answers (R331, R333) -/

/-- A request enters the queue of its target. -/
def State.request (s : State) (r : Req) : State :=
  let s := if r.posted then s.modCtx r.ctx fun c => { c with held := c.held + 1, tag := nextTag c.tag }
    else s.modStl fun t => { t with txTag := nextTag t.txTag }
  s.modReqs fun l => l ++ [r]
/-- The station stands in the network's schedule (R329). -/
def State.inSchedule (s : State) (n : Net) (a : Nat) : Bool := ((s.net n).sched.map fun c => c.stations.contains a).getD false
/-- The station is declared failed (R131). -/
def State.stationFailed (s : State) (n : Net) (a : Nat) : Bool := (s.station n a).state.toNat ≥ 2
/-- A request as a record (R331). -/
def Req.record (r : Req) : Bytes :=
  [r.op, 0] ++ beBytes 2 r.len ++ beBytes 4 r.tag.toNat ++ [BitVec.ofNat 8 r.ctx] ++ List.replicate 7 0 ++ beBytes 8 r.addr.toNat
    ++ (if r.op = 1 then [] else r.data)
/-- An answer record (R333). -/
def State.answer (s : State) (n : Net) (a : Nat) (x : Answer) : State :=
  match s.stl.reqs.find? fun r => r.at x.context.val (n == .hl2) a && r.tag == x.tag && r.op + 0x80 == x.op && r.onWire with
  | none => s
  | some r =>
    let far := x.status.toNat
    if far = 0 then
      if r.posted then s.dropReqs fun q => q == r
      else
        let s := s.modReqs fun l => l.filter fun q => q != r
        match r.h, r.win with
        | some h, _ =>
          let s := if r.op = 1 then s.output (handleRing h) r.desc (x.data.take r.len) else s
          s.transferDone h stOk (if r.op = 1 then Nat.min r.len x.data.length else r.len) 0 0
        | none, some (t, _, _) => if r.op = 1 then s.modTask t fun k => { k with loaded := padTo r.len x.data } else s
        | none, none => s
    else if far = 3 then
      if r.posted then
        let s := s.modReqs fun l => l.map fun q => if q = r then { q with sent := false, busy := true } else q
        (s.stl.reqs.filter fun q => q.op == 1 && q.at r.ctx r.hl2 r.station && q.win.isNone).foldl (fun s q => s.stall q 3) s
      else s.stall r 3
    else if r.posted then s.postedFail r (if far = 1 then 1 else if far = 2 then 2 else 3) x.status
    else s.reqError r stRemoteError far
/-- The records of a remote-access message; `fuel` bounds their number. -/
def records : Nat → Bytes → List Answer
  | 0, _ => []
  | n + 1, b =>
    if b.length < 24 then []
    else
      let len := if byteAt b 0 = 0x81 ∧ byteAt b 1 = 0 then beAt b 2 2 else 0
      let x : Answer := ⟨byteAt b 0, byteAt b 1, BitVec.ofNat 32 (beAt b 4 4), Fin.ofNat 128 (byteAt b 8).toNat, sub b 24 len⟩
      x :: records n (b.drop (24 + len))
/-- A whole acyclic message (R331): remote-access answers, a routed message, or a reserved identifier. -/
def State.acyclicMessage (s : State) (n : Net) (src : Byte) (ident : BitVec 16) (m : Bytes) : State :=
  if ident.toNat < 0xFE00 then (s.route (netPort n) (BitVec.ofNat 32 (src.toNat * 65536 + ident.toNat)) m).1
  else if ident.toNat < 0xFF00 then (records 32 m).foldl (fun s x => s.answer n src.toNat x) s
  else s
/-- An acyclic frame's payload (R266, R331): fragments in order make a message; a missing one loses it. -/
def State.acyclicIn (s : State) (n : Net) (src : Byte) (p : Bytes) : State :=
  let hl2 := n == .hl2
  let ident := BitVec.ofNat 16 (beAt p 2 2)
  let ix := (byteAt p 1).toNat % 128
  let last := bitAt p 1 7
  if byteAt p 0 ≠ (s.net n).addr ∧ byteAt p 0 ≠ 255 then s
  else
    let mine (x : Bool × Byte × BitVec 16 × Nat × Bytes) : Bool := x.1 == hl2 && x.2.1 == src
    let before := s.stl.partial_.find? mine
    let s := s.modStl fun t => { t with partial_ := t.partial_.filter fun x => !mine x }
    let sofar : Option Bytes := match before with
      | some (_, _, i, k, b) => if ix = 0 then some [] else if i = ident ∧ k = ix then some b else none
      | none => if ix = 0 then some [] else none
    match sofar with
    | none => s
    | some b =>
      let b := b ++ p.drop 4
      if last then s.acyclicMessage n src ident b
      else s.modStl fun t => { t with partial_ := t.partial_ ++ [(hl2, src, ident, ix + 1, b)] }

/-! ## Sending on a network (R331, R333) -/

/-- Nothing of the same context and target stands before the request that holds it back (R333): acceptance order, and for
what is not posted every earlier posted write answered, ended or discarded; a stalled window load is passed (R334). -/
def State.sendable (s : State) (r : Req) : Bool :=
  let before := (s.stl.reqs.takeWhile fun q => q != r).filter fun q => q.at r.ctx r.hl2 r.station
  !r.sent && (if r.posted then before.all fun q => q.posted || q.sent || q.again else !before.any Req.posted)
/-- The ACYCLIC payloads of a message: header bytes and `room − 4` message bytes each (R266). -/
def fragments (room : Nat) (dst : Byte) (ident : Nat) (fuel ix : Nat) (m : Bytes) : List Bytes :=
  match fuel with
  | 0 => []
  | k + 1 =>
    let n := room - 4
    let last := decide (m.length ≤ n)
    ([dst, BitVec.ofNat 8 (ix % 128 + if last then 128 else 0)] ++ beBytes 2 ident ++ m.take n) ::
      (if last ∨ n = 0 then [] else fragments room dst ident k (ix + 1) (m.drop n))
/-- The requests that one message takes: for the first one's station, in order, 32 records and one frame at most. -/
def packed (room : Nat) : Nat → Nat → List Req → List Req
  | 0, _, _ => []
  | _, _, [] => []
  | n + 1, used, r :: l =>
    if used + r.record.length + 4 ≤ room then r :: packed room n (used + r.record.length) l else []
/-- The request is marked as sent in this cycle; a posted write that is sent again keeps its first cycle. -/
def State.markSent (s : State) (n : Net) (l : List Req) : State :=
  let c := (s.net n).cycle
  s.modReqs fun qs => qs.map fun q => if l.contains q then { q with sent := true, cycle := if q.busy && q.posted then q.cycle else c } else q
/-- The next remote-access message of a network: its fragments wait for their slots, the requests are marked. -/
def State.packRequests (s : State) (n : Net) (room : Nat) : State :=
  let hl2 := n == .hl2
  match s.stl.reqs.find? fun r => r.hl2 == hl2 && s.sendable r with
  | none => s
  | some r =>
    let l := s.stl.reqs.filter fun q => q.hl2 == hl2 && q.station == r.station && s.sendable q
    let p := packed room 32 0 l
    let p := if p.isEmpty then [r] else p
    let ident := 0xFE00 + s.stl.msgSeq.toNat
    let f := fragments room (BitVec.ofNat 8 r.station) ident 128 0 (p.flatMap Req.record)
    (s.modStl fun t => { t with
      msgSeq := t.msgSeq + 1, frags := t.frags ++ f.map fun b => (hl2, b, some (r.ctx, r.tag)) }).markSent n p
/-- The next routed message of an acyclic port. -/
def State.packMessage (s : State) (n : Net) (room : Nat) : State :=
  match (s.port (netPort n)).queue with
  | [] => s
  | (i, m, _) :: q =>
    let f := fragments room ((i >>> 16).setWidth 8) (i.toNat % 65536) 4096 0 m
    (s.modPort (netPort n) fun p => { p with queue := q }).modStl fun t => { t with
      frags := t.frags ++ f.map fun b => (n == .hl2, b, none) }
/-- The payload of an own ACYCLIC slot with room for `room` bytes: a fragment that waits, as hub the queued requests, then
routed messages (log entry 29). -/
def State.acyclicOut (s : State) (n : Net) (room : Nat) (hub : Bool) : State × Option Bytes :=
  let waits (s : State) : Bool := s.stl.frags.any fun f => f.1 == (n == .hl2)
  let s := if waits s ∨ !hub then s else s.packRequests n room
  let s := if waits s then s else s.packMessage n room
  match s.stl.frags.find? fun f => f.1 == (n == .hl2) with
  | none => (s, none)
  | some f => (s.modStl fun t => { t with frags := t.frags.erase f }, some f.2.1)

end Sys2Proof.Machine
end

