-- ==== Sys2Proof/Machine/Stile.lean ====
section
/-! DEFINITION. The commands of Stile: transfers, log, windows, semaphores, ports (14_stile_bridge.md, R399). -/

namespace Sys2Proof.Machine

/-! ## STILE_TRANSFER and REMOTE_XFER (R329, R330, R342) -/

/-- The target is guarded by a semaphore that another context holds (R342). -/
def State.guarded (s : State) (n : Net) (a x : Nat) : Bool :=
  s.cfg.cur.semaphores.zipIdx.any fun (c, k) =>
    c.net.toNat == netIx n && c.station == a && (s.sem k).held && (s.sem k).owner.toNat != x
/-- A remote access of a transfer to a network's port; a read behind a posted write that is being sent again is stalled
(R334). -/
def State.remoteTransfer (s : State) (e : JEntry) (b : Buf) (n : Net) : State :=
  let h := e.handle
  let x := e.context
  let op := (byteAt e.args 2).toNat
  let a := leAt e.args 4 4 / 65536 % 256
  let desc := sub e.args 16 16
  let len := descLen desc
  let addr : Quad := BitVec.ofNat 64 (leAt e.args 8 8)
  let hl2 := n == .hl2
  if s.guarded n a x then s.transferDone h stBusy 0 0 0
  else if !s.inSchedule n a then s.transferDone h stNoRoute 0 0 0
  else if !(s.net n).isIntegrated then s.refuse h 0x91
  else if op = 2 ∧ (s.ctx x).fenced hl2 a then s.transferDone h stFenced 0 0 0
  else if op = 2 ∧ (s.ctx x).free = 0 then s
  else
    let data := if op = 0 then (if s.outReach e.ring desc (b != .unreachable) then some [] else none) else s.input e.ring desc b
    match data with
    | none => s.fail h stBufferFault
    | some d =>
      let r : Req := { ctx := x, hl2 := hl2, station := a, op := BitVec.ofNat 8 (op + 1), tag := if op = 2 then (s.ctx x).tag else s.stl.txTag
                       addr := addr, len := len, data := d, h := if op = 2 then none else some h, sent := false, cycle := 0
                       busy := false, desc := desc, win := none }
      let s := (if op = 2 then s else s.executing h).request r
      let s := if op = 2 then s.transferDone h stOk len r.tag 0 else s
      if s.stationFailed n a then (if op = 2 then s.postedFail r 6 0xFE else s.reqError r stRemoteError 0xFE)
      else if op = 0 ∧ (s.stl.reqs.any fun q => q.posted && q.busy && q.at x hl2 a) then s.stall r 3 else s
/-- A message of a transfer to a CAN, RS-485 or UDP port. -/
def State.sendTransfer (s : State) (e : JEntry) (b : Buf) (port : Nat) : State :=
  let h := e.handle
  let ident := BitVec.ofNat 32 (leAt e.args 4 4)
  let anyEnd : Bool := match s.cfg.cur.endpoints[ident.toNat % 256]? with
    | some x => x.remotePort == 0 || allZero x.remote
    | none => true
  if port == 6 && anyEnd then s.refuse h 0x92
  else
    match s.input e.ring (sub e.args 16 16) b with
    | none => s.fail h stBufferFault
    | some m =>
      if s.longestFor port ident < m.length then s.fail h stRefused
      else if 64 ≤ (s.port port).queue.length then s
      else
        let m := if port < 4 ∧ ident.getLsbD 30 then fdPad m else m
        (s.executing h).modPort port fun p => { p with queue := p.queue ++ [(ident, m, some h)] }
/-- A transfer on the mailbox port: the oldest message read, or a message routed. -/
def State.boxTransfer (s : State) (e : JEntry) (b : Buf) : State :=
  let h := e.handle
  let x := e.context
  let desc := sub e.args 16 16
  if byteAt e.args 2 = 0 then
    match Tbl.get (fun _ => []) s.stl.boxes x with
    | [] => s.fail h stNotFound
    | m :: q =>
      if !s.outReach e.ring desc (b != .unreachable) then s.fail h stBufferFault
      else
        let m := m.take (descLen desc)
        ((s.modStl fun t => { t with boxes := Tbl.set (fun _ => []) t.boxes x q }).output e.ring desc m).transferDone h stOk m.length 0 0
  else
    match s.input e.ring desc b with
    | none => s.fail h stBufferFault
    | some m =>
      let (s, found) := s.route 9 (BitVec.ofNat 32 x) m
      if found then s.transferDone h stOk m.length 0 0 else s.transferDone h stNoRoute 0 0 0
/-- STILE_TRANSFER and REMOTE_XFER on their entry; a posted write without a credit, or a message without a place in its
port's queue, waits (R330; log entry 28). -/
def State.doTransfer (s : State) (e : JEntry) (b : Buf) : State :=
  if !s.stileUp then s
  else
    let port := (byteAt e.args 3).toNat
    match portNet port with
    | some n => s.remoteTransfer e b n
    | none => if port = 9 then s.boxTransfer e b else s.sendTransfer e b port
/-- STILE_TRANSFER. -/
def effStileTransfer (h : Quad) (b : Buf) (s : State) : State := s.begin h 0x2080 false fun e => s.doTransfer e b
/-- STILE_TRANSFER. -/
def execStileTransfer (h : Quad) (b : Buf) (s : State) : Res := .next (effStileTransfer h b s)
/-- REMOTE_XFER (R82): the context is 116 plus the ring pair. -/
def effRemoteXfer (h : Quad) (b : Buf) (s : State) : State := s.begin h 0x2080 true fun e => s.doTransfer e b
/-- REMOTE_XFER. -/
def execRemoteXfer (h : Quad) (b : Buf) (s : State) : Res := .next (effRemoteXfer h b s)

/-- STILE_LOG_ACK (R338). -/
def effStileLogAck (h : Quad) (s : State) : State :=
  s.begin h 0x2081 false fun e =>
    let x := e.context
    let i := (byteAt e.args 2).toNat
    let lost := leBytes 4 (s.ctx x).lost.toNat
    if i = 0xFF then ((s.modCtx x fun c => { c with lost := 0, lostAt := [] }).liftFences x).complete h stOk lost
    else if (s.pel i).any fun p => p.ctx == x then
      ((s.modStl fun t => { t with log := Tbl.set (fun _ => none) t.log i none }).liftFences x).complete h stOk lost
    else s.fail h stNotFound
/-- STILE_LOG_ACK. -/
def execStileLogAck (h : Quad) (s : State) : Res := .next (effStileLogAck h s)

/-! ## Answers and limits (R333, R334, R344) -/

/-- REMOTE_ANSWER (R333). -/
def effRemoteAnswer (n : Net) (station : Byte) (a : Answer) (s : State) : State :=
  if s.stileUp then s.answer n station.toNat a else s
/-- REMOTE_ANSWER. -/
def execRemoteAnswer (n : Net) (station : Byte) (a : Answer) (s : State) : Res := .next (effRemoteAnswer n station a s)
/-- The response limit of a station in network cycles (R332). -/
def State.respLimit (s : State) (n : Net) (a : Nat) : Nat := ((s.cfg.cur.station? n a).map (·.respLimit)).getD 8
/-- RESPONSE_LIMIT (R333): counted from the cycle in which the request was sent; a network that is not integrated counts no
cycles, and the command's own word stands. -/
def effResponseLimit (n : Net) (station : Byte) (x : Fin 128) (tag : Word) (s : State) : State :=
  match s.stl.reqs.find? fun r => r.at x.val (n == .hl2) station.toNat && r.tag == tag && r.onWire with
  | none => s
  | some r =>
    if !s.stileUp ∨ ((s.net n).isIntegrated ∧ ((s.net n).cycle - r.cycle).toNat < s.respLimit n station.toNat) then s
    else if r.posted then s.postedFail r (if r.busy then 5 else 4) (if r.busy then 3 else 0xFF)
    else if r.op = 1 then s.stall r 0xFF
    else
      let s := s.modReqs fun l => l.filter fun q => q != r
      match r.h with
      | some h => if (s.entry h).any s.commitMode then s.fail h stTimeout else s.fail h stWrongMode
      | none => s
/-- RESPONSE_LIMIT. -/
def execResponseLimit (n : Net) (station : Byte) (x : Fin 128) (tag : Word) (s : State) : Res :=
  .next (effResponseLimit n station x tag s)
/-- Read timeout of a context in ms (R344). -/
def State.readTimeout (s : State) (x : Nat) : Nat := ((s.cfg.cur.contexts[x]?).map (·.timeoutMs)).getD 20
/-- READ_TIMEOUT (R344): a window load that has waited its read timeout ends with 0xFF bytes. -/
def effReadTimeout (x : Fin 128) (s : State) : State :=
  let expired (r : Req) : Bool := r.ctx == x.val && r.op == 1 &&
    match r.win with
    | some (_, _, t) => decide (t + s.readTimeout x * countsMs ≤ s.now)
    | none => false
  match s.stl.reqs.find? expired with
  | none => s
  | some r =>
    if !s.stileUp then s else
    match r.win with
    | some (t, w, _) => (s.modReqs fun l => l.filter fun q => q != r).loadFailed r t w (if r.busy then 2 else 1)
    | none => s
/-- READ_TIMEOUT. -/
def execReadTimeout (x : Fin 128) (s : State) : Res := .next (effReadTimeout x s)

/-! ## Remote windows (R343, R344) -/

/-- Network of a window. -/
def WindowCfg.netOf (w : WindowCfg) : Net := if w.net = 1 then .hl2 else .hl1
/-- A request that a window access makes. -/
def windowReq (s : State) (t : Nat) (w : WindowCfg) (i : Nat) (addr : Quad) (op : Byte) (len : Nat) (d : Bytes) : Req :=
  { ctx := w.ctx, hl2 := w.netOf == .hl2, station := w.station, op := op, tag := if op = 3 then (s.ctx w.ctx).tag else s.stl.txTag
    addr := BitVec.ofNat 64 (w.remote + (addr.toNat - (0x0200000000 + w.base * 65536))), len := len, data := d, h := none
    sent := false, cycle := 0, busy := false, desc := [], win := some (t, i, s.now) }
/-- The task's body runs on the Control Pair. -/
def State.windowing (s : State) (t : Nat) : Bool :=
  s.domOn 2 && s.stileUp && decide (1 ≤ t) && (s.task t).running && !(s.task t).held && s.cpr.recovery != 1
/-- REMOTE_WINDOW_LOAD (R344): one remote read; an address outside the task's windows is a refused access (R192). -/
def effRemoteWindowLoad (t : Fin 17) (addr : Quad) (size : Nat) (s : State) : State :=
  if !s.windowing t then s
  else
    match s.windowAt (partOfTask t) addr size with
    | none => s.programRefused t 0 addr
    | some (w, i) =>
      let r := windowReq s t w i addr 1 size []
      if s.inSchedule w.netOf w.station ∧ (s.net w.netOf).isIntegrated ∧ !s.stationFailed w.netOf w.station then s.request r
      else s.loadFailed r t i 1
/-- REMOTE_WINDOW_LOAD. -/
def execRemoteWindowLoad (t : Fin 17) (addr : Quad) (size : Nat) (s : State) : Res := .next (effRemoteWindowLoad t addr size s)
/-- REMOTE_WINDOW_STORE (R344): posted or not as the window says; without a credit the lane stalls, so nothing has happened
yet. -/
def effRemoteWindowStore (t : Fin 17) (addr : Quad) (data : Bytes) (s : State) : State :=
  if !s.windowing t then s
  else
    match s.windowAt (partOfTask t) addr data.length with
    | none => s.programRefused t 1 addr
    | some (w, i) =>
      let r := windowReq s t w i addr (if w.posted then 3 else 2) data.length data
      if w.posted ∧ (s.ctx w.ctx).fenced r.hl2 w.station then
        s.raise srcStile 0x7012 3 ([3, BitVec.ofNat 8 w.ctx, BitVec.ofNat 8 i, 0] ++ le 8 r.addr)
      else if w.posted ∧ (s.ctx w.ctx).free = 0 then s
      else
        let s := s.request r
        let lost := s.stationFailed w.netOf w.station
        let out := !(s.inSchedule w.netOf w.station && (s.net w.netOf).isIntegrated)
        if !lost ∧ !out then s
        else if w.posted then s.postedFail r (if lost then 6 else 7) (if lost then 0xFE else 0xFF)
        else s.reqError r stRemoteError 0xFE
/-- REMOTE_WINDOW_STORE. -/
def execRemoteWindowStore (t : Fin 17) (addr : Quad) (data : Bytes) (s : State) : Res :=
  .next (effRemoteWindowStore t addr data s)

/-! ## Ports (R323, R325, R329, R345) -/

/-- The identifier of a received message in its port's encoding (R322). -/
def portIdent (port : Nat) (ident : Word) (m : Bytes) : Word :=
  if port < 4 then ident
  else if port < 6 then (byteAt m 0).setWidth 32
  else if port = 6 then ident &&& 0xFF
  else if port < 9 then ident &&& 0xFFFFFF
  else ident &&& 0x7F
/-- MESSAGE_RECEIVED (R325). On the acyclic ports messages arrive as frames, on the mailbox port by transfer; both may be
given here whole. -/
def effMessageReceived (port : Fin 10) (ident : Word) (m : Bytes) (s : State) : State :=
  if s.stileUp then (s.route port (portIdent port ident m) m).1 else s
/-- MESSAGE_RECEIVED. -/
def execMessageReceived (port : Fin 10) (ident : Word) (m : Bytes) (s : State) : Res := .next (effMessageReceived port ident m s)
/-- The message that a port sends next: on CAN the lowest identifier, in order among equal ones (R345). -/
def StlPort.next (p : StlPort) (can : Bool) : Option (Word × Bytes × Option Quad) :=
  if can then p.queue.find? fun a => p.queue.all fun b => a.1.toNat % 2 ^ 29 ≤ b.1.toNat % 2 ^ 29 else p.queue.head?
/-- MESSAGE_TRANSMITTED (R329): a port has sent its next message. -/
def effMessageTransmitted (port : Fin 10) (s : State) : State :=
  let p := s.port port
  if !s.stileUp ∨ 7 ≤ port.val ∨ p.state = 3 then s
  else
    match p.next (port.val < 4) with
    | none => s
    | some (i, m, h) =>
      let s := (s.modPort port fun p => { p with queue := p.queue.erase (i, m, h) }).emit (.message port i m)
      match h with
      | some h => s.transferDone h stOk m.length 0 0
      | none => s
/-- MESSAGE_TRANSMITTED. -/
def execMessageTransmitted (port : Fin 10) (s : State) : Res := .next (effMessageTransmitted port s)
/-- BUS_OFF (R345): sends of transfers that wait complete with REMOTE_ERROR; their far-side status is open (log entry 3). -/
def effBusOff (port : Fin 4) (s : State) : State :=
  if s.stileUp then
    let q := (s.port port).queue
    let s := s.modPort port fun p => { p with state := 3, tec := 0xFF, queue := p.queue.filter fun x => x.2.2.isNone }
    let far := (Config.freeBits s.free 16).toNat
    (q.filterMap (·.2.2)).foldl (fun s h => s.transferDone h stRemoteError 0 0 far) s.bump
  else s
/-- BUS_OFF. -/
def execBusOff (port : Fin 4) (s : State) : Res := .next (effBusOff port s)
/-- BUS_OFF_RECOVERY (R345): as ISO 11898-1 provides; both error counts begin again at 0. -/
def effBusOffRecovery (port : Fin 4) (s : State) : State :=
  if s.stileUp ∧ (s.port port).state = 3 then s.modPort port fun p => { p with state := 1, tec := 0, recErr := 0 } else s
/-- BUS_OFF_RECOVERY. -/
def execBusOffRecovery (port : Fin 4) (s : State) : Res := .next (effBusOffRecovery port s)

/-! ## Semaphores (R341, R342, R434) -/

/-- The party owns the context (R328, R341). -/
def State.ownsCtx (s : State) (p : Party) (x : Nat) : Bool :=
  let o := (s.ctx x).owner
  match p with
  | .pcie => o == 1
  | .legacy => o == 2
  | .part0 => o == 3
  | .part1 => o == 4
  | .service => o == 5
  | .runtime => false
/-- A write to STL_SEM_k by a party for a context: gated, refused, or allowed (R434). -/
def State.semWrite (s : State) (p : Party) (k x : Nat) (v : Word) (f : State → State) : State :=
  let at_ := 0x6100 + 4 * k
  if !s.stileUp then s
  else if p = .legacy ∧ !s.sys.legacyWrite then s.refuseWrite p 3 at_ v
  else if (p = .part0 ∨ p = .part1) ∧ !s.sys.progSem then s.forbid p 1 at_ v
  else if s.ownsCtx p x then f s else s
/-- Acquire a semaphore (R341). -/
def State.semAcquire (s : State) (k x : Nat) : State :=
  if (s.sem k).held then s else s.modSem k fun _ => ⟨BitVec.ofNat 7 x, true, s.now⟩
/-- Release a semaphore held by the context (R341). -/
def State.semRelease (s : State) (k x : Nat) : State :=
  if (s.sem k).held ∧ (s.sem k).owner.toNat = x then s.modSem k fun m => { m with held := false } else s
/-- SEMAPHORE_ACQUIRE. -/
def effSemaphoreAcquire (p : Party) (k : Fin 64) (x : Fin 128) (s : State) : State :=
  s.semWrite p k x (BitVec.ofNat 32 (x * 256 + 65536)) fun s => s.semAcquire k x
/-- SEMAPHORE_ACQUIRE. -/
def execSemaphoreAcquire (p : Party) (k : Fin 64) (x : Fin 128) (s : State) : Res := .next (effSemaphoreAcquire p k x s)
/-- SEMAPHORE_RELEASE. -/
def effSemaphoreRelease (p : Party) (k : Fin 64) (x : Fin 128) (s : State) : State :=
  s.semWrite p k x (BitVec.ofNat 32 (x * 256 + 131072)) fun s => s.semRelease k x
/-- SEMAPHORE_RELEASE. -/
def execSemaphoreRelease (p : Party) (k : Fin 64) (x : Fin 128) (s : State) : Res := .next (effSemaphoreRelease p k x s)
/-- Hold limit of a semaphore in ms (R342). -/
def State.holdLimit (s : State) (k : Nat) : Nat :=
  match s.cfg.cur.semaphores[k]? with
  | some c => if c.holdMs = 0 then 100 else c.holdMs
  | none => 100
/-- SEMAPHORE_HOLD_LIMIT (R342). -/
def effSemaphoreHoldLimit (k : Fin 64) (s : State) : State :=
  let m := s.sem k
  if s.stileUp ∧ m.held ∧ m.since + s.holdLimit k * countsMs < s.now then
    (s.modSem k fun m => { m with held := false }).raise srcStile 0x7011 3
      ([BitVec.ofNat 8 k, m.owner.setWidth 8, 0, 0] ++ leBytes 4 ((s.now - m.since) / countsMs))
  else s
/-- SEMAPHORE_HOLD_LIMIT. -/
def execSemaphoreHoldLimit (k : Fin 64) (s : State) : Res := .next (effSemaphoreHoldLimit k s)

/-! ## The service firmware's watchdog (R399) -/

/-- Counts that a restart of the Service Processor takes: at most 2 s (R399), open within that (log entry 83). -/
def restartCounts (k : Nat) : Nat := (Config.freeBits k 30).toNat % 1000000001
/-- The Service Processor restarts (R399): transfers that execute complete with HW_FAULT, posted writes in flight fail with
cause 0x4; the restart is recorded. Routing, transfers and time samples rest until it is back. -/
def State.spRestart (s : State) : State :=
  let s := (s.modStl fun t => { t with backAt := s.now + restartCounts s.free }).bump
  let hs := (s.journal.filter fun e => e.opcode == 0x2080 && e.phase == .executing).map (·.handle)
  let s := s.modReqs fun l => l.filter fun r => r.h.isNone
  let s := s.modStl fun t => { t with
    ports := Tbl.updAll (fun _ => StlPort.reset) (fun _ p => { p with queue := p.queue.filter fun x => x.2.2.isNone }) (List.range 10) t.ports
    spRestarts := satInc t.spRestarts }
  let s := hs.foldl (fun s h => s.fail h stHwFault) s
  let live := s.stl.reqs.filter fun r => r.posted && r.onWire
  let s := live.foldl (fun s r => if s.stl.reqs.contains r then s.postedFail r 4 0xFF else s) s
  s.raise srcSup 0x7020 4 [1, s.stl.spRestarts]
/-- SERVICE_WATCHDOG_EXPIRY (R399). -/
def effServiceWatchdogExpiry (s : State) : State := if s.stileUp then s.spRestart else s
/-- SERVICE_WATCHDOG_EXPIRY. -/
def execServiceWatchdogExpiry (s : State) : Res := .next (effServiceWatchdogExpiry s)

end Sys2Proof.Machine
end

