-- ==== Sys2Proof/Machine/HlOps.lean ====
section
/-! DEFINITION. Heathline: frames, checks, windows, what a controller sends, forwards and counts
(11_heathline_frames_and_schedule.md, 12_heathline_startup_and_time.md). -/

namespace Sys2Proof.Machine

/-! ## Frames (R264 to R266) -/

/-- TYPE of a frame. -/
def hType (f : Bytes) : Nat := (byteAt f 0).toNat / 16
/-- GEN of a frame. -/
def hGen (f : Bytes) : Nat := (byteAt f 0).toNat % 16
/-- SLOT, CYCLE, SRC, EPOCH and LEN of a frame. -/
def hSlot (f : Bytes) : Nat := beAt f 2 2
def hCycle (f : Bytes) : Word := BitVec.ofNat 32 (beAt f 4 4)
def hSrc (f : Bytes) : Byte := byteAt f 8
def hEpoch (f : Bytes) : Byte := byteAt f 9
def hLen (f : Bytes) : Nat := beAt f 12 2
/-- TRAILER, CHANNEL, OUTBOUND and READY of a frame. -/
def hTrailer (f : Bytes) : Bool := bitAt f 11 0
def hChanB (f : Bytes) : Bool := bitAt f 11 1
def hOut (f : Bytes) : Bool := bitAt f 11 2
def hReady (f : Bytes) : Bool := bitAt f 11 3
/-- Payload and trailer. -/
def hBody (f : Bytes) : Bytes := sub f 16 (hLen f + if hTrailer f then 8 else 0)
/-- HCRC is correct (R265). -/
def hdrOk (f : Bytes) : Bool := decide (16 ≤ f.length) && crc16 (f.take 14) == BitVec.ofNat 16 (beAt f 14 2)
/-- The frame is complete and the frame CRC is correct (R265). -/
def crcOk (f : Bytes) : Bool :=
  let n := f.length - 4
  decide (f.length = 20 + hLen f + if hTrailer f then 8 else 0) && crc32 (f.take n) == BitVec.ofNat 32 (beAt f n 4)
/-- A frame (R264, R265): header fields, payload length, payload and trailer. -/
def frameOf (ty gen : Nat) (netId : Byte) (slot : Nat) (cycle : Word) (src epoch : Byte)
    (trailer chanB out ready : Bool) (len : Nat) (body : Bytes) : Bytes :=
  let h := [BitVec.ofNat 8 (ty * 16 + gen), netId] ++ beBytes 2 slot ++ beBytes 4 cycle.toNat ++ [src, epoch]
    ++ beBytes 2 (maskOf [trailer, chanB, out, ready]) ++ beBytes 2 len
  let b := h ++ beBytes 2 (crc16 h).toNat ++ body
  b ++ beBytes 4 (crc32 b).toNat
/-- A frame with OUTBOUND set and a payload put in place of its own, checks recomputed (R262). -/
def relayed (f : Bytes) (body : Bytes) : Bytes :=
  let h := patch (f.take 14) 11 [byteAt f 11 ||| 4]
  let h := patch h 12 (beBytes 2 body.length)
  let b := h ++ beBytes 2 (crc16 h).toNat ++ body
  b ++ beBytes 4 (crc32 b).toNat
/-- GEN and NET_ID are the network's (R273, R277). -/
def HlNet.mine (x : HlNet) (f : Bytes) : Bool := hGen f == x.gen.toNat && byteAt f 1 == x.netId
/-- Epoch `a` is higher than epoch `b` (R296). -/
def higher (a b : Byte) : Bool := decide (1 ≤ (a - b).toNat ∧ (a - b).toNat ≤ 127)
/-- A time in seconds and nanoseconds, most significant byte first. -/
def timeBytes (t : Int) : Bytes := beBytes 8 (t.toNat / 1000000000) ++ beBytes 4 (t.toNat % 1000000000)
/-- The time that stands in a payload. -/
def timeAt (b : Bytes) (o : Nat) : Int := (beAt b o 8 * 1000000000 + beAt b (o + 8) 4 : Nat)

/-! ## Places in the cycle (R268) -/

/-- SCHEDULE_ID of the schedule in force (HLA_SCHED). -/
def HlNet.schedId (x : HlNet) : Word := match x.sched with | some c => c.ident | none => 0
/-- G of the generation. -/
def HlNet.guard (x : HlNet) : Nat := guardNs x.gen.toNat
/-- Channel of a port, port 2 of its channel. -/
def portB (p : Fin 4) : Bool := decide (2 ≤ p.val)
def secondPort (p : Fin 4) : Bool := decide (p.val % 2 = 1)
/-- The port number of a channel. -/
def portOf (chanB second : Bool) : Nat := (if chanB then 2 else 0) + if second then 1 else 0
/-- D of a channel: the hub's is 0, and so is one that is not held (R261, R278). -/
def HlNet.d (x : HlNet) (chanB : Bool) : Nat := if x.hub then 0 else ((if chanB then x.dB else x.dA).getD 0)
/-- E of a slot at this node (R268). -/
def HlNet.expected (x : HlNet) (c : SlotDesc) (out chanB : Bool) : Option Int :=
  if out then c.outOff.map fun (o : Nat) => (o : Int) + x.d chanB + if c.kind = 0 then hopNs x.gen.toNat else 0
  else c.inOff.map fun (o : Nat) => (o : Int) - x.d chanB
/-- A start's distance from E, the cycle counted round, from 0 up to the cycle length. -/
def HlNet.off (x : HlNet) (e : Int) (at_ : Nat) : Nat := (((at_ : Int) - e) % (x.cycleNs : Int)).toNat
/-- The start lies in E ± G/2. -/
def HlNet.inWindow (x : HlNet) (e : Int) (at_ : Nat) : Bool :=
  decide (2 * x.off e at_ ≤ x.guard ∨ 2 * (x.cycleNs - x.off e at_) ≤ x.guard)
/-- The slot in whose acceptance window a frame of a direction starts. -/
def HlNet.slotAt (x : HlNet) (out chanB : Bool) (at_ : Nat) : Option SlotDesc :=
  x.sched.bind fun c => c.slots.find? fun d => (x.expected d out chanB).any fun e => x.inWindow e at_
/-- Bytes after the delimiter that fit between a start and the slot's end (R260, R267). -/
def HlNet.fit (x : HlNet) (c : SlotDesc) (out chanB : Bool) (at_ : Nat) : Nat :=
  match x.expected c out chanB with
  | none => 0
  | some e =>
    let late : Int := if 2 * x.off e at_ ≤ x.guard then (x.off e at_ : Int) else (x.off e at_ : Int) - x.cycleNs
    let room : Int := (c.lenNs x.gen.toNat : Int) - (if out && c.kind == 0 then hopNs x.gen.toNat else 0) - late
    room.toNat / byteNs x.gen.toNat

/-! ## Receiving (R271 to R274) -/

/-- The slot has an owner or is granted: what its inbound part may carry. -/
def HlNet.grantee (x : HlNet) (slot : Nat) : Option Byte := (x.grants.find? (·.1 == slot)).map (·.2.1)
/-- Cycles of the start phase (R283): M of R279. -/
def HlNet.phaseM (x : HlNet) : Nat := (1000000 + x.cycleNs - 1) / x.cycleNs
/-- A cycle that no node owns for measurement (R285). -/
def HlNet.openCycle (c : Word) : Bool := decide (c.toNat % 256 = 0 ∨ 251 ≤ c.toNat % 256)
/-- TYPE and SRC fit the slot (R267, R273). -/
def HlNet.fits (x : HlNet) (c : SlotDesc) (out : Bool) (f : Bytes) : Bool :=
  let src := hSrc f
  let node := decide (1 ≤ src.toNat ∧ src.toNat ≤ 250)
  match c.kind.toNat with
  | 0 => hType f == 1 && (src == x.refAddr || src == byteAt f 36)
  | 1 => hType f == 2 && src == c.node
  | 2 => hType f == 2 && src == x.hubAddr
  | 3 =>
    if out then hType f == 2 && src == x.hubAddr
    else (hType f == 4 && node) || (hType f == 2 && (!x.hub || x.grantee c.slot == some src))
  | 4 => hType f == 6 && (if c.node = 255 then node && BitVec.ofNat 8 (x.cycle.toNat % 256) == src else src == c.node)
  | 5 => hType f == 6 && src == x.hubAddr
  | _ => hType f == 5 && (if out then src == x.hubAddr else
      node && (HlNet.openCycle x.cycle || BitVec.ofNat 8 (x.cycle.toNat % 256) == src))
/-- LEN and TRAILER fit the slot (R273). -/
def lenFits (c : SlotDesc) (f : Bytes) : Bool :=
  let n := hLen f
  match c.kind.toNat with
  | 0 => let g := (byteAt f 38).toNat
         decide (g ≤ 16 ∧ n = 56 + 4 * g) && !hTrailer f
  | 1 | 2 => n == c.len && hTrailer f == c.trailer
  | k =>
    decide (n + (if hTrailer f then 8 else 0) ≤ classBytes c.sizeClass ∧ n ≤ 1472) && (k != 6 || n == 20) &&
      hTrailer f == c.trailer
/-- R273 for a frame that starts in the window of a slot. -/
def HlNet.valid (x : HlNet) (c : SlotDesc) (out chanB : Bool) (at_ : Nat) (f : Bytes) : Bool :=
  decide (f.length ≤ x.fit c out chanB at_) && hdrOk f && crcOk f && x.mine f && hSlot f == c.slot && hCycle f == x.cycle &&
    x.fits c out f && lenFits c f && hChanB f == chanB
/-- What arrived of a slot on the channels. -/
def HlNet.rxOf (x : HlNet) (slot : Nat) : SlotRx := Tbl.get (fun _ => SlotRx.reset) x.rx slot
def SlotRx.on (r : SlotRx) (chanB : Bool) : BitVec 2 := if chanB then r.b else r.a
def HlNet.setRx (x : HlNet) (slot : Nat) (chanB : Bool) (v : BitVec 2) : HlNet :=
  { x with rx := Tbl.upd (fun _ => SlotRx.reset) x.rx slot fun r => if chanB then { r with b := v } else { r with a := v } }
/-- A stray frame is counted (R272, R274). -/
def HlNet.stray (x : HlNet) (chanB : Bool) : HlNet :=
  if chanB then { x with strayB := satInc x.strayB } else { x with strayA := satInc x.strayA }
/-- A cycle under observation is spoiled by a frame of the network (R287). -/
def HlNet.spoil (x : HlNet) (f : Bytes) : HlNet :=
  if x.state = .observe ∧ byteAt f 1 = x.netId then
    { x with join := { x.join with observe := x.join.observe.map fun (c, t, _) => (c, t, false) } }
  else x
/-- The hub takes inbound frames on port 1, and on port 2 where that is a chain or the ring is split (R259, R263). -/
def HlNet.chainPort (x : HlNet) (p : Fin 4) : Bool :=
  !secondPort p || x.port2 == 1 || (if portB p then x.splitB else x.splitA)
/-- The direction in which a frame travels that arrives on a port: the hub's are inbound; a BEACON says it (R261);
elsewhere away from the hub when it comes in on the upstream port. -/
def HlNet.travels (x : HlNet) (p : Fin 4) (f : Bytes) : Bool :=
  if x.hub then false
  else if hType f = 1 then hOut f
  else match (if portB p then x.join.upB else x.join.upA) with
    | some u => secondPort p == u
    | none => hOut f
/-- The node receives the part of a slot (R274). -/
def HlNet.receives (x : HlNet) (c : SlotDesc) (out : Bool) : Bool :=
  if x.hub then !out
  else out && (c.kind == 0 || c.kind == 6 || c.node == 255 || c.node == x.addr || x.own == some c.slot)

/-! ## Sending -/

/-- The network takes part: taken up by a start, configured, its domain on. -/
def State.netUp (s : State) (n : Net) : Bool := s.domOn 4 && (s.net n).up && (s.net n).configured
/-- READY is set in the module's frames on the network (R408). -/
def State.readyOn (s : State) (n : Net) : Bool :=
  s.upd.ready && (match s.upd.armed with | some a => (s.groupCfg a.group).any fun g => decide (g.netOf = n) | none => false)
/-- Ports on which the hub sends outbound frames (R259, R263). -/
def HlNet.outPorts (x : HlNet) (chanB : Bool) : List Nat :=
  portOf chanB false :: (if x.port2 = 1 ∨ (if chanB then x.splitB else x.splitA) then [portOf chanB true] else [])
/-- The port on which another node sends (R261); none while it sends nothing inbound on the channel. DESIGN CHOICE: a
reference that has not seen where the hub lies sends on both (log entry 78). -/
def HlNet.upPort (x : HlNet) (chanB : Bool) : List Nat :=
  match (if chanB then x.join.upB else x.join.upA), (if chanB then x.join.muteB else x.join.muteA) with
  | some u, false => [portOf chanB u]
  | none, false => if x.state = .reference then [portOf chanB false, portOf chanB true] else []
  | _, _ => []
/-- Ports on which this node sends on a channel. -/
def HlNet.ports (x : HlNet) (chanB : Bool) : List Nat := if x.hub then x.outPorts chanB else x.upPort chanB
/-- Frames leave on ports of one channel. -/
def State.sendOn (s : State) (n : Net) (chanB : Bool) (ports : List Nat) (ty slot : Nat) (cycle : Word) (out trailer ready : Bool)
    (len : Nat) (body : Bytes) : State :=
  let x := s.net n
  ports.foldl (fun s p => s.emit (.frame n p
    (frameOf ty x.gen.toNat x.netId slot cycle x.addr x.epoch trailer chanB out ready len body))) s
/-- A frame of the running cycle in a slot, on the channels that the guardian lets through (R271, R291). -/
def State.sendSlot (s : State) (n : Net) (okA okB : Bool) (ty : Nat) (c : SlotDesc) (trailer : Bool) (len : Nat)
    (body : Bytes) : State :=
  let x := s.net n
  let one (s : State) (b : Bool) : State := s.sendOn n b (x.ports b) ty c.slot x.cycle x.hub trailer (s.readyOn n) len body
  (s.iff okA (one · false)).iff okB (one · true)
/-- The payload of a COLDSTART (R266, R280); the proposed time is plant time when set, else network time (R353). -/
def State.coldstartBody (s : State) (n : Net) : Bytes :=
  let x := s.net n
  padTo 24 (beBytes 4 x.schedId.toNat ++ beBytes 4 x.cycleNs
    ++ timeBytes (if s.tbu.plantSet then s.plantNow else s.netNow) ++ [x.attempt])
/-- A node that is not integrated sends a frame of `len` bytes on ports from a TBU count on (R277). -/
def HlNet.occupy (x : HlNet) (ports : List Nat) (from_ len : Nat) : HlNet :=
  if x.isIntegrated then x
  else { x with busy := (x.busy.filter fun b => !ports.contains b.1)
                  ++ ports.map fun p => (p, from_, from_ + (len * byteNs x.gen.toNat + 1) / 2) }
/-- An own frame is being sent on the port. -/
def HlNet.sendsOn (x : HlNet) (port now : Nat) : Bool :=
  x.busy.any fun b => b.1 == port && decide (b.2.1 ≤ now ∧ now < b.2.2)
/-- A COLDSTART on every port of both channels (R280). -/
def State.sendColdstart (s : State) (n : Net) : State :=
  ([false, true].foldl (fun s b =>
    s.sendOn n b [portOf b false, portOf b true] 3 0 0 false false false 24 (s.coldstartBody n)) s).modNet n fun x =>
      x.occupy [0, 1, 2, 3] s.now 44
/-- Grants that the next BEACON lists. -/
def HlNet.listing (x : HlNet) : List (Nat × Byte) := ((x.grants.filter fun g => g.2.2.1 != 0).take 16).map fun g => (g.1, g.2.1)
/-- The part of a BEACON's payload from byte 20 on, which the hub's knowledge fills (R266). -/
def HlNet.hubPart (x : HlNet) (ready : BitVec 256) : Bytes :=
  let l := x.listing
  [if x.hub then x.addr else x.hubAddr, BitVec.ofNat 8 (maskOf [x.splitA, x.splitB]), BitVec.ofNat 8 l.length, 0]
    ++ le 32 ready ++ l.flatMap fun g => beBytes 2 g.1 ++ [g.2, 0]
/-- The payload of a BEACON of this node (R266). -/
def HlNet.beaconBody (x : HlNet) : Bytes :=
  beBytes 4 x.schedId.toNat ++ timeBytes x.cycleTime ++ beBytes 4 x.cycleNs ++ x.hubPart x.readyPrev

/-! ## Delay requests and answers (R281) -/

/-- A number divided by `k`; where that is no whole number the spec gives no rounding: the neighbour is free
(log entry 14). -/
def ratio (a : Int) (k : Nat) (free : Nat) : Int :=
  if a % (k : Int) = 0 then a / (k : Int) else a / (k : Int) + ((Config.freeBits free 1).toNat : Int)
/-- The DELAY slot of a schedule (R282). -/
def HlNet.delaySlot (x : HlNet) : Option SlotDesc := x.sched.bind fun c => c.slots.find? (·.kind == 6)
/-- The payload of a DELAY frame (R266). -/
def delayBody (kind : Nat) (seq target : Byte) (t2 t3 : Int) : Bytes :=
  [BitVec.ofNat 8 kind, seq, target, 0] ++ beBytes 8 (t2 % 2 ^ 64).toNat ++ beBytes 8 (t3 % 2 ^ 64).toNat
/-- A request is noted with those that may still be answered. -/
def HlNet.addAsked (x : HlNet) (r : Int × Int × Byte) : HlNet :=
  { x with join := { x.join with asked := r :: x.join.asked.take 1, seq := x.join.seq + 1 } }
/-- A delay request leaves on the upstream ports, at network times `ta` and `tb` on the channels (R281). -/
def State.askDelay (s : State) (n : Net) (okA okB : Bool) (ta tb : Int) : State :=
  let x := s.net n
  match x.delaySlot with
  | none => s
  | some c =>
    let one (s : State) (b : Bool) : State :=
      s.sendOn n b (x.upPort b) 5 c.slot x.cycle false false (s.readyOn n) 20 (delayBody 0 x.join.seq x.hubAddr 0 0)
    ((s.iff okA (one · false)).iff okB (one · true)).modNet n fun x =>
      (x.occupy (x.upPort false ++ x.upPort true) (s.now + ((ta - s.netNow) / 2).toNat) 40).addAsked (ta, tb, x.join.seq)
/-- Estimate number `k` of a search (R285): the start value, then alternately above and below it by one G more, within the
range of the generation; none where it falls outside. -/
def searchEstimate (gen start k : Nat) : Option Nat :=
  let g := guardNs gen
  let top := if gen = 2 then 285000 else 391000
  let m := (k + 1) / 2 * g
  if k % 2 = 1 then (if start + m ≤ top then some (start + m) else none)
  else if m ≤ start then some (start - m) else none
/-- The next estimate in range from attempt `k` on. -/
def nextEstimate (gen start : Nat) : Nat → Nat → Nat × Nat
  | 0, k => (start, k)
  | n + 1, k =>
    match searchEstimate gen start k with
    | some d => (d, k)
    | none => nextEstimate gen start n (k + 1)
/-- A search request of a SYNC node (R285). -/
def State.searchAsk (s : State) (n : Net) : State :=
  let x := s.net n
  match x.delaySlot.bind (·.inOff) with
  | none => s
  | some o =>
    let (ea, k) := nextEstimate x.gen.toNat (x.dA.getD 0) 512 x.join.tries
    let (eb, kb) := nextEstimate x.gen.toNat (x.dB.getD 0) 512 x.join.triesB
    (s.askDelay n true true (x.cycleTime + o - ea) (x.cycleTime + o - eb)).modNet n fun x =>
      { x with search := true, join := { x.join with tries := k + 1, triesB := kb + 1 } }
/-- Rank of this node in the start phase (R283). -/
def HlNet.rank (x : HlNet) : Option Nat :=
  match x.sched with
  | none => none
  | some c =>
    if x.state = .reference then some 0
    else
      let l := c.stations.filter fun a => a != x.hubAddr.toNat && a != x.refAddr.toNat
      if l.contains x.addr.toNat then some (1 + (l.filter fun a => decide (a < x.addr.toNat)).length) else none
/-- The cycle is the first one of this node's period in the start phase. -/
def HlNet.ownPeriod (x : HlNet) : Bool :=
  x.join.startPhase && !x.hub && (match x.rank with | some r => x.cycle.toNat == x.phaseM * r | none => false)

/-! ## Joining, losing -/

/-- SYS_EVENT.NETWORK when INTEGRATED changes. -/
def State.netEvent (s : State) (n : Net) (before : HlNet) : State :=
  if before.isIntegrated = (s.net n).isIntegrated then s else s.setEvent 6
/-- The node is integrated, or becomes the reference; an HL1 that integrates moves the base tick (R85). -/
def State.integrate (s : State) (n : Net) (st : NodeState) : State :=
  let before := s.net n
  let s := s.modNet n fun x => { x with
    state := st, search := false, noBeacon := 0, bigTheta := 0, rx := [], join := { x.join with observe := none } }
  let s := if n = .hl1 ∧ !before.isIntegrated then s.modSys fun y => { y with stretch := true } else s
  s.netEvent n before
/-- The node returns to LISTEN with a cause of HLA_LOSS (R293): D is kept; recorded; what Stile had under way for the
network's stations is lost (R335). -/
def State.leave (s : State) (n : Net) (cause : BitVec 2) : State :=
  let x := s.net n
  let s := s.raise (srcNet n) 0x6001 3
    ([netByte n, cause.setWidth 8, BitVec.ofNat 8 (match x.state with
      | .off => 0 | .listen => 1 | .coldstart => 2 | .wait => 3 | .sync => 4 | .observe => 5 | .integrated => 6 | .reference => 7), 0]
      ++ le 4 x.cycle)
  let s := s.modNet n fun x => { x with
    state := .listen, search := false, lossCause := cause, losses := satInc x.losses, since := s.now, noBeacon := 0
    bigTheta := 0, claim := none, own := none, listed := [], barred := []
    join := { HlJoin.reset with upA := x.join.upA, upB := x.join.upB, seq := x.join.seq } }
  let s := s.netEvent n x
  if x.isIntegrated then
    (((x.sched.map (·.stations)).getD []).foldl (fun s a => s.targetLost (n == .hl2) a 7 0xFF false) s).unsentLost n
  else s
/-- D is obtained on a channel (R278, R281): from SYNC to OBSERVE, network time aligned with it. -/
def State.gotD (s : State) (n : Net) (chanB : Bool) (d : Nat) : State :=
  let x := s.net n
  let s := if x.state = .sync then s.netStep ((d : Int) - x.d chanB) else s
  s.modNet n fun x =>
    let x := if chanB then { x with dB := some d } else { x with dA := some d }
    if x.state = .sync then { x with state := .observe, since := s.now, search := false, join := { x.join with observe := none } } else x
/-- A repeated measurement (R286): within 100 ns a quarter of the difference, else kept as single or replacing D. -/
def State.filterD (s : State) (n : Net) (chanB : Bool) (r : Nat) : State :=
  let x := s.net n
  match (if chanB then x.dB else x.dA), (if chanB then x.offB else x.offA) with
  | none, _ => s.gotD n chanB r
  | some d, kept =>
    let diff : Int := (r : Int) - d
    let near := decide (diff.natAbs ≤ 100)
    let v := if near then ((d : Int) + ratio diff 4 s.free).toNat else if kept.isSome then r else d
    let k := if near ∨ kept.isSome then none else some r
    (s.modNet n fun x => if chanB then { x with dB := some v, offB := k } else { x with dA := some v, offA := k }).bump
/-- The node enters SYNC on a BEACON (R278): phase, epoch and network time are the beacon's. The hub's D is 0, so it goes
on to OBSERVE. -/
def State.enterSync (s : State) (n : Net) (p : Fin 4) (f : Bytes) : State :=
  let b := hBody f
  let t := timeAt b 4
  let x := s.net n
  let arrival : Int := t + if x.hub then 0 else (hopNs x.gen.toNat : Int) + x.d (portB p)
  let s := s.netStep (arrival - s.netNow)
  let phase := x.join.sawCold && hCycle f == 0
  s.modNet n fun x => { x with
    state := if x.hub then .observe else .sync
    cycle := hCycle f, cycleTime := t, cycleAt := s.now, since := s.now, epoch := hEpoch f, refAddr := hSrc f
    hubAddr := if x.hub then x.addr else byteAt b 20
    beaconNow := true, noBeacon := 0, bigTheta := 0, rx := [], search := false
    splitA := if phase then false else x.splitA, splitB := if phase then false else x.splitB
    grants := if phase then [] else x.grants, claims := []
    join := { HlJoin.reset with
      seq := x.join.seq, startPhase := phase
      upA := if portB p then x.join.upA else some (secondPort p), upB := if portB p then some (secondPort p) else x.join.upB
      observe := if x.hub then some (hCycle f, t, true) else none } }

/-! ## Forwarding (R260, R277) -/

/-- A frame leaves on the other port of its channel: while not integrated when its header passes; once integrated within
the window of a slot of its direction and no longer than the slot; not by the hub, and no frame that the node sent itself,
which the hub's relay of a reference's BEACON is not (R262). A node that is not integrated holds nothing for a port on which
it sends (R277); a claimant cannot forward a claim of its own slot, because it sends (R294). -/
def State.forwardFrame (s : State) (n : Net) (p : Fin 4) (at_ : Nat) (f : Bytes) : State :=
  let x := s.net n
  let other := portOf (portB p) (!secondPort p)
  if !s.domOn 4 ∨ !x.configured ∨ (hSrc f = x.addr ∧ !(hType f == 1 && hOut f && x.state == .reference)) then s
  else if s.netUp n ∧ x.isIntegrated then
    if x.hub then s
    else
      let out := x.travels p f
      match x.slotAt out (portB p) at_ with
      | none => s
      | some c =>
        if x.claim.any (fun k => k.1 == c.slot) ∧ !out then s
        else s.emit (.frame n other (f.take (x.fit c out (portB p) at_)))
  else if hdrOk f ∧ x.mine f ∧ !x.sendsOn other s.now then s.emit (.frame n other f) else s

/-! ## Arrival -/

/-- The other channel has not delivered a valid copy of the slot in this cycle. -/
def HlNet.firstCopy (x : HlNet) (slot : Nat) (chanB : Bool) : Bool := (x.rxOf slot).on (!chanB) != 1
/-- D is known on a channel, so that its windows can be judged (R287). -/
def HlNet.hasD (x : HlNet) (chanB : Bool) : Bool := x.hub || x.state == .reference || (if chanB then x.dB else x.dA).isSome
/-- Where the copies of a slot are noted: its own place for the part that the node receives, places beyond the slot numbers
for the parts that only pass it. -/
def HlNet.rxKey (x : HlNet) (c : SlotDesc) (out : Bool) : Nat :=
  if x.receives c out then c.slot else c.slot + if out then 4096 else 8192
/-- A stray frame at a node that judges windows (R272, R287). -/
def HlNet.straySeen (x : HlNet) (chanB : Bool) (f : Bytes) : HlNet := (if x.isIntegrated then x.stray chanB else x).spoil f
/-- The slot and direction are expected to bring a frame for an input segment (R125). -/
def State.feeds (s : State) (n : Net) (c : SlotDesc) (out : Bool) : Bool :=
  let x := s.net n
  x.hub && x.isIntegrated && !out && (c.kind == 1 || (c.kind == 3 && (x.grantee c.slot).isSome)) &&
    (s.slotSegment n false c.slot).isSome
/-- A frame that fails R125 is undone: counted in SWD_UNDO. -/
def State.undone (s : State) : State := s.modSwd fun w => { w with undo := w.undo + 1 }
/-- A frame arrives at a node that judges windows (R272, R273): the slot and direction when it is a valid copy, marked for
the slot's counters; otherwise counted as stray or invalid, and undone where an input segment waits for it (R125). -/
def State.arrive (s : State) (n : Net) (p : Fin 4) (at_ : Nat) (f : Bytes) : State × Option (SlotDesc × Bool) :=
  let x := s.net n
  let b := portB p
  let out := x.travels p f
  if (x.hub && !x.chainPort p) || !x.hasD b then (s, none)
  else match x.slotAt out b at_ with
  | none => (s.modNet n fun x => x.straySeen b f, none)
  | some c =>
    let k := x.rxKey c out
    if (x.rxOf k).on b != 0 then (s.modNet n fun x => x.straySeen b f, none)
    else if x.valid c out b at_ f then (s.modNet n fun x => x.setRx k b 1, some (c, out))
    else ((s.modNet n fun x => (x.spoil f).setRx k b 2).iff (s.feeds n c out) State.undone, none)
/-- The node judges windows: its clock is aligned. -/
def HlNet.judges (x : HlNet) : Bool := x.isIntegrated || x.state == .observe
/-- A frame of the network that a node sees while it listens (R278): the listen time begins again; with another GEN, or
a CLAIM with another SCHEDULE_ID, it is a mismatch. -/
def State.heard (s : State) (n : Net) (f : Bytes) : State :=
  let x := s.net n
  if x.state = .listen ∧ hdrOk f ∧ byteAt f 1 = x.netId then
    s.modNet n fun x => { x with
      since := s.now
      mismatch := x.mismatch || hGen f != x.gen.toNat || (crcOk f && hType f == 4 && beAt f 16 4 != x.schedId.toNat) }
  else s
/-- The passive measurement (R284): an outbound frame passes, then a valid inbound one from beyond. -/
def State.passive (s : State) (n : Net) (b out : Bool) (c : SlotDesc) (at_ : Nat) : State :=
  let x := s.net n
  if out then
    match c.outOff with
    | none => s
    | some o =>
      let v : Int × Int := ((o : Int) + (if c.kind = 0 then hopNs x.gen.toNat else 0), at_)
      s.modNet n fun x => { x with join :=
        if b then { x.join with passB := some v } else { x.join with passA := some v } }
  else
    match (if b then x.join.passB else x.join.passA), c.inOff with
    | some (sa, ta), some sb =>
      (s.gotD n b (ratio (((sb : Int) - sa) - ((at_ : Int) - ta)) 2 s.free).toNat).bump
    | _, _ => s
/-- A SYNC node, whose windows are not yet its own, takes the slot from the frame's SLOT for a passive measurement (R284); the
rest of R273 holds, and an inbound frame comes from beyond the node. -/
def State.passing (s : State) (n : Net) (p : Fin 4) (at_ : Nat) (f : Bytes) : State :=
  let x := s.net n
  if x.state = .sync ∧ hdrOk f ∧ crcOk f ∧ x.mine f ∧ hCycle f = x.cycle then
    match x.slot (hSlot f) with
    | some c =>
      let beyond := match (if portB p then x.join.upB else x.join.upA) with
        | some u => secondPort p != u
        | none => false
      s.iff (x.fits c (hOut f) f && lenFits c f && hChanB f == portB p && (hOut f || beyond)) (·.passive n (portB p) (hOut f) c at_)
    | none => s
  else s
/-- READY of a valid inbound frame, for the hub's map (R266). -/
def State.noteReady (s : State) (n : Net) (f : Bytes) : State :=
  if (s.net n).hub ∧ hReady f then s.modNet n fun x => { x with readyNow := x.readyNow ||| (1 <<< (hSrc f).toNat) } else s
/-- A higher epoch is followed from a valid outbound BEACON or DATA copy on (R296). -/
def HlNet.follow (x : HlNet) (e : Byte) : HlNet := if higher e x.epoch then { x with epoch := e } else x

end Sys2Proof.Machine
end

