-- ==== Sys2Proof/Machine/Heathline.lean ====
section
/-! DEFINITION. The commands of the Heathline networks: cycle starts, frames, slot starts, windows, limits
(11_heathline_frames_and_schedule.md, 12_heathline_startup_and_time.md). -/

namespace Sys2Proof.Machine

/-! ## Cycle starts -/

/-- The hub role changes at a cycle start (R300, R307): taken over with the new epoch as reference, or given up. A former
hub's D is what its partner measured, which no chapter hands it (log entry 31). -/
def State.hubTurn (s : State) (n : Net) : State :=
  let x := s.net n
  let take := match n with | .hl1 => s.dpx.takeHub1 | .hl2 => s.dpx.takeHub2
  if take then
    let s := s.modNet n fun x => { x with
      hub := true, hubAddr := x.addr, refAddr := x.addr, epoch := s.dpx.epoch
      state := if x.state = .integrated then .reference else x.state, claim := none, own := none }
    s.modDpx fun d => match n with
      | .hl1 => { d with takeHub1 := false, graceHl1 := 2 }
      | .hl2 => { d with takeHub2 := false, graceHl2 := 2 }
  else if x.hub && !s.dpx.drives then
    (s.modNet n fun x => { x with
      hub := false, state := if x.state = .reference then .integrated else x.state
      dA := some (Config.freeBits s.free 16).toNat, dB := some (Config.freeBits (s.free + 1) 16).toNat }).bump.bump
  else s.modDpx fun d => match n with
    | .hl1 => { d with graceHl1 := d.graceHl1 - 1 }
    | .hl2 => { d with graceHl2 := d.graceHl2 - 1 }
/-- New grants of a cycle (R294, R295): per spare slot the lowest address that claimed it in 2 consecutive cycles, at most 4. -/
def HlNet.newGrants (x : HlNet) : List (Nat × Byte × Nat × Nat) :=
  let ripe := x.claims.filter fun k => decide (2 ≤ k.2.2.1) && k.2.2.2 + 1 == x.cycle
  let best := ripe.filter fun k => !(ripe.any fun j => j.1 == k.1 && decide (j.2.1.toNat < k.2.1.toNat))
  let free := best.filter fun k => !(x.grants.any fun g => g.1 == k.1 || g.2.1 == k.2.1)
  (free.take 4).map fun k => (k.1, k.2.1, 4, 0)
/-- Listings of a BEACON sent go down, new grants come in, old claims go. -/
def HlNet.grantCycle (x : HlNet) : HlNet :=
  if x.hub then
    { x with
      grants := (x.grants.map fun g => (g.1, g.2.1, g.2.2.1 - 1, g.2.2.2)) ++ x.newGrants
      claims := x.claims.filter fun k => k.2.2.2 + 1 == x.cycle }
  else x
/-- The spare slot that a node without slots of its own claims (R294): it has no segment, so every class fits
(log entry 32). -/
def HlNet.pick (x : HlNet) : Option Nat :=
  match x.sched with
  | none => none
  | some c =>
    if x.hub ∨ x.state ≠ .integrated ∨ x.own.isSome ∨ c.stations.contains x.addr.toNat then none
    else
      let l := (c.slots.filter fun d => d.kind == 3 && !(x.listed.any fun g => g.1 == d.slot) && !x.barred.contains d.slot).map (·.slot)
      l.foldl (fun a k => match a with | none => some k | some j => some (Nat.min j k)) none
/-- A claim goes on, or a new one begins. -/
def HlNet.claimCycle (x : HlNet) : HlNet :=
  match x.claim with
  | some (k, n) => { x with claim := some (k, n + 1) }
  | none => { x with claim := x.pick.map fun k => (k, 0) }
/-- The upstream ports of the new cycle (R261); the delay through another port has not been measured. -/
def HlNet.turnCycle (x : HlNet) : HlNet :=
  let newA := match x.join.turnA with | some p => decide (some p ≠ x.join.upA) | none => false
  let newB := match x.join.turnB with | some p => decide (some p ≠ x.join.upB) | none => false
  { x with
    dA := if newA then none else x.dA, dB := if newB then none else x.dB
    join := { x.join with
      upA := x.join.turnA.orElse fun _ => x.join.upA, upB := x.join.turnB.orElse fun _ => x.join.upB
      turnA := none, turnB := none, muteA := false, muteB := false, seenPrev := x.join.seenNow, seenNow := 0
      passA := none, passB := none } }
/-- The ring check of the cycle that ends (R263). -/
def HlNet.ringCycle (x : HlNet) : HlNet :=
  if x.hub && x.isIntegrated && x.port2 == 2 then
    { x with
      ringMissA := if x.ringSeen.getLsbD 0 then 0 else x.ringMissA + 1
      ringMissB := if x.ringSeen.getLsbD 1 then 0 else x.ringMissB + 1, ringReturn := x.ringSeen, ringSeen := 0 }
  else { x with ringMissA := 0, ringMissB := 0, ringReturn := 0, ringSeen := 0 }
/-- The cycle counter and everything kept per cycle; in COLDSTART the CYCLE stays 0 (R280). -/
def HlNet.nextCycle (x : HlNet) (now : Nat) (time : Int) (ready : Bool) : HlNet :=
  let own : BitVec 256 := if ready then 1 <<< x.addr.toNat else 0
  let y : HlNet := { x with
    cycle := if x.state = .coldstart then 0 else x.cycle + 1, cycleAt := now, cycleTime := time, rx := []
    noBeacon := if x.beaconNow then 0 else x.noBeacon + 1, beaconNow := false
    readyPrev := x.readyNow ||| own, readyNow := 0
    refusals := x.refusals.filter fun c => decide ((x.cycle + 1 - c).toNat < 256)
    join := { x.join with asks := x.join.asks.filter fun a => decide ((a.due - (x.cycle + 1)).toNat < 65536)
                          beatB := none
                          startPhase := x.join.startPhase && decide ((x.cycle + 1).toNat < x.phaseM *
                            (1 + match x.sched with | some c => c.stations.length | none => 0)) } }
  y.ringCycle.turnCycle.grantCycle
/-- READY is set from the next cycle of the group's network after the arming (R408). -/
def State.setReady (s : State) (n : Net) : State :=
  match s.upd.armed with
  | some a =>
    if (s.groupCfg a.group).any fun g => decide (g.netOf = n) then s.modUpd fun u => { u with ready := true } else s
  | none => s
/-- NETWORK_CYCLE_START (R25, R129, R135, R263, R280, R285, R295, R300, R307, R408): hub roles turn, per-cycle state begins
afresh; the hub fixes its outputs; a starter sends its COLDSTART, a searching node its request. -/
def effNetworkCycleStart (n : Net) (s : State) : State :=
  let x := s.net n
  if !s.netUp n ∨ x.state = .off ∨ x.state = .listen ∨ x.state = .wait then
    s.iff (s.netUp n) (·.hubTurn n)
  else
    let s := ((s.modNet n fun x => x.nextCycle s.now s.netNow (s.readyOn n)).hubTurn n).referenceRate n
    let x := s.net n
    let s := s.modNet n HlNet.claimCycle
    let s := s.setReady n
    if x.state = .coldstart then s.sendColdstart n
    else if x.state = .sync then s.iff (!x.join.startPhase && HlNet.openCycle x.cycle) (·.searchAsk n)
    else if x.isIntegrated then (s.iff x.hub (·.fix n)).stationsCycle n
    else s
/-- NETWORK_CYCLE_START. -/
def execNetworkCycleStart (n : Net) (s : State) : Res := .next (effNetworkCycleStart n s)

/-! ## BEACON -/

/-- HUB of a BEACON's payload. -/
def beaconHub (f : Bytes) : Byte := byteAt f 36
/-- The grants that a BEACON lists. -/
def beaconGrants (f : Bytes) : List (Nat × Byte) :=
  (List.range (byteAt f 38).toNat).map fun i => (beAt f (72 + 4 * i) 2, byteAt f (74 + 4 * i))
/-- A BEACON's checks apart from its place in the cycle (R273, R278). -/
def HlNet.beaconOk (x : HlNet) (chanB : Bool) (f : Bytes) : Bool :=
  let g := (byteAt f 38).toNat
  hdrOk f && crcOk f && hType f == 1 && x.mine f && hSlot f == 0 && decide (g ≤ 16 ∧ hLen f = 56 + 4 * g) && !hTrailer f &&
    hChanB f == chanB
/-- HUB names another node than in the cycle before (R261): nothing inbound is sent in this cycle on either channel. -/
def HlNet.noteHub (x : HlNet) (f : Bytes) : HlNet :=
  let moved := x.hubAddr != 0 && beaconHub f != x.hubAddr
  { x with hubAddr := beaconHub f, join := { x.join with muteA := x.join.muteA || moved, muteB := x.join.muteB || moved } }
/-- The upstream port (R261): where OUTBOUND beacons come from; after two cycles on the other port only, or when HUB names
another node, the port of this one from the next cycle on. -/
def HlNet.noteUp (x : HlNet) (p : Fin 4) (f : Bytes) : HlNet :=
  let x := x.noteHub f
  let b := portB p
  let j := x.join
  let up := if b then j.upB else j.upA
  let muted := if b then j.muteB else j.muteA
  let turn := if b then j.turnB else j.turnA
  let mine (m : BitVec 4) (second : Bool) : Bool := m.getLsbD (portOf b second)
  let moves : Bool := match up with
    | some u => u != secondPort p && mine j.seenPrev (!u) && !mine j.seenPrev u && !mine j.seenNow u
    | none => false
  let turn := if moves ∨ (muted ∧ turn.isNone) then some (secondPort p) else turn
  let up := up.orElse fun _ => some (secondPort p)
  let j := { j with seenNow := j.seenNow ||| (1 <<< p.val) }
  { x with join :=
    if b then { j with upB := up, turnB := turn, muteB := muted || moves } else { j with upA := up, turnA := turn, muteA := muted || moves } }
/-- What the first valid outbound BEACON of a cycle tells (R266, R274, R294 to R296). -/
def HlNet.noteBeacon (x : HlNet) (f : Bytes) : HlNet :=
  let hub := beaconHub f
  let l := beaconGrants f
  let won := (l.find? fun g => g.2 == x.addr).map (·.1)
  let lost := match x.claim with
    | some (k, _) => l.any fun g => g.1 == k && g.2 != x.addr
    | none => false
  ({ x with
    hubAddr := hub, refAddr := hSrc f, splitA := bitAt f 37 0, splitB := bitAt f 37 1, listed := l
    own := won.orElse fun _ => x.own, claim := if won.isSome ∨ lost then none else x.claim }).follow (hEpoch f)
/-- The offset of a BEACON (R288). -/
def HlNet.theta (x : HlNet) (b : Bool) (at_ : Nat) (f : Bytes) : Int :=
  x.cycleTime + at_ - (timeAt f 20 + if x.hub then 0 else (hopNs x.gen.toNat : Int) + x.d b)
/-- The offset feeds the servo (R288, R358); the hub steps once when a non-hub reference first applies its D (R283); four
beacons in a row beyond G/4 end the integration (R293). Receive times of requests still to be answered go with the step, so
that an answer keeps to one scale (R266). -/
def State.feedTheta (s : State) (n : Net) (e : Int) : State :=
  let x := s.net n
  let big := decide (x.guard < 4 * e.natAbs)
  if big ∧ x.hub ∧ x.join.startPhase ∧ !x.join.stepped then
    let back (a : DelayAsk) : DelayAsk := { a with t2a := a.t2a.map (· - e), t2b := a.t2b.map (· - e) }
    ((s.netStep (-e)).modNet n fun x => { x with
      cycleTime := x.cycleTime - e, join := { x.join with stepped := true, asks := x.join.asks.map back } })
  else
    let s := s.netFeed e (x.cycleNs * (x.noBeacon + 1)) (if x.gen = 2 then 20 else 200)
    let k := if big then x.bigTheta + 1 else 0
    let s := s.modNet n fun x => { x with bigTheta := k }
    if 4 ≤ k then s.leave n 3 else s
/-- A cycle observed from one BEACON to the next (R287): a full valid one integrates the node. -/
def State.observed (s : State) (n : Net) (at_ : Nat) (f : Bytes) : State :=
  let x := s.net n
  if x.state ≠ .observe then s
  else
    let t := x.cycleTime + at_
    match x.join.observe with
    | some (c, t0, clean) =>
      if clean ∧ hCycle f = c + 1 ∧ 4 * ((t - t0) - x.cycleNs).natAbs ≤ x.guard then s.integrate n .integrated
      else s.modNet n fun x => { x with join := { x.join with observe := some (hCycle f, t, true) } }
    | none => s.modNet n fun x => { x with join := { x.join with observe := some (hCycle f, t, true) } }
/-- A reference that is not the hub hears of another reference, the hub itself: it is an ordinary node from then on (R293). -/
def HlNet.yields (x : HlNet) (f : Bytes) : HlNet :=
  if x.state = .reference ∧ !x.hub ∧ hSrc f = beaconHub f ∧ hSrc f ≠ x.addr then { x with state := .integrated } else x
/-- The first valid copy of the BEACON in a cycle; on channel B with what a copy on channel A at the same instant needs
(R288). -/
def State.firstBeacon (s : State) (n : Net) (p : Fin 4) (at_ : Nat) (f : Bytes) : State :=
  let x := s.net n
  let e := x.theta (portB p) at_ f
  let s := s.modNet n fun x =>
    let x := if x.hub then { x with refAddr := hSrc f } else (x.yields f).noteBeacon f
    { x with beaconNow := true, join := { x.join with
        beatB := if portB p then some (at_, s.tbu.net, s.tbu.netLocked, x.bigTheta) else none } }
  let s := s.observed n at_ f
  if (s.net n).state = .reference then s else s.feedTheta n e
/-- A second copy of the BEACON: channel A's is used where both arrived together (R288). -/
def State.secondBeacon (s : State) (n : Net) (p : Fin 4) (at_ : Nat) (f : Bytes) : State :=
  let x := s.net n
  match x.join.beatB with
  | some (t, net, locked, big) =>
    if !portB p ∧ t = at_ ∧ x.isIntegrated ∧ x.state ≠ .reference then
      ((s.modTbu fun c => { c with net := net, netLocked := locked }).modNet n fun x =>
        { x with bigTheta := big, join := { x.join with beatB := none } }).feedTheta n (x.theta false at_ f)
    else s
  | none => s
/-- The hub's relay of the reference's BEACON (R262), its own knowledge filled in (log entry 33). -/
def State.relayBeacon (s : State) (n : Net) (b : Bool) (f : Bytes) : State :=
  let x := s.net n
  let g := relayed f (sub f 16 20 ++ x.hubPart x.readyPrev)
  (x.outPorts b).foldl (fun s p => s.emit (.frame n p g)) s
/-- A BEACON in SYNC (R288): network time is stepped, the cycle taken; in the start phase the request follows 20 µs after
(R283). The hub's D is 0, so it goes on to OBSERVE. -/
def State.syncBeacon (s : State) (n : Net) (p : Fin 4) (at_ : Nat) (f : Bytes) : State :=
  let x := s.net n
  let e := x.theta (portB p) at_ f
  let first := !x.beaconNow
  let s := if first then (s.netStep (-e)).modNet n fun x => { (x.noteBeacon f) with
      cycle := hCycle f, cycleTime := timeAt f 20, beaconNow := true, noBeacon := 0
      state := if x.hub then .observe else x.state, since := if x.hub then s.now else x.since } else s
  let s := s.passing n p at_ f
  let x := s.net n
  let t := timeAt f 20 + hopNs x.gen.toNat + 20000
  s.iff (first && x.state == .sync && x.ownPeriod) (·.askDelay n true true (t + x.d false) (t + x.d true))
/-- A BEACON at a node, by its state (R278). -/
def State.beaconIn (s : State) (n : Net) (p : Fin 4) (at_ : Nat) (f : Bytes) : State :=
  let x := s.net n
  let same := beAt f 16 4 == x.schedId.toNat
  let mine := x.beaconOk (portB p) f && same && hOut f != x.hub
  match x.state with
  | .off => s
  | .listen =>
    if mine then
      let s := s.enterSync n p f
      let x := s.net n
      let t := timeAt f 20 + hopNs x.gen.toNat + 20000
      s.iff (x.state == .sync && x.ownPeriod) (·.askDelay n true true (t + x.d false) (t + x.d true))
    else
      let s := s.heard n f
      s.modNet n fun y => { y with mismatch := y.mismatch || (hdrOk f && crcOk f && byteAt f 1 == y.netId && !same) }
  | .wait =>
    if mine then
      let s := s.enterSync n p f
      let x := s.net n
      let t := timeAt f 20 + hopNs x.gen.toNat + 20000
      s.iff (x.state == .sync && x.ownPeriod) (·.askDelay n true true (t + x.d false) (t + x.d true))
    else s
  | .coldstart => if mine then s.modNet n fun x => { x with state := .wait, since := s.now } else s
  | .sync => if mine then (s.modNet n fun x => x.noteUp p f).syncBeacon n p at_ f else s.passing n p at_ f
  | _ =>
    if x.hub && !x.chainPort p then
      if x.port2 = 2 && x.beaconOk (portB p) f && hOut f && (hSrc f == x.addr || hSrc f == x.refAddr) && hCycle f == x.cycle then
        s.modNet n fun x => { x with ringSeen := x.ringSeen ||| (1 <<< (if portB p then 1 else 0)) }
      else s
    else
      let s := if mine && !x.hub && hCycle f == x.cycle then s.modNet n fun x => x.noteUp p f else s
      match s.arrive n p at_ f with
      | (s, some (c, out)) =>
        if c.kind = 0 ∧ out = !x.hub then
          let s := s.noteReady n f
          let s := if x.hub then s.relayBeacon n (portB p) f else s
          if x.beaconNow then s.secondBeacon n p at_ f else s.firstBeacon n p at_ f
        else s
      | (s, none) => s
/-- BEACON (R260 to R263, R278, R283, R287, R288, R293, R296). -/
def effBeaconFrame (n : Net) (port : Fin 4) (at_ : Nat) (f : Bytes) (s : State) : State :=
  let t := s.forwardFrame n port at_ f
  if s.netUp n then t.beaconIn n port at_ f else t
/-- BEACON. -/
def execBeaconFrame (n : Net) (port : Fin 4) (at_ : Nat) (f : Bytes) (s : State) : Res := .next (effBeaconFrame n port at_ f s)

/-! ## DATA -/

/-- The first valid copy of a DATA frame becomes the segment's latest buffer (R125, R126); in a granted slot only a frame of
the segment's station and size. -/
def State.segmentIn (s : State) (n : Net) (c : SlotDesc) (b first : Bool) (f : Bytes) : State :=
  match s.slotSegment n false c.slot with
  | none => s
  | some (y, i) =>
    let ch : BitVec 2 := if b then 1 else 0
    if y.station ≠ (hSrc f).toNat ∨ y.size ≠ (hBody f).length then s.undone
    else if first then s.segGood n y.station i (hBody f) ch else s.segAgain i (hBody f) ch
/-- A DATA frame at a node that judges (R125, R126, R273, R296). -/
def State.dataIn (s : State) (n : Net) (p : Fin 4) (at_ : Nat) (f : Bytes) : State :=
  let x := s.net n
  let b := portB p
  match s.arrive n p at_ f with
  | (t, some (c, out)) =>
    let t := t.noteReady n f
    if out then t.modNet n fun y => if y.receives c true then y.follow (hEpoch f) else y
    else t.iff (s.feeds n c false && hType f == 2) (·.segmentIn n c b (x.firstCopy c.slot b) f)
  | (t, none) => t
/-- DATA (R125, R273). -/
def effDataFrame (n : Net) (port : Fin 4) (at_ : Nat) (f : Bytes) (s : State) : State :=
  let t := s.forwardFrame n port at_ f
  if !s.netUp n then t
  else if (s.net n).judges then t.dataIn n port at_ f
  else (t.heard n f).passing n port at_ f
/-- DATA. -/
def execDataFrame (n : Net) (port : Fin 4) (at_ : Nat) (f : Bytes) (s : State) : Res := .next (effDataFrame n port at_ f s)

/-! ## COLDSTART -/

/-- The nodes that may cold-start a network (R276): the configuration set's, this module, a partner. -/
def State.starter (s : State) (n : Net) (a : Byte) : Bool :=
  ((s.cfg.cur.station? n a.toNat).map (·.coldStart)).getD false || a == (s.net n).addr ||
    (s.partnerPresent && a == Config.partnerAddr n)
/-- A COLDSTART at a node that is not integrated (R276, R278, R280); one of its own, come round a ring, tells it nothing. -/
def State.coldstartIn (s : State) (n : Net) (p : Fin 4) (f : Bytes) : State :=
  let x := s.net n
  if !(hdrOk f && crcOk f) ∨ hType f ≠ 3 ∨ byteAt f 1 ≠ x.netId ∨ hSlot f ≠ 0 ∨ hCycle f ≠ 0 then s
  else if !s.starter n (hSrc f) then s.modNet n (·.stray (portB p))
  else if hSrc f = x.addr then s
  else if hGen f ≠ x.gen.toNat ∨ beAt f 16 4 ≠ x.schedId.toNat then
    match x.state with
    | .listen => s.modNet n fun x => { x with mismatch := true, since := s.now }
    | .coldstart => s.modNet n fun x => { x with mismatch := true, state := .listen, since := s.now }
    | _ => s
  else
    let toWait (x : HlNet) : HlNet := { x with state := .wait, since := s.now, join := { x.join with sawCold := true } }
    match x.state with
    | .listen | .wait => s.modNet n toWait
    | .coldstart => if (hSrc f).toNat < x.addr.toNat then s.modNet n toWait else s
    | _ => s
/-- COLDSTART (R280). -/
def effColdstartFrame (n : Net) (port : Fin 4) (at_ : Nat) (f : Bytes) (s : State) : State :=
  let t := s.forwardFrame n port at_ f
  if !s.netUp n then t
  else if (s.net n).judges then
    if hdrOk f ∧ crcOk f ∧ hType f = 3 ∧ byteAt f 1 = (s.net n).netId ∧ !s.starter n (hSrc f) then
      t.modNet n fun x => x.stray (portB port)
    else (t.arrive n port at_ f).1
  else t.coldstartIn n port f
/-- COLDSTART. -/
def execColdstartFrame (n : Net) (port : Fin 4) (at_ : Nat) (f : Bytes) (s : State) : Res :=
  .next (effColdstartFrame n port at_ f s)

/-! ## CLAIM, DELAY, ACYCLIC -/

/-- The hub notes a claim (R294); those of an address that owns a slot or holds a grant are ignored. -/
def HlNet.noteClaim (x : HlNet) (slot : Nat) (a : Byte) : HlNet :=
  let owner : Bool := match x.sched with | some c => c.stations.contains a.toNat | none => true
  if owner ∨ x.grants.any fun g => g.2.1 == a then x
  else
    let old := x.claims.find? fun k => k.1 == slot && k.2.1 == a
    let count := match old with
      | some k => if k.2.2.2 = x.cycle then k.2.2.1 else if k.2.2.2 + 1 = x.cycle then k.2.2.1 + 1 else 1
      | none => 1
    { x with claims := (x.claims.filter fun k => !(k.1 == slot && k.2.1 == a)) ++ [(slot, a, count, x.cycle)] }
/-- CLAIM (R294). -/
def effClaimFrame (n : Net) (port : Fin 4) (at_ : Nat) (f : Bytes) (s : State) : State :=
  let t := s.forwardFrame n port at_ f
  if !s.netUp n then t
  else if !(s.net n).judges then (t.heard n f).passing n port at_ f
  else match t.arrive n port at_ f with
    | (t, some (c, false)) =>
      let t := t.noteReady n f
      if hType f ≠ 4 ∨ hLen f ≠ 16 ∨ beAt f 16 4 ≠ (t.net n).schedId.toNat ∨ beAt f 20 2 ≠ c.slot then t
      else if (t.net n).hub then t.modNet n fun x => x.noteClaim c.slot (hSrc f)
      else t.modNet n fun x =>
        if x.claim.any (fun k => k.1 == c.slot) ∧ (hSrc f).toNat < x.addr.toNat then
          { x with claim := none, barred := x.barred ++ [c.slot] }
        else x
    | (t, _) => t
/-- CLAIM. -/
def execClaimFrame (n : Net) (port : Fin 4) (at_ : Nat) (f : Bytes) (s : State) : Res := .next (effClaimFrame n port at_ f s)

/-- The hub keeps a request for its answer (R281): in the cycle after, or at the end of the requester's period in the start
phase (R283). -/
def HlNet.noteAsk (x : HlNet) (b : Bool) (at_ : Nat) (f : Bytes) : HlNet :=
  let t2 := x.cycleTime + at_
  let due := if x.join.startPhase then BitVec.ofNat 32 (x.phaseM * (x.cycle.toNat / x.phaseM + 1)) else x.cycle + 1
  let same (a : DelayAsk) : Bool := a.addr == hSrc f && a.seq == byteAt f 17
  let put (a : DelayAsk) : DelayAsk := if b then { a with t2b := some t2 } else { a with t2a := some t2 }
  let l := x.join.asks
  let l := if (l.any same) then (l.map fun a => if (same a) then (put a) else a) else l ++ [put ⟨hSrc f, byteAt f 17, none, none, due⟩]
  { x with join := { x.join with asks := l } }
/-- The node takes D from the answer to its request (R281, R286). -/
def State.takeD (s : State) (n : Net) (b : Bool) (at_ : Nat) (f : Bytes) : State :=
  let x := s.net n
  match x.join.asked.find? fun r => r.2.2 == byteAt f 17 with
  | none => s
  | some (ta, tb, _) =>
    if byteAt f 16 ≠ 1 ∨ byteAt f 18 ≠ x.addr then s
    else
      let t4 := x.cycleTime + at_
      let held : Int := ((beAt f 28 8 : Int) - (beAt f 20 8 : Int)) % 2 ^ 64
      let t1 := if b then tb else ta
      let d := (ratio ((t4 - t1) - held) 2 s.free).toNat
      if x.isIntegrated then s.bump.filterD n b d else s.bump.gotD n b d
/-- A DELAY frame by its checks alone (R283, R285): windows cannot be judged yet. -/
def HlNet.delayOk (x : HlNet) (f : Bytes) : Bool :=
  hdrOk f && crcOk f && x.mine f && hType f == 5 && hLen f == 20 && !hTrailer f
/-- DELAY (R281, R283, R285, R286). -/
def effDelayFrame (n : Net) (port : Fin 4) (at_ : Nat) (f : Bytes) (s : State) : State :=
  let t := s.forwardFrame n port at_ f
  let x := s.net n
  let b := portB port
  let request := byteAt f 16 == 0 && byteAt f 18 == x.addr
  if !s.netUp n then t
  else if x.hub ∧ x.judges ∧ x.join.startPhase then
    t.iff (x.delayOk f && request) fun t => t.modNet n fun x => x.noteAsk b at_ f
  else if !x.hub ∧ (x.state = .sync ∨ (x.judges ∧ (if b then x.dB else x.dA).isNone ∧ hOut f)) then
    (t.iff (x.delayOk f && hOut f) fun t => t.takeD n b at_ f).passing n port at_ f
  else if !x.judges then t.heard n f
  else match t.arrive n port at_ f with
    | (t, some (c, out)) =>
      if c.kind ≠ 6 then t
      else if x.hub then (t.noteReady n f).iff request fun t => t.modNet n fun x => x.noteAsk b at_ f
      else t.iff out fun t => t.takeD n b at_ f
    | (t, none) => t
/-- DELAY. -/
def execDelayFrame (n : Net) (port : Fin 4) (at_ : Nat) (f : Bytes) (s : State) : Res := .next (effDelayFrame n port at_ f s)

/-- ACYCLIC (R273, R331): the first valid copy goes to Stile. -/
def effAcyclicFrame (n : Net) (port : Fin 4) (at_ : Nat) (f : Bytes) (s : State) : State :=
  let t := s.forwardFrame n port at_ f
  let x := s.net n
  if !s.netUp n then t
  else if !x.judges then (t.heard n f).passing n port at_ f
  else match t.arrive n port at_ f with
    | (t, some (c, out)) =>
      let t := t.noteReady n f
      if x.isIntegrated ∧ (c.kind = 4 ∨ c.kind = 5) ∧ x.receives c out ∧ x.firstCopy c.slot (portB port) then
        t.acyclicIn n (hSrc f) (hBody f)
      else t
    | (t, none) => t
/-- ACYCLIC. -/
def execAcyclicFrame (n : Net) (port : Fin 4) (at_ : Nat) (f : Bytes) (s : State) : Res := .next (effAcyclicFrame n port at_ f s)

/-! ## SLOT_START -/

/-- The partner delay message (R308), every 256 cycles: the standby's D is not handed over by any rule, so its bytes are
free (log entry 31). -/
def State.partnerDelay (s : State) (n : Net) : Bytes :=
  [255, 0x80, 0xFF, 0x01, Config.partnerAddr n] ++ beBytes 4 (Config.freeBits s.free 32).toNat
    ++ beBytes 4 (Config.freeBits (s.free + 1) 32).toNat
/-- The fixed output segment of a slot (R129); zeros where the directory declares none. -/
def State.slotOutput (s : State) (n : Net) (c : SlotDesc) : Bytes :=
  match s.slotSegment n true c.slot with
  | some (y, i) => padTo y.size (s.fixedOf i)
  | none => List.replicate c.room 0
/-- The hub answers a delay request in the outbound DELAY part (R281), each channel with its own receive time and, where two
nodes asked on one channel each, the node that asked there. -/
def State.answerDelay (s : State) (n : Net) (c : SlotDesc) (okA okB : Bool) : State :=
  let x := s.net n
  match x.join.asks.find? fun a => a.due == x.cycle with
  | none => s
  | some a0 =>
    let t3 := x.cycleTime + (c.outOff.getD 0 : Nat)
    let one (s : State) (b : Bool) : State :=
      let a := (x.join.asks.find? fun a => a.due == x.cycle && (if b then a.t2b else a.t2a).isSome).getD a0
      let t2 := ((if b then a.t2b else a.t2a).orElse fun _ => if b then a.t2a else a.t2b).getD 0
      s.sendOn n b (x.outPorts b) 5 c.slot x.cycle true false (s.readyOn n) 20 (delayBody 1 a.seq a.addr t2 t3)
    ((s.iff okA (one · false)).iff okB (one · true)).modNet n fun x =>
      { x with join := { x.join with asks := x.join.asks.filter fun a => a.due != x.cycle } }
/-- What the hub sends in an outbound part (R267, R271, R295, R308, R331). -/
def State.hubSlot (s : State) (n : Net) (c : SlotDesc) (okA okB : Bool) : State :=
  let x := s.net n
  match c.kind.toNat with
  | 0 =>
    if x.state = .reference then
      (s.sendSlot n okA okB 1 c false x.beaconBody.length x.beaconBody).modNet n fun x => { x with hubAddr := x.addr, refAddr := x.addr }
    else s
  | 2 => s.sendSlot n okA okB 2 c c.trailer c.len (padTo c.room (s.slotOutput n c))
  | 3 =>
    if (x.grantee c.slot).isSome then
      match (s.slotSegment n true c.slot).filter fun y => (x.grantee c.slot).any fun a => y.1.station == a.toNat with
      | some (y, i) =>
        s.sendSlot n okA okB 2 c c.trailer (y.size - if c.trailer then 8 else 0) (padTo y.size (s.fixedOf i))
      | none => s
    else s
  | 5 =>
    if s.dpx.standby ≠ 0 ∧ x.cycle.toNat % 256 = 0 then
      (s.sendSlot n okA okB 6 c false 13 (s.partnerDelay n)).bump.bump
    else
      match s.acyclicOut n (Nat.min 1472 (classBytes c.sizeClass)) true with
      | (s, some b) => s.sendSlot n okA okB 6 c false b.length b
      | (s, none) => s
  | 6 => s.answerDelay n c okA okB
  | _ => s
/-- What another node sends in an inbound part (R262, R286, R294, R295, R331). -/
def State.nodeSlot (s : State) (n : Net) (c : SlotDesc) (okA okB : Bool) : State :=
  let x := s.net n
  let turn := BitVec.ofNat 8 (x.cycle.toNat % 256) == x.addr
  match c.kind.toNat with
  | 0 =>
    if x.state = .reference then
      let s := (s.sendSlot n okA okB 1 c false x.beaconBody.length x.beaconBody).modNet n fun x => { x with refAddr := x.addr }
      let t := x.cycleTime + 20000
      s.iff x.ownPeriod (·.askDelay n true true (t - x.d false) (t - x.d true))
    else s
  | 3 =>
    if x.own = some c.slot then s.sendSlot n okA okB 2 c c.trailer 0 (List.replicate (if c.trailer then 8 else 0) 0)
    else if x.claim.any fun k => k.1 == c.slot then
      s.sendSlot n okA okB 4 c c.trailer 16
        (beBytes 4 x.schedId.toNat ++ beBytes 2 c.slot ++ [c.sizeClass, 0] ++ padTo 8 Config.claimIds
          ++ List.replicate (if c.trailer then 8 else 0) 0)
    else s
  | 4 =>
    if c.node = x.addr ∨ (c.node = 255 ∧ turn) then
      match s.acyclicOut n (Nat.min 1472 (classBytes c.sizeClass)) false with
      | (s, some b) => s.sendSlot n okA okB 6 c false b.length b
      | (s, none) => s
    else s
  | 6 =>
    match turn, c.inOff with
    | true, some o => s.askDelay n okA okB (x.cycleTime + o - x.d false) (x.cycleTime + o - x.d true)
    | _, _ => s
  | _ => s
/-- The node owns the part of the slot that it would send in (R267, R271). -/
def HlNet.sends (x : HlNet) (c : SlotDesc) : Bool :=
  let turn := BitVec.ofNat 8 (x.cycle.toNat % 256) == x.addr
  match c.kind.toNat with
  | 0 => x.state == .reference
  | 1 => false
  | 2 => x.hub
  | 3 => if x.hub then (x.grantee c.slot).isSome else x.own == some c.slot || x.claim.any fun k => k.1 == c.slot
  | 4 => !x.hub && (c.node == x.addr || (c.node == 255 && turn))
  | 5 => x.hub
  | _ => if x.hub then x.join.asks.any fun a => a.due == x.cycle else turn
/-- A guardian refusal (R291, R292). -/
def HlNet.refuse (x : HlNet) (b : Bool) : HlNet :=
  let x := { x with refusals := x.refusals ++ [x.cycle] }
  if b then { x with refusedB := satInc x.refusedB } else { x with refusedA := satInc x.refusedA }
/-- SLOT_START (R268, R271, R291): the guardian blocks a start more than G/4 off its prediction, which holds for up to 3
cycles without a BEACON; the slot stays empty on that channel (log entry 79). -/
def effSlotStart (n : Net) (slot : Fin 4096) (devA devB : Int) (s : State) : State :=
  let x := s.net n
  match s.netUp n && x.isIntegrated, x.slot slot with
  | true, some c =>
    if x.sends c then
      let known := x.state == .reference || decide (x.noBeacon ≤ 3)
      let okA := known && decide (4 * devA.natAbs ≤ x.guard)
      let okB := known && decide (4 * devB.natAbs ≤ x.guard)
      let s := s.modNet n fun x =>
        let x := if okA then x else x.refuse false
        if okB then x else x.refuse true
      if x.hub then s.hubSlot n c okA okB else s.nodeSlot n c okA okB
    else s
  | _, _ => s
/-- SLOT_START. -/
def execSlotStart (n : Net) (slot : Fin 4096) (devA devB : Int) (s : State) : Res := .next (effSlotStart n slot devA devB s)

/-! ## ACCEPTANCE_WINDOW_END -/

/-- One of VALID, INVALID, EMPTY of a channel advances, and CYCLES (R274). -/
def SlotCnt.count (k : SlotCnt) (r : SlotRx) : SlotCnt :=
  { cycles := k.cycles + 1
    validA := if r.a = 1 then k.validA + 1 else k.validA, invalidA := if r.a = 2 then k.invalidA + 1 else k.invalidA
    emptyA := if r.a = 1 ∨ r.a = 2 then k.emptyA else k.emptyA + 1
    validB := if r.b = 1 then k.validB + 1 else k.validB, invalidB := if r.b = 2 then k.invalidB + 1 else k.invalidB
    emptyB := if r.b = 1 ∨ r.b = 2 then k.emptyB else k.emptyB + 1 }
/-- The node expects the slot in this cycle (R274): the hub inbound parts, another node slot 0 and the outbound parts for it
or for all; a spare slot once granted; a hub that is the reference sends slot 0 itself. -/
def HlNet.expects (x : HlNet) (c : SlotDesc) : Bool :=
  match c.kind.toNat with
  | 0 => !(x.hub && x.state == .reference)
  | 3 => if x.hub then (x.grantee c.slot).isSome else x.own == some c.slot
  | _ =>
    if x.hub then c.inOff.isSome else c.outOff.isSome && (c.node == x.addr || c.node == 255)
/-- The cycles after a takeover whose slots do not count as missed (R309). -/
def State.inGrace (s : State) (n : Net) : Bool :=
  match n with
  | .hl1 => s.dpx.graceHl1 != 0
  | .hl2 => s.dpx.graceHl2 != 0
/-- The segment of a slot was missed (R131): a station that is declared failed by it is lost to Stile (R335). -/
def State.slotMissed (s : State) (n : Net) (slot : Nat) : State :=
  match (s.slotSegment n false slot).filter fun y => ((s.net n).grantee slot).all fun a => y.1.station == a.toNat with
  | none => s
  | some (y, i) =>
    let t := s.missed n y.station i
    if (t.station n y.station).fails != (s.station n y.station).fails then t.targetLost (n == .hl2) y.station 6 0xFE true else t
/-- ACCEPTANCE_WINDOW_END (R131, R274, R295, R309). -/
def effAcceptanceWindowEnd (n : Net) (slot : Fin 4096) (s : State) : State :=
  let x := s.net n
  match s.netUp n && x.isIntegrated, x.slot slot with
  | true, some c =>
    let r := x.rxOf slot
    if x.expects c && r.a != 3 then
      let got := r.a == 1 || r.b == 1
      let s := s.modNet n fun x =>
        let x := { x with
          counters := Tbl.upd (fun _ => SlotCnt.reset) x.counters slot (·.count r)
          rx := Tbl.set (fun _ => SlotRx.reset) x.rx slot ⟨3, 3⟩ }
        if x.hub then { x with grants := x.grants.map fun g =>
          if g.1 = slot.val then (g.1, g.2.1, g.2.2.1, if got then 0 else g.2.2.2 + 1) else g } else x
      s.iff (x.hub && !got && !s.inGrace n) (·.slotMissed n slot)
    else s
  | _, _ => s
/-- ACCEPTANCE_WINDOW_END. -/
def execAcceptanceWindowEnd (n : Net) (slot : Fin 4096) (s : State) : Res := .next (effAcceptanceWindowEnd n slot s)

/-! ## Limits (R278, R279, R292 to R295) -/

/-- A number of cycles of a network in TBU counts. -/
def HlNet.cyclesCounts (x : HlNet) (k : Nat) : Nat := k * x.cycleNs / 2
/-- LISTEN_TIMEOUT: after 8 cycles and 1 ms with nothing seen the node, which is cold-start capable, sends its first
COLDSTART. -/
def effListenTimeout (n : Net) (s : State) : State :=
  let x := s.net n
  if s.netUp n ∧ x.state = .listen ∧ x.since + x.cyclesCounts 8 + countsMs ≤ s.now then
    (s.modNet n fun x => { x with
      state := .coldstart, attempt := satInc x.attempt, since := s.now, cycle := 0, cycleAt := s.now
      cycleTime := s.netNow }).sendColdstart n
  else s
/-- LISTEN_TIMEOUT. -/
def execListenTimeout (n : Net) (s : State) : Res := .next (effListenTimeout n s)
/-- COLDSTART_WINDOW_END: after 8 cycles the starter is the reference; its network time is the one it proposed, CYCLE 0
begins at its next cycle start, grants and splits of the network end (R263, R278, R295). -/
def effColdstartWindowEnd (n : Net) (s : State) : State :=
  let x := s.net n
  if s.netUp n ∧ x.state = .coldstart ∧ x.since + x.cyclesCounts 8 ≤ s.now then
    let s := if s.tbu.plantSet then s.netStep (s.plantNow - s.netNow) else s
    let s := s.modNet n fun x => { x with
      cycle := 0xFFFFFFFF, refAddr := x.addr, hubAddr := if x.hub then x.addr else 0, splitA := false, splitB := false
      grants := [], claims := [], epoch := if x.hub then s.dpx.epoch else x.epoch
      join := { x.join with startPhase := true, stepped := false, sawCold := false } }
    (s.integrate n .reference).referenceRate n
  else s
/-- COLDSTART_WINDOW_END. -/
def execColdstartWindowEnd (n : Net) (s : State) : Res := .next (effColdstartWindowEnd n s)
/-- WAIT_TIMEOUT: 16 cycles since the last COLDSTART. -/
def effWaitTimeout (n : Net) (s : State) : State :=
  let x := s.net n
  if s.netUp n ∧ x.state = .wait ∧ x.since + x.cyclesCounts 16 ≤ s.now then
    s.modNet n fun x => { x with state := .listen, since := s.now, join := { x.join with sawCold := false } }
  else s
/-- WAIT_TIMEOUT. -/
def execWaitTimeout (n : Net) (s : State) : Res := .next (effWaitTimeout n s)
/-- OBSERVE_TIMEOUT: 16 cycles without a full valid cycle; D is discarded. -/
def effObserveTimeout (n : Net) (s : State) : State :=
  let x := s.net n
  if s.netUp n ∧ x.state = .observe ∧ x.since + x.cyclesCounts 16 ≤ s.now then
    s.modNet n fun x => { x with
      state := .sync, dA := none, dB := none, offA := none, offB := none
      join := { x.join with observe := none, tries := 0, triesB := 0, startPhase := false } }
  else s
/-- OBSERVE_TIMEOUT. -/
def execObserveTimeout (n : Net) (s : State) : Res := .next (effObserveTimeout n s)
/-- BEACON_LOSS (R293): 4 cycles without a valid BEACON. -/
def effBeaconLoss (n : Net) (s : State) : State :=
  let x := s.net n
  if s.netUp n ∧ (x.state = .sync ∨ x.state = .observe ∨ x.state = .integrated) ∧ 4 ≤ x.noBeacon then s.leave n 1 else s
/-- BEACON_LOSS. -/
def execBeaconLoss (n : Net) (s : State) : Res := .next (effBeaconLoss n s)
/-- HUB_ASSUMES_REFERENCE (R293): 2 cycles without the reference's inbound BEACON. -/
def effHubAssumesReference (n : Net) (s : State) : State :=
  let x := s.net n
  if s.netUp n ∧ x.hub ∧ x.state = .integrated ∧ 2 ≤ x.noBeacon then
    (s.modNet n fun x => { x with state := .reference, refAddr := x.addr, noBeacon := 0, bigTheta := 0 }).referenceRate n
  else s
/-- HUB_ASSUMES_REFERENCE. -/
def execHubAssumesReference (n : Net) (s : State) : Res := .next (effHubAssumesReference n s)
/-- GUARDIAN_LIMIT (R292): 8 refusals in 256 cycles. -/
def effGuardianLimit (n : Net) (s : State) : State :=
  let x := s.net n
  if s.netUp n ∧ x.judges ∧ 8 ≤ x.refusals.length then
    (s.leave n 2).modNet n fun x => { x with refusals := [], leaves := satInc x.leaves }
  else s
/-- GUARDIAN_LIMIT. -/
def execGuardianLimit (n : Net) (s : State) : Res := .next (effGuardianLimit n s)
/-- RING_SPLIT (R263): 2 cycles without the own BEACON at port 2. -/
def effRingSplit (n : Net) (c : Chan) (s : State) : State :=
  let x := s.net n
  if s.netUp n ∧ x.hub ∧ x.isIntegrated ∧ x.port2 = 2 ∧ 2 ≤ (match c with | .a => x.ringMissA | .b => x.ringMissB) then
    s.modNet n fun x => match c with | .a => { x with splitA := true } | .b => { x with splitB := true }
  else s
/-- RING_SPLIT. -/
def execRingSplit (n : Net) (c : Chan) (s : State) : Res := .next (effRingSplit n c s)
/-- CLAIM_ABANDONED (R279, R294): 8 cycles without a grant; the claimant picks again. -/
def effClaimAbandoned (n : Net) (s : State) : State :=
  let x := s.net n
  match s.netUp n, x.claim with
  | true, some (_, k) => if 8 ≤ k then s.modNet n fun x => { x with claim := x.pick.map fun j => (j, 0) } else s
  | _, _ => s
/-- CLAIM_ABANDONED. -/
def execClaimAbandoned (n : Net) (s : State) : Res := .next (effClaimAbandoned n s)
/-- GRANT_RELEASED (R295): missed on both channels for 256 cycles. -/
def effGrantReleased (n : Net) (slot : Fin 4096) (s : State) : State :=
  let x := s.net n
  if s.netUp n ∧ x.hub then
    s.modNet n fun x => { x with grants := x.grants.filter fun g => !(g.1 == slot.val && decide (256 ≤ g.2.2.2)) }
  else s
/-- GRANT_RELEASED. -/
def execGrantReleased (n : Net) (slot : Fin 4096) (s : State) : Res := .next (effGrantReleased n slot s)
/-- LINK_CHANGE (R257): HLA_PORT; MASTER in generation 2 only. -/
def effLinkChange (n : Net) (port : Fin 4) (up master : Bool) (s : State) : State :=
  if s.domOn 4 then
    s.modNet n fun x =>
      let m : BitVec 4 := 1 <<< port.val
      let put (v : BitVec 4) (b : Bool) : BitVec 4 := if b then v ||| m else v &&& ~~~ m
      { x with
        linkUp := put x.linkUp up, master := put x.master (up && master && x.gen == 2)
        drops := if x.linkUp.getLsbD port ∧ !up then Tbl.upd (fun _ => 0) x.drops port satInc else x.drops }
  else s
/-- LINK_CHANGE. -/
def execLinkChange (n : Net) (port : Fin 4) (up master : Bool) (s : State) : Res := .next (effLinkChange n port up master s)

end Sys2Proof.Machine
end

