-- ==== Sys2Proof/Machine/Replay.lean ====
section
/-! DEFINITION. Replay of the acceptance journal at a start, a takeover or a swap (R32, R33, R73, R74, R76). -/

namespace Sys2Proof.Machine

/-- Entries of a ring pair, in acceptance order. -/
def State.entriesOf (s : State) (n : Nat) : List JEntry := s.journal.filter (·.ring == n)
/-- The last of the waiting records ends the replay. -/
def markLast : List (Bytes × Bool × Bool) → List (Bytes × Bool × Bool)
  | [] => []
  | [(b, c, _)] => [(b, c, true)]
  | x :: l => x :: markLast l
/-- REPLAY_DONE of a ring pair, once every record of the replay has been written. -/
def State.replayDone (s : State) (n : Nat) : State :=
  s.modRing n fun r => { r with replayDone := r.backlog.isEmpty, backlog := markLast r.backlog }
/-- What the journal says is done is written again with REPLAYED (R32, R73): DONE records that were written but not
delivered, and committed ones that R31 does not hold back; a held one is marked. -/
def State.replayCommitted (s : State) (n : Nat) : State :=
  let s := (s.entriesOf n).foldl (fun s e => if e.phase = .doneWritten then s.putDone e true else s) s
  let s := s.modJournal fun j => j.map fun e =>
    if e.ring = n ∧ e.phase = .committed then { e with replay := true } else e
  let combined := (s.entriesOf n).filter fun e => e.combined && e.phase == .committed
  (combined.foldl (fun s e => s.putDone e true) s).flush n
/-- The ACCEPTED records of commands that are performed again (R73); class Q has none. -/
def State.replayAccepted (s : State) (n : Nat) : State :=
  (s.entriesOf n).foldl (fun s e => if !e.committed && !e.combined then s.putAccepted e true else s) s
/-- Replay of a ring pair after a warm start, a takeover or a swap (R32, R73). -/
def State.replayRing (s : State) (n : Nat) : State := ((s.replayCommitted n).replayAccepted n).replayDone n
/-- Work under way stops; its commands are performed from the beginning (R32). -/
def State.backToAccepted (s : State) : State :=
  s.modJournal fun j => j.map fun e => if e.phase = .executing then { e with phase := .accepted } else e
/-- What a module that becomes standby was doing stops; its commands go back to accepted (R32). -/
def State.stopWork (s : State) : State :=
  (s.modSys fun y => { y with stopJob := none, runWait := none, initRun := none, shutJob := none }).backToAccepted
/-- The replay of R32 over every ring pair. -/
def State.replayWarm (s : State) : State := (List.range 32).foldl State.replayRing s.backToAccepted
/-- Completion of the old epoch on a ring pair (R33): first the records that were written and not delivered (R73), then,
in acceptance order, those of every other handle. -/
def State.abandonRing (s : State) (n : Nat) : State :=
  let l := s.entriesOf n
  let s := (l.filter (·.phase == .doneWritten)).foldl (fun s e => s.putDone e true) s
  ((l.filter (·.phase != .doneWritten)).foldl (fun s e =>
    if e.committed then s.putDone e true
    else s.putDone { e with status := stAbandoned, result := List.replicate 48 0 } true) s).replayDone n
/-- The journal keeps what an abandoned command's record says. -/
def State.markAbandoned (s : State) : State :=
  s.modJournal fun j => j.map fun e =>
    if e.committed then e else { e with status := stAbandoned, result := List.replicate 48 0 }
/-- R33 over every ring pair. -/
def State.replayCold (s : State) : State := (List.range 32).foldl State.abandonRing s.markAbandoned
/-- Every ring pair is emptied with TAKEOVER set (R74). -/
def State.takeRings (s : State) : State :=
  (s.modRings fun t => Tbl.updAll Ring.reset (fun _ r => { r with
    takeover := true, replayDone := false, acceptHeld := false, gen := r.gen + 1, cmdProd := 0, cmdCons := 0, cplProd := 0
    cplCons := 0, undelivered := [], from1 := [], backlog := [], subs := [] }) (List.range 32) t).modMem fun m => { m with ring := [] }

end Sys2Proof.Machine
end

