-- ==== Sys2Proof/Machine/Duplex.lean ====
section
/-! DEFINITION. The duplex: claims, heartbeats, mirrors, standby states, takeover, planned swaps
(13_duplex_redundancy.md). -/

namespace Sys2Proof.Machine

/-! ## The standby as the active sees it (R302, R318) -/

/-- A planned swap that can no longer take place: the command is refused, held tasks go on (R315, R320). -/
def State.dropSwap (s : State) : State :=
  match s.dpx.swap with
  | none => s
  | some h =>
    let s := s.modDpx fun d => { d with swap := none, swapDrained := false }
    let s := s.resume (s.stdPresent.filter fun t => (s.task t).held) false
    match h with
    | some h => s.refuse h 0x81
    | none => s
/-- Latch points that waited for an acknowledgement are taken at once (R304). -/
def State.latchWaiting (s : State) : State :=
  s.present.foldl (fun s t =>
    let w := (s.task t).mirrorWait
    let s := s.modTask t fun k => { k with unacked := none }
    if w then s.latch t false else s) s
/-- The standby is ABSENT; resynchronisation ends, the module continues alone (R302, R318). -/
def State.standbyGone (s : State) : State :=
  if s.dpx.standby = 0 then s
  else
    let s := (s.standbyTo 0 0).modDpx fun d => { d with phase := 0, catchUp := [], swapBack := false }
    (s.setRole (if s.dpx.partnerSeen then s.dpx.role else 0) 0).latchWaiting.dropSwap
/-- Every phase of the resynchronisation is complete, or every mirror of a period was acknowledged: IN_SYNC. -/
def State.synced (s : State) (cause : Nat) : State :=
  (s.standbyTo 2 cause).modDpx fun d => { d with phase := 0, catchUp := [], swapBack := false }

/-! ## Taking the active role (R306 to R311, R315) -/

/-- Stile on the new active (R340, R342): one log entry with cause 0x8 for each context and target that had posted writes
without a mirrored answer, tagged with the oldest; semaphores are free. -/
def State.takeStile (s : State) : State :=
  let targets := (s.dpx.posted.map fun p => (p.ctx, p.hl2, p.station)).eraseDups
  let s := targets.foldl (fun s (x, h, a) =>
    match s.dpx.posted.find? fun p => p.ctx == x && p.hl2 == h && p.station == a with
    | some p => s.postedFail { ctx := x, hl2 := h, station := a, op := 3, tag := p.tag, addr := p.addr, len := 0, data := []
                               h := none, sent := true, cycle := 0, busy := false, desc := [], win := none } 8 0xFF
    | none => s) s
  (s.modStl fun t => { t with sems := [] }).modDpx fun d => { d with posted := [] }
/-- First switch-on of mode 0x8 channels: 562.5 µs after the reported channel tick, unless DW_OFF was reported (R311). -/
def State.switchHold (s : State) : Nat :=
  match s.dpx.lastBeat with
  | some m => if m.dwOff then 0 else m.channelTick.toNat + 281250
  | none => 0
/-- The ROLE_SWAP that was under way, on the new active (R315, R320): after a swap committed with the boundary and the new
epoch, its DONE record written by this module; at a takeover on a fault report WRONG_MODE. One that its class still held
back was not under way and is performed (R32; log entry 72). -/
def State.settleSwap (s : State) (swap fault : Bool) : State :=
  match s.journal.find? fun e => e.opcode == 0x2017 && !e.committed with
  | none => s
  | some e =>
    if !((swap || fault) && (before e.handle s.journal).all fun x => x.cls != .m || x.committed) then s
    else s.modEntry e.handle fun e => { e with
      phase := .committed, status := if swap then stOk else stWrongMode
      result := padTo 48 (if swap then leBytes 8 s.now ++ [s.dpx.epoch] else []) }
/-- The standard tasks, which were held, latch at a swap boundary, in priority order (R315). -/
def State.latchAll (s : State) : State :=
  let l := s.stdPresent
  let order := (List.range 17).foldl (fun acc _ => acc ++ (s.first (l.filter fun t => !acc.contains t)).toList) []
  order.foldl (fun s t => s.latch t false) s
/-- The image that a new active resumes from: the newest mirrored version, every station segment of it STALE until a frame
refreshes it (R310). -/
def State.resumeImage (s : State) : State :=
  (s.segs.zipIdx.filter fun (x, _) => !x.isOut && decide (x.source.toNat < 2)).foldl (fun s (_, i) =>
    let b := (Tbl.get (fun _ => ([], 0)) s.dpx.mirrored i).1
    if b.isEmpty then s else
    s.modIn i fun y => { y with raw := b, age := if y.age = 0 then 1 else y.age }) s
/-- The standby becomes active: claim, role epoch, rings, hub roles, mode, tasks, replay (R306, R307, R310, R73). -/
def State.becomeActive (s : State) (swap : Bool) : State :=
  let fault := s.dpx.lastBeat.any (·.faultReport)
  let s := if swap then s else s.cancelArmed 3 2
  let s := (s.assertClaim.modDpx fun d => { d with
    epoch := d.epoch + 1, takeHub1 := true, takeHub2 := true, phase := 0, catchUp := [], swap := none
    swapBack := swap, staged := [], dwHold := if swap then 0 else s.switchHold
    takeovers := if swap then d.takeovers else d.takeovers + 1, swaps := if swap then d.swaps + 1 else d.swaps
    decidedAt := if swap then none else some s.now }).takeRings
  let s := s.setRole (if s.dpx.partnerSeen then 1 else 0) (if swap then 3 else 0)
  let s := (s.setMode (if s.dpx.partnerRun then .run else .stop) 0 2).modAllTasks fun _ k =>
    if k.present then { k with state := if s.dpx.partnerRun then 1 else 4, latched := k.cur.isSome, stopped := false, unacked := none } else k
  let s := ((s.resumeImage.takeStile.modProg fun p => { p with olc := none, forceJob := none }).settleSwap swap fault).replayWarm
  if swap && s.sys.mode == .run then s.latchAll else s
/-- The standby may decide on takeover, and a condition of R306 holds. -/
def State.takeoverDue (s : State) : Bool :=
  s.pwr.on && s.sys.mode == .follow && s.dpx.role == 2 && s.dpx.standby == 2 && !s.dpx.partnerClaim &&
    (!s.dpx.partnerSeen || s.dpx.lastBeat.any (·.faultReport))
/-- TAKEOVER where it is due. -/
def State.takeover (s : State) : State := if s.takeoverDue then s.becomeActive false else s

/-! ## Heartbeats and lanes (R301, R302) -/

/-- The pair link's state of a lane. -/
def Dpx.setLane (d : Dpx) (lane : Fin 2) (up : Bool) : Dpx :=
  if lane = 0 then { d with lane0 := up } else { d with lane1 := up }
/-- On the standby, a start or HALT of the active or the loss of both lanes ends a resynchronisation (R318). -/
def State.resyncEnds (s : State) : State :=
  if s.dpx.phase = 0 then s else (s.setRole 2 0).modDpx fun d => { d with phase := 0 }
/-- HEARTBEAT (R301, R302, R306): a standby whose active starts upon a START_COLD leaves FOLLOW and starts too (R48);
a lane that carries one is up; the active sees its partner come into FOLLOW or leave it. -/
def effHeartbeat (lane : Fin 2) (m : HeartbeatMsg) (s : State) : State :=
  if !s.domOn 5 then s
  else
    let s := s.modDpx fun d => { d.setLane lane true with lastBeat := some m, beatAt := s.now, partnerSeen := true }
    if s.sys.mode = .follow then
      if m.mode = 1 ∧ s.journal.any (fun e => e.opcode == 0x2015 && !e.committed) then s.enterStart .follow 2 else
      let s := if m.mode = 1 ∨ m.mode = 6 then s.resyncEnds else s
      let begins := m.mode != 1 && m.mode != 6 && s.dpx.standby == 0 && !s.dpx.swapBack && s.dpx.incompat == 0
      let s := if begins then (s.setRole 2 1).modDpx fun d => { d with phase := 1, mirrored := [] } else s.setRole 2 s.dpx.standby
      s.takeover
    else if !s.dpx.ownClaim then s
    else if m.mode = 4 ∧ m.role = 2 then
      if s.dpx.standby = 0 ∧ s.dpx.incompat = 0 then
        ((s.modDpx fun d => { d with role := 1 }).standbyTo 1 0).modDpx fun d => { d with phase := 1 }
      else s.setRole 1 s.dpx.standby
    else if s.dpx.standby ≠ 0 ∧ !s.dpx.swapBack then s.standbyGone.setRole 1 0
    else (s.setRole 1 s.dpx.standby).modDpx fun d => { d with incompat := 0 }
/-- HEARTBEAT. -/
def execHeartbeat (lane : Fin 2) (m : HeartbeatMsg) (s : State) : Res := .next (effHeartbeat lane m s)
/-- All mode 0x8 channels have been commanded off and their switches reported open (R301). -/
def State.dwAllOff (s : State) : Bool := allChans.all fun c => let x := s.chan c; x.m != 8 || (!x.cmd && !x.readback)
/-- The heartbeat of this module (R301). -/
def State.beat (s : State) : HeartbeatMsg :=
  { role := s.dpx.role, mode := modeCode s.sys.mode
    mirrorSeq := if s.sys.mode = .follow then s.dpx.lastMirror else s.dpx.mseq
    channelTick := BitVec.ofNat 64 s.fld.lastTick, dwOff := s.dpx.dwOff, faultReport := s.dpx.faultReport }
/-- HEARTBEAT_SEND (R301): every 20 µs, on both lanes. -/
def effHeartbeatSend (s : State) : State :=
  if s.domOn 5 && decide (s.dpx.beatSent = 0 ∨ s.dpx.beatSent + 20 * countsUs ≤ s.now) then
    let s := s.modDpx fun d => { d with dwOff := !d.ownClaim && s.dwAllOff, beatSent := s.now }
    (s.emit (.heartbeat 0 s.beat)).emit (.heartbeat 1 s.beat)
  else s
/-- HEARTBEAT_SEND. -/
def execHeartbeatSend (s : State) : Res := .next (effHeartbeatSend s)
/-- HEARTBEAT_LOSS (R302, R306): 60 µs without a heartbeat on either lane. -/
def effHeartbeatLoss (s : State) : State :=
  if s.pwr.on && s.dpx.partnerSeen && decide (s.dpx.beatAt + 60 * countsUs ≤ s.now) then
    let s := s.modDpx fun d => { d with partnerSeen := false, incompat := 0 }
    if s.sys.mode = .follow then s.takeover
    else s.standbyGone.setRole 0 0
  else s
/-- HEARTBEAT_LOSS. -/
def execHeartbeatLoss (s : State) : Res := .next (effHeartbeatLoss s)
/-- PAIR_LINK_LANE_LOSS (R301, R318): the loss of both lanes ends a resynchronisation. -/
def effPairLinkLaneLoss (lane : Fin 2) (s : State) : State :=
  let s := s.modDpx fun d => d.setLane lane false
  if !s.dpx.lane0 && !s.dpx.lane1 && s.dpx.standby == 1 then
    (if s.sys.mode = .follow then s.resyncEnds else s.standbyGone) else s
/-- PAIR_LINK_LANE_LOSS. -/
def execPairLinkLaneLoss (lane : Fin 2) (s : State) : Res := .next (effPairLinkLaneLoss lane s)
/-- PAIR_LINK_LANE_RESTORED (R301). -/
def effPairLinkLaneRestored (lane : Fin 2) (s : State) : State :=
  if s.domOn 5 then s.modDpx fun d => d.setLane lane true else s
/-- PAIR_LINK_LANE_RESTORED. -/
def execPairLinkLaneRestored (lane : Fin 2) (s : State) : Res := .next (effPairLinkLaneRestored lane s)

/-! ## Claims (R298 to R300, R306, R314) -/

/-- CLAIM_RELEASED: the eligible standby takes over when R306 says so; one that is not eligible stays in FOLLOW and records
the loss (R314). -/
def effClaimReleased (s : State) : State :=
  if !s.pwr.on || !s.dpx.partnerClaim then s
  else
    let s := s.modDpx fun d => { d with partnerClaim := false }
    if s.sys.mode ≠ .follow then s
    else if s.dpx.standby = 2 then s.takeover
    else s.raise srcSup 0x7002 5 ([s.dpx.standby.setWidth 8, 0, 0, 0] ++ le 8 s.dpx.lastMirror)
/-- CLAIM_RELEASED. -/
def execClaimReleased (s : State) : Res := .next (effClaimReleased s)
/-- CLAIM_RECOGNISED: of two claims asserted within 250 µs the one at position 1 is released, by a start into FOLLOW
(R299); a module whose partner has taken over becomes standby (R38). -/
def effClaimRecognised (s : State) : State :=
  if !s.pwr.on || s.dpx.partnerClaim then s
  else
    let s := s.modDpx fun d => { d with partnerClaim := true }
    if s.dpx.ownClaim then
      if s.mfg.slotPos ∧ s.now ≤ s.dpx.claimAt + 500 * countsUs then s.releaseClaim.enterStart .follow 2 else s
    else if s.sys.mode = .run ∨ s.sys.mode = .stop then
      let s := (s.forceProgress fun _ => true).modAllTasks fun _ t => t.abandon
      let s := s.stopWork
      ((s.setRole 2 1).modDpx fun d => { d with phase := 1 }).setMode .follow 0 2
    else s
/-- CLAIM_RECOGNISED. -/
def execClaimRecognised (s : State) : Res := .next (effClaimRecognised s)
/-- CLAIM_WATCHDOG_EXPIRY (R298, R300): the square wave stops; what may be transmitted ends with the claim. -/
def effClaimWatchdogExpiry (s : State) : State := if s.pwr.on then s.releaseClaim else s
/-- CLAIM_WATCHDOG_EXPIRY. -/
def execClaimWatchdogExpiry (s : State) : Res := .next (effClaimWatchdogExpiry s)

/-! ## Mirrors (R303 to R305) -/

/-- Output bytes of a mirror in the Sending buffers. -/
def State.mirrorOutputs (s : State) (l : List (Nat × Byte)) : State :=
  l.foldl (fun s (a, v) =>
    match s.outSegs.find? fun (x, _) => decide (x.imageOff ≤ a ∧ a < x.imageOff + x.size) with
    | none => s
    | some (x, i) => s.modSwd fun w => { w with
        sending := Tbl.set (fun _ => []) w.sending i (patch (padTo x.size (s.sendingOf i)) (a - x.imageOff) [v])
        writing := Tbl.set (fun _ => []) w.writing i (patch (padTo x.size (s.writingOf i)) (a - x.imageOff) [v]) }) s
/-- The Stile state of a mirror (R303, R340). -/
def State.mirrorStile (s : State) (m : StileMirror) : State :=
  let s := if m.routing.isEmpty then s else
    s.modCfg fun c => { c with cur := { c.cur with routing := (entries 16 m.routing).map parseRoute } }
  let s := s.modStl fun t => { t with
    log := m.log.foldl (fun l (i, e) => Tbl.set (fun _ => none) l i (some e)) []
    ctxs := m.ctxs.foldl (fun l c => Tbl.upd (fun _ => Ctx.reset) l c.ctx fun x =>
      { x with fences := c.fences, fenceAll := c.fenceAll, lost := c.lost, lostAt := c.lostAt }) t.ctxs }
  let of (h : Bool) : List (Nat × Byte × Nat × Nat) := (m.grants.filter (·.1 == h)).map (·.2)
  ((s.modHl1 fun x => { x with grants := of false }).modHl2 fun x => { x with grants := of true }).modDpx fun d =>
    { d with posted := m.posted }
/-- A mirrored container or configuration set takes effect on the standby (R303). -/
def State.applyItem (s : State) (it : MirrorItem) : State :=
  match it with
  | .container part b =>
    match verified s.saf.items b with
    | none => s
    | some c0 =>
      let c : Container := { c0.rebase part.toNat with part := if c0.kind = 1 then 0 else part }
      ((s.modProg fun p => (p.putSlot c).store c.kind part b).setTasks).iff (c.kind == 1) (·.loadLanes)
  | .config b =>
    match parseConfig b with
    | none => s
    | some p => (s.modCfg fun c => { c with stored := some b }).applyConfig p.set
  | _ => s
/-- Opcodes whose transferred item takes effect with their commit: CONTAINER_LOAD, ONLINE_CHANGE, CONFIG_LOAD (R107, R115,
R248). -/
def carriesItem (op : BitVec 16) : Bool := op == 0x2020 || op == 0x2021 || op == 0x2026
/-- A container or set sent for a command that has not committed waits for its commit; in a resynchronisation it is applied
at once (R305, R318, R320). -/
def State.stage (s : State) (it : MirrorItem) : State :=
  if s.journal.any fun e => carriesItem e.opcode && !e.committed then s.modDpx fun d => { d with staged := d.staged ++ [it] }
  else s.applyItem it
/-- The commit of such a command reaches the standby: with status OK what was staged takes effect. -/
def State.unstage (s : State) (c : JMirror) : State :=
  if (s.entry c.handle).any fun e => carriesItem e.opcode && !e.committed then
    let l := s.dpx.staged
    let s := s.modDpx fun d => { d with staged := [] }
    if c.status = stOk then l.foldl State.applyItem s else s
  else s
/-- The version that a task latched, as the standby holds it: the newest mirrored one with what this mirror carries; it is
the task's Previous when the standby takes over (R310). -/
def State.mirrorVersion (s : State) (m : CycleMirror) : State :=
  let s := s.noteMirrored m.version
  let segs := (s.segs.zipIdx.filter fun (x, _) => !x.isOut).map fun (_, i) => Tbl.get (fun _ => ([], 0)) s.dpx.mirrored i
  ((s.modSwd fun w => { w with
    version := m.vnum, versions := ⟨m.vnum, s.now, s.sys.baseTick, segs⟩ :: w.versions.filter (·.num != m.vnum) }).modTask m.task fun k =>
      { k with cur := some m.vnum }).prune
/-- Of task 0: the latest export buffer and the captured handover copy (R303). -/
def State.mirrorSafety (s : State) (m : CycleMirror) : State :=
  if m.task ≠ 0 then s else
  (s.modTri fun t => { t with expLatest := Tbl.store [] 0 m.exportBuf }).modCpr fun p => { p with
    handCopy := (leAt m.handover 0 8, byteAt m.handover 8, Tbl.store [] 0 (m.handover.drop 16)) }
/-- The bank header of a commit that the standby's banks do not hold: with the values that the mirrors brought (R303). -/
def State.mirrorHeader (s : State) (q : Quad) (run : Bool) : State :=
  if (s.prog.lastCommit.map (·.seq)) = some q then s else
  let c : Commit :=
    { seq := q, layouts := s.prog.loaded.map fun c => (c.id, c.retLayout, c.perLayout), digests := s.prog.loaded.map (·.digest)
      forces := s.prog.forces, inRun := run, vals := s.prog.loaded.flatMap fun c => c.retained none }
  s.modProg fun p => { p with
    bank0 := if p.last1 then some c else p.bank0, bank1 := if p.last1 then p.bank1 else some c, last1 := !p.last1
    commitSeq := q }
/-- A complete cycle mirror is applied as a whole (R305). -/
def State.applyMirror (s : State) (m : CycleMirror) : State :=
  let s := m.commits.foldl State.unstage s
  let s := ((s.mirrorOutputs m.outputs).mirrorVersion m).mirrorSafety m
  let s := s.modProg fun p => { p with forces := m.forces.map fun (v, e, o, b) => ⟨v, e, o, b⟩ }
  let s := match s.taskOf m.task with
    | some (c, _) => (s.modProg fun p =>
        p.modContainer c.kind c.part fun c => m.vars.foldl (fun c (i, v) => c.setVal i v) c).storeVars true
    | none => s
  let s := match m.header with
    | some (q, run) => s.mirrorHeader q run
    | none => s
  let s := m.commits.foldl (fun s c => s.modEntry c.handle fun e => { e with
    phase := if c.done then .doneWritten else .committed, status := c.status, result := padTo 48 c.result
    extended := c.extended }) s
  let s := m.stations.foldl (fun s (h, a, st, miss, f) =>
    s.modStation (hl2Net h) a fun x => { x with state := st, missed := miss, fails := f }) s
  s.modDpx fun d => { d with
    lastMirror := m.mseq, lastKib := m.kib, partnerRun := d.lastBeat.any (·.mode == 3) }
/-- CYCLE_MIRROR (R172, R305, R315): acknowledged once held completely; a partly received one is discarded. -/
def effCycleMirror (m : CycleMirror) (s : State) : State :=
  if s.domOn 5 && s.sys.mode == .follow && m.complete then
    let s := (s.applyMirror m).emit (.mirrorAck m.mseq)
    if s.dpx.swapBack then (s.setRole 2 2).modDpx fun d => { d with swapBack := false } else s
  else s
/-- CYCLE_MIRROR. -/
def execCycleMirror (m : CycleMirror) (s : State) : Res := .next (effCycleMirror m s)
/-- A task has its mirror acknowledged in time: while the standby catches up it is struck off once (R302, R318). -/
def State.caughtUp (s : State) (t : Nat) : State :=
  let s := s.modDpx fun d => { d with catchUp := d.catchUp.erase t }
  if s.dpx.swapBack then s.synced 3
  else if s.dpx.standby = 3 ∧ s.dpx.catchUp.isEmpty then s.synced 3 else s
/-- MIRROR_ACK (R302, R304). -/
def effMirrorAck (t : Fin 17) (mseq : Quad) (s : State) : State :=
  let k := s.task t
  if s.domOn 5 && k.unacked == some mseq && s.dpx.standby != 0 then
    let s := (s.modTask t fun k => { k with unacked := none }).caughtUp t
    if k.mirrorWait then s.latch t false else s
  else s
/-- MIRROR_ACK. -/
def execMirrorAck (t : Fin 17) (mseq : Quad) (s : State) : Res := .next (effMirrorAck t mseq s)
/-- The mirror stretch limit of a task in counts: a share of its period (item 0x0105). -/
def State.stretchLimit (s : State) (t : Nat) : Nat := s.periodUs t * countsUs * s.param 0x0105 0 / 100
/-- MIRROR_STRETCH_LIMIT (R304): the standby is LAGGING, the task latches at once. -/
def effMirrorStretchLimit (t : Fin 17) (s : State) : State :=
  if s.sys.mode == .run && (s.task t).mirrorWait && decide ((s.task t).heldAt + s.stretchLimit t ≤ s.now) then (s.mirrorMissed 1).latch t false else s
/-- MIRROR_STRETCH_LIMIT. -/
def execMirrorStretchLimit (t : Fin 17) (s : State) : Res := .next (effMirrorStretchLimit t s)

/-- MIRRORED_ITEM (R303): the standby applies it, and acknowledges an acceptance and a safety parameter set. -/
def effMirroredItem (it : MirrorItem) (s : State) : State :=
  if !s.domOn 5 || s.sys.mode != .follow then s
  else
    match it with
    | .acceptance r h tag op fl a n i =>
      let e : JEntry :=
        { handle := h, ring := r, tag := tag, opcode := op, flags := fl, args := a, accepted := n, index := i
          v1 := (s.ring r).cmdset == 1, phase := .accepted, status := 0, result := [], extended := false
          combined := ((cmdInfo op).map (·.cls == .q)).getD false, doneAt := 0, replay := false }
      let q := BitVec.ofNat 40 (h.toNat % 2 ^ 40)
      (((s.modJournal fun j => j ++ [e]).modRing r fun x => { x with seq := nextHandleSeq q }).modSys fun y =>
        { y with epoch := BitVec.ofNat 19 (h.toNat / 2 ^ 40 % 2 ^ 19) }).emit .itemAck
    | .forces l => s.modProg fun p => { p with forces := l.map fun (v, e, o, b) => ⟨v, e, o, b⟩ }
    | .container part b => s.stage (.container part b)
    | .config b => s.stage (.config b)
    | .safetySet l =>
      ((s.modSaf fun x => { x with items := l.foldl (fun t (i, v) => Tbl.set (fun _ => none) t i (some v)) [] }).applyChannels).emit .itemAck
    | .laneStates t p => s.modDpx fun d => { d with partnerLanes := t, partnerPair := p }
    | .roleEpoch e => s.modDpx fun d => { d with epoch := e }
    | .repairMinutes m => s.modDpx fun d => { d with partnerRepair := m }
    | .stile m => s.mirrorStile m
    | .staging o v => s.modMem fun m => { m with staging := m.staging.store o (le 2 v) }
/-- MIRRORED_ITEM. -/
def execMirroredItem (it : MirrorItem) (s : State) : Res := .next (effMirroredItem it s)

/-! ## Resynchronisation (R317, R318) -/

/-- RESYNC_PHASE_COMPLETE: a failed check of phase 1 ends it; after phase 4, with every task's mirror acknowledged,
IN_SYNC. -/
def effResyncPhaseComplete (failedCheck : BitVec 4) (s : State) : State :=
  if !s.pwr.on || s.dpx.phase == 0 then s
  else
    let standby := s.sys.mode == .follow
    match s.dpx.phase.toNat with
    | 1 =>
      if failedCheck ≠ 0 then
        let s := s.modDpx fun d => { d with incompat := failedCheck, phase := 0 }
        if standby then s.setRole 2 0 else s.standbyTo 0 0
      else s.modDpx fun d => { d with phase := 2, incompat := 0 }
    | 2 => s.modDpx fun d => { d with phase := 3, phaseAt := s.now }
    | 3 => s.modDpx fun d => { d with phase := 4, catchUp := if standby || s.sys.mode != .run then [] else s.present }
    | _ =>
      if !s.dpx.catchUp.isEmpty then s
      else if standby then ((s.setRole 2 2).modDpx fun d => { d with phase := 0 }).takeover else s.synced 3
/-- RESYNC_PHASE_COMPLETE. -/
def execResyncPhaseComplete (failedCheck : BitVec 4) (s : State) : Res := .next (effResyncPhaseComplete failedCheck s)
/-- CATCH_UP_TIMEOUT (R318): 30 s after phase 3 began. -/
def effCatchUpTimeout (passes : Byte) (residueKib : Word) (s : State) : State :=
  if s.pwr.on && s.dpx.phase == 3 && decide (s.dpx.phaseAt + 30000 * countsMs ≤ s.now) then
    (s.modDpx fun d => { d with phase := 2 }).raise srcSup 0x7004 3 ([passes, 0, 0, 0] ++ le 4 residueKib)
  else s
/-- CATCH_UP_TIMEOUT. -/
def execCatchUpTimeout (passes : Byte) (residueKib : Word) (s : State) : Res := .next (effCatchUpTimeout passes residueKib s)

/-! ## Exercise (R316) -/

/-- SYS_DPX_EXERCISE.HOURS: 0 while the module drives as active. -/
def State.exerciseHours (s : State) : Nat := if s.dpx.ownClaim then 0 else (s.opMs - s.dpx.droveAt) / msHour
/-- EXERCISE_DUE: at 720 h and every 24 h after, each milestone once. -/
def effExerciseDue (s : State) : State :=
  let h := s.exerciseHours
  let at_ := 720 + (h - 720) / 24 * 24
  if s.pwr.on && decide (720 ≤ h ∧ s.dpx.milestone < at_) then
    let first := !s.dpx.due
    let s := (s.modDpx fun d => { d with due := true, milestone := at_ }).raise srcSup 0x7003 3 (leBytes 4 (Nat.min 0xFFFF h))
    s.iff first (·.setEvent 4)
  else s
/-- EXERCISE_DUE. -/
def execExerciseDue (s : State) : Res := .next (effExerciseDue s)

/-! ## The swap boundary (R315) -/

/-- The active has drained and every cycle mirror is acknowledged. -/
def State.swapReady (s : State) : Bool :=
  s.inSync && (s.sys.mode != .run || s.stdPresent.all fun t => (s.task t).held && !(s.task t).running) &&
    s.present.all fun t => (s.task t).unacked.isNone
/-- The active's side: the DONE record is journalled, the claim released, FOLLOW entered; its outputs are its partner's. -/
def State.swapAway (s : State) (h : Option Quad) : State :=
  let s := match h with
    | some h => s.commitOnly h (leBytes 8 s.now ++ [s.dpx.epoch + 1])
    | none => s
  let s := s.releaseClaim.modDpx fun d => { d with
    swap := none, swapDrained := false, swaps := d.swaps + 1, epoch := d.epoch + 1, swapBack := true
    partnerRun := s.sys.mode == .run }
  let s := ((s.forceProgress fun _ => true).modAllTasks fun _ t => t.abandon).stopWork
  (s.setRole 2 0).setMode .follow 0 2
/-- SWAP_BOUNDARY: on the active once drained, on the standby it takes the role (R315, R166, R185). -/
def effSwapBoundary (s : State) : State :=
  if !s.pwr.on then s
  else if s.sys.mode = .follow then
    if s.dpx.standby = 2 then s.becomeActive true else s
  else
    match s.dpx.swap with
    | some h =>
      if (s.sys.mode = .run ∨ s.sys.mode = .stop) ∧ s.swapReady then s.swapAway h
      else s
    | none => s
/-- SWAP_BOUNDARY. -/
def execSwapBoundary (s : State) : Res := .next (effSwapBoundary s)

end Sys2Proof.Machine
end

