-- ==== Sys2Proof/Machine/Starts.lean ====
section
/-! DEFINITION. The start sequences of R42, the start limits, the failed-start window (02_modes_and_starts.md). -/

namespace Sys2Proof.Machine

/-- SYS_MODE.SUBSTATE shows the step in progress (R42). -/
def State.startStep (s : State) (k : BitVec 4) : State := s.modSys fun y => { y with substate := k }
/-- What stands between the steps of a start: it goes on, or it has ended, failed or in HALT. -/
inductive Going where
  | on (s : State)
  | ended (s : State)
  deriving DecidableEq, Repr
/-- The next step of a start that goes on. -/
def Going.step (g : Going) (k : BitVec 4) (f : State → Going) : Going :=
  match g with
  | .on s => f (s.startStep k)
  | .ended s => .ended s
/-- The state behind. -/
def Going.state : Going → State
  | .on s => s
  | .ended s => s

/-! ## Step 1: self-test (R54, R164, R184, R423) -/

/-- Excluded lanes whose BIST and self-test pass are back in the vote (R164). -/
def State.readmitTriad (s : State) (i : StartInputs) : State :=
  [0, 1, 2].foldl (fun s l =>
    if (s.tri.lane l).state = .excluded ∧ i.triadTest.getLsbD l ∧ !s.bst.failMask.getLsbD l then
      (s.laneState l .inVote).repairStop
    else s) s
/-- Excluded lanes of the pair whose BIST and self-test pass are readmitted (R184). -/
def State.readmitPair (s : State) (i : StartInputs) : State :=
  [0, 1].foldl (fun s l =>
    if s.cpr.excluded.getLsbD l ∧ !s.cpr.permanent.getLsbD l ∧ i.pairTest.getLsbD l ∧ !s.bst.failMask.getLsbD (4 + l) then
      let before := s.pairCode
      let s := s.modCpr fun p => { p with excluded := p.excluded &&& ~~~ ((1 : BitVec 2) <<< l) }
      s.raisePairState before s.pairCode 0 0xFF 2
    else s) s
/-- Step 1 (R42). -/
def State.startStep1 (cold : Bool) (i : StartInputs) (s : State) : Going :=
  match s.startBist i.bist with
  | (t, true) => .ended (t.startFailed 2)
  | (t, false) => .on (if cold then (t.readmitTriad i).readmitPair i else t)

/-! ## Step 2: firmware (R404, R55) -/

/-- A window that the firewall can hold: 4 KiB to 1 GiB, its base aligned to its size (R397), onto nothing that R15 keeps
from the Service Processor. -/
def FwWindow.valid (w : FwWindow) : Bool :=
  decide (12 ≤ w.sizeLog2 ∧ w.sizeLog2 ≤ 30) && w.base.toNat % 2 ^ w.sizeLog2 == 0 &&
    !Config.reachesProtected w
/-- The trusted firmware grants the Service Processor its windows, at most 64 (R397, R398). -/
def State.grantWindows (s : State) : State :=
  s.modUpd fun u => { u with granted := true, firewall := (Config.firewallGrants.filter FwWindow.valid).take 64 }
/-- Step 2: the ACTIVE slot, else the other VALID one, boots; with neither the start has failed, and no other follows: HALT
with cause 0x02 (R45, R404). A slot that recovery made ACTIVE is for a cold start; a warm start before it boots the other
one (R55; log entry 73). A cold start takes PAIR_MODE (R186). -/
def State.startStep2 (cold : Bool) (r : StartReq) (i : StartInputs) (s : State) : Going :=
  let b := s.upd.activeB
  let good (x : Bool) : Bool := (s.upd.slot x).bootable s.mfg (if x then i.slotBGood else i.slotAGood)
  let s' := if cold then
      (s.modCpr fun p => { p with split := s.param 0x0103 0 == 1 }).modUpd fun u => { u with recovered := false } else s
  let first := if s.upd.recovered && !cold then !b else b
  if good first then .on s'.grantWindows
  else if !(s.upd.recovered && !cold) ∧ (s.upd.slot (!b)).state = .valid ∧ good (!b) then
    .on ((s'.swapSlots false).raise srcBoot 0x7021 4 [if b then 0 else 1, 1]).grantWindows
  else
    let s := s.countFailure r 3
    .ended (s.haltNow 2 (s.latches r))

/-! ## Step 3: configuration and containers (R46, R115, R143, R401) -/

/-- The check that a stored container fails, as byte 2 of 0x3001, or the container as it is loaded. -/
def State.startCheck (s : State) (kind part : Byte) (b : Bytes) : Container ⊕ (Byte × Word × Word) :=
  let len := leAt b 60 4
  match parseContainer b with
  | none => .inr (4, BitVec.ofNat 32 (leAt b 8 4), BitVec.ofNat 32 (leAt b 12 4))
  | some c0 =>
    let toolchain : Bool := match sigBlock b len with
      | some g => g.kind == 0 && Config.slhVerify 0 (le 8 g.key) c0.digest g.sig
      | none => false
    let c : Container := { c0.rebase part.toNat with part := if c0.kind = 1 then 0 else part, fresh := false }
    if !toolchain then .inr (1, c.id, c.build)
    else if !signaturesOk s.saf.items b c0 then .inr (3, c.id, c.build)
    else match s.loadRefusal { c with part := c0.part } kind part s.prog.loaded with
      | none => .inl c
      | some d => .inr (if d = 0x1A then 2 else 5, c.id, c.build)
/-- One container of the flash: loaded, or recorded and remembered (R46). `trusted` when a warm start need not verify it. -/
def State.startLoad (s : State) (kind part : Byte) (b : Bytes) (trusted : Bool) : State :=
  match trusted, parseContainer b with
  | true, some c0 =>
    let c : Container := { c0.rebase part.toNat with part := if c0.kind = 1 then 0 else part, fresh := false }
    s.modProg fun p => p.putSlot c
  | _, _ =>
    match s.startCheck kind part b with
    | .inl c => s.modProg fun p => p.putSlot c
    | .inr (k, ident, build) =>
      (s.raise srcSup 0x3001 4 ([kind, part, k, 0] ++ le 4 ident ++ le 4 build)).modSys fun y => { y with
        verifyFailed := y.verifyFailed ++ [(kind, part)] }
/-- A warm start does not verify a container whose digest the last commit records. -/
def State.digestKnown (s : State) (b : Bytes) : Bool :=
  match parseContainer b, s.prog.lastCommit with
  | some c, some k => k.digests.contains c.digest
  | _, _ => false
/-- Step 3: the stored set's CRC, then the containers, the safety container first; partition 1 in split mode only. -/
def State.startStep3 (cold : Bool) (i : StartInputs) (s : State) : Going :=
  match s.storedConfig with
  | none => .ended (s.startFailed 1)
  | some _ =>
    let s := s.modProg fun p => { p with safety := none, std0 := none, std1 := none }
    let order := (s.prog.flash.filter (·.1 == 1)) ++ (s.prog.flash.filter fun x => x.1 == 0 && x.2.1 == 0)
      ++ (if s.cpr.split then s.prog.flash.filter fun x => x.1 == 0 && x.2.1 != 0 else [])
    let s := order.foldl (fun s (k, p, b) => s.startLoad k p b (!cold && s.digestKnown b)) s
    let s := s.loadLanes
    if s.prog.safety.isSome ∧ !i.lanesAgree then .ended (s.startFailed 1) else .on s

/-! ## Step 4 and the choice of R299 -/

/-- Step 4: a cold start zeroes the DRAM, the staging area with it (R443). -/
def State.startStep4 (cold : Bool) (s : State) : Going :=
  .on (if cold then s.modMem fun m => { m with staging := [] } else s)
/-- Step 9 on the networks (R42, R279): each configured network listens, then joins or cold-starts. -/
def State.startNets (s : State) : State :=
  let go (now : Nat) (d : Dpx) (x : HlNet) : HlNet :=
    if x.configured then { x with up := true, state := .listen, since := now, hub := d.ownClaim, epoch := d.epoch } else x
  (s.modHl1 (go s.now s.dpx)).modHl2 (go s.now s.dpx)
/-- The entry of a completed start (code 0x1003). -/
def State.startDone (s : State) (kind : Nat) (m : Mode) (ms : Nat) : State :=
  s.raise srcSup 0x1003 2 ([BitVec.ofNat 8 kind, (modeCode m).setWidth 8, 0, 0] ++ leBytes 4 ms
    ++ leBytes 4 s.sys.epoch.toNat)
/-- The partner is active: FOLLOW, resynchronisation begins (R42, R299, R303). -/
def State.enterFollow (s : State) (r : StartReq) : State :=
  let ms := (s.now - r.entered) / countsMs
  let s := (s.setRole 2 1).modDpx fun d => { d with phase := 1, mirrored := [], staged := [] }
  let s := s.startNets.modSys fun y => { y with start := none, startKind := 3 }
  (s.setMode .follow 0 1).startDone 3 .follow ms

/-! ## Steps 5 to 8 -/

/-- What the last commit says of a variable (R101, R102). -/
def Commit.val (k : Commit) (c : Container) (v : VarDecl) : Option Bytes :=
  ((k.vals.find? fun x => x.1 == c.id && x.2.1 == v.id).map (·.2.2)).bind fun b =>
    if b.length = (v.initial c.constData).length then some b else none
/-- PER_LAYOUT that the commit records for a container. -/
def Commit.perOf (k : Commit) (c : Container) : Option Word := (k.layouts.find? fun x => x.1 == c.id).map (·.2.2)
/-- The value a variable begins with (R101): retentive ones come back at a warm start, persistent ones where the layout is
as committed, every other one is initial. -/
def startValue (cold : Bool) (k : Option Commit) (c : Container) (v : VarDecl) : Bytes :=
  let ini := v.initial c.constData
  match k with
  | none => ini
  | some k =>
    if v.cls = 1 ∧ !cold then (k.val c v).getD ini
    else if v.cls = 2 ∧ k.perOf c = some c.perLayout then (k.val c v).getD ini
    else ini
/-- The bank without its retentive data and forces: what a cold start leaves (R42 step 5). -/
def Commit.clearRetentive (k : Commit) (cs : List Container) : Commit :=
  let persists (x : Word × Word × Bytes) : Bool := cs.any fun c => c.id == x.1 && (c.var x.2.1).any fun v => v.cls == 2
  { k with forces := [], vals := k.vals.filter persists }
/-- Step 5 (R42, R101, R105). -/
def State.startStep5 (cold : Bool) (s : State) : Going :=
  let k := s.prog.lastCommit
  let fill (c : Container) : Container := { c with vals := c.vars.map fun v => (v.id, startValue cold k c v) }
  let s := s.prog.loaded.foldl (fun s c =>
    match k.bind fun k => k.perOf c with
    | some p => if p = c.perLayout then s else s.raise srcSup 0x3006 3 (le 4 c.id ++ le 4 p ++ le 4 c.perLayout)
    | none => s) s
  .on ((s.modProg fun p =>
    let cs := p.loaded
    { p with
      safety := p.safety.map fill, std0 := p.std0.map fill, std1 := p.std1.map fill
      forces := if cold then [] else (k.map (·.forces)).getD []
      bank0 := if cold then p.bank0.map fun k => k.clearRetentive cs else p.bank0
      bank1 := if cold then p.bank1.map fun k => k.clearRetentive cs else p.bank1 }).storeVars true)
/-- Step 6: the init tasks of the kind of start; one that does not end in 5 s makes the start fail (R91). -/
def State.startStep6 (cold : Bool) (i : StartInputs) (s : State) : Going :=
  let ty : Byte := if cold then 1 else 2
  let cs := s.prog.loaded.filter fun c => c.tasks.any (·.type == ty)
  let s := s.setTasks.publishStops
  if cs.isEmpty then .on s
  else if i.initDone then .on (s.runInits cs i.initBody)
  else .ended (s.startFailed 1)
/-- The epoch after `e` (R48). -/
def nextEpoch (e : BitVec 19) : BitVec 19 := if e.toNat = 524287 then 1 else e + 1
/-- Step 7: a cold start advances the epoch (R48); handles of the new one begin at sequence 1 (R61). -/
def State.startStep7 (cold : Bool) (s : State) : Going :=
  .on (if cold then
    (s.modSys fun y => { y with epoch := nextEpoch y.epoch }).modRings fun t =>
      Tbl.updAll Ring.reset (fun _ r => { r with seq := 1 }) (List.range 32) t
  else s)
/-- Step 8 (R32, R33). -/
def State.startStep8 (cold : Bool) (s : State) : Going := .on (if cold then s.replayCold else s.replayWarm)

/-! ## Leaving START (R44) -/

/-- The start ends in RUN (R44). -/
def State.autorun (s : State) (r : StartReq) (wasRun : Bool) : Bool :=
  !r.forced && s.sys.verifyFailed.isEmpty &&
  match s.param 0x0102 0 with
  | 1 => r.performed != .cold && wasRun
  | 2 => true
  | _ => false
/-- Step 10 (R42, R44): a cold start clears LOCKSTEP_BROKEN (R37). -/
def State.leaveStart (cold wasRun : Bool) (r : StartReq) (s : State) : State :=
  let ms := (s.now - r.entered) / countsMs
  let run := s.autorun r wasRun
  let s := s.modSys fun y => { y with start := none, lockstepBroken := y.lockstepBroken && !cold }
  let s := if run then s.enterRun 1 else s.setMode .stop 0 1
  s.startDone r.performed.code (if run then .run else .stop) ms

/-! ## The sequences -/

/-- Every configured network has integrated (R42, R46). -/
def State.netsJoined (s : State) : Bool :=
  (!s.hl1.configured || s.hl1.isIntegrated) && (!s.hl2.configured || s.hl2.isIntegrated)
/-- The end of step 9, and step 10. -/
def State.endNine (s : State) (r : StartReq) : State := (s.startStep 10).leaveStart (r.performed == .cold) r.wasRun r
/-- Step 9: the networks start; it ends at once when none is still to be joined. -/
def State.startStep9 (s : State) (r : StartReq) : State :=
  let s := ((s.startStep 9).modSys fun y => { y with start := some r }).startNets
  if s.netsJoined then s.endNine r else s
/-- A start in step 9 whose networks have all integrated leaves START. -/
def State.joined (s : State) : State :=
  match s.sys.start with
  | some r => if s.sys.mode = .start ∧ s.sys.substate = 9 ∧ s.netsJoined then s.endNine r else s
  | none => s

/-- Steps 1 to 4, common to every start. -/
def State.startFirst (s : State) (r : StartReq) (i : StartInputs) : Going :=
  let cold := r.performed == .cold
  ((((Going.on s).step 1 fun s => s.startStep1 cold i).step 2 fun s => s.startStep2 cold r i).step 3 fun s =>
    s.startStep3 cold i).step 4 fun s => s.startStep4 cold
/-- Steps 5 to 8 of a module that drives: its claim is asserted first (R299). -/
def State.startSecond (s : State) (cold : Bool) (i : StartInputs) : Going :=
  let s := s.assertClaim.setRole (if s.dpx.partnerSeen then 1 else 0) 0
  (((((Going.on s).step 5 fun s => s.startStep5 cold).step 6 fun s => s.startStep6 cold i).step 7 fun s =>
    s.startStep7 cold).step 8 fun s => s.startStep8 cold)
/-- A whole start of the kind performed (R42). -/
def State.runStart (s : State) (r : StartReq) (i : StartInputs) : State :=
  let cold := r.performed == .cold
  let wasRun := (s.prog.lastCommit.map (·.inRun)).getD false
  match s.startFirst r i with
  | .ended t => t
  | .on t =>
    if t.dpx.partnerClaim then t.enterFollow r
    else match t.startSecond cold i with
      | .ended u => u
      | .on u => u.startStep9 { r with wasRun := wasRun }
/-- What fails its check is not there for this start (R43, R102): a commit bank, the acceptance journal; the epoch record
then holds a free value. -/
def State.checkMram (s : State) (i : StartInputs) : State :=
  let s := s.modProg fun p => { p with
    bank0 := if i.bank0Good then p.bank0 else none, bank1 := if i.bank1Good then p.bank1 else none }
  let s := if i.journalGood then s else s.modJournal fun _ => []
  if i.epochGood then s else (s.modSys fun y => { y with epoch := Config.freeBits s.free 19 }).bump
/-- The cause for which a warm start can only be performed as a cold one, with the containers as step 3 would load them. -/
def State.startCause (s : State) (i : StartInputs) : Byte :=
  s.coldCause (i.journalGood && i.epochGood) (s.startStep3 false i).state.prog.loaded
/-- A warm start that can only be performed as a cold one (R43): substituted and recorded. -/
def State.substituteCold (s : State) (r : StartReq) (cause : Byte) : State × StartReq :=
  let r : StartReq := { r with performed := .cold, cause := cause, forced := s.forcesCold cause }
  let s := s.modTri fun t => { t with mismatches := 0 }
  let s := s.modCpr fun p => { p with reexecs := 0, mismatches := 0 }
  let s := s.modSys fun y => { y with coldSubstituted := true, startKind := 1, start := some r }
  (s.raise srcSup 0x1002 2 [BitVec.ofNat 8 r.requested.code, 1, cause,
    BitVec.ofNat 8 (Nat.min 3 s.sys.warmFails.length), BitVec.ofNat 8 (Nat.min 3 s.sys.coldFails.length)], r)

/-- The start in progress, while the module has power and is in START. -/
def State.starting (s : State) : Option StartReq :=
  if s.pwr.on ∧ s.sys.mode = .start then s.sys.start else none
/-- Step 9 of the start is in progress. -/
def State.inNine (s : State) : Bool := s.sys.substate == 9
/-- COLD_START (R42): a start performed as cold; in step 9 the end of its time, which leaves START with the networks that
have not integrated (R46). -/
def effColdStart (i : StartInputs) (s : State) : State :=
  match s.starting with
  | some r => if r.performed ≠ .cold then s else if s.inNine then s.endNine r else (s.checkMram i).runStart r i
  | none => s
/-- COLD_START. -/
def execColdStart (i : StartInputs) (s : State) : Res := .next (effColdStart i s)
/-- WARM_START (R42): a start performed as warm; one that R43 forbids becomes cold. In step 9 as COLD_START. -/
def effWarmStart (i : StartInputs) (s : State) : State :=
  match s.starting with
  | some r =>
    if r.performed = .cold then s
    else if s.inNine then s.endNine r
    else
      let s := s.checkMram i
      let c := s.startCause i
      if r.requested = .warm ∧ c ≠ 0 ∧ !s.dpx.partnerClaim then
        let (s, r) := s.substituteCold r c
        s.runStart r i
      else s.runStart r i
  | none => s
/-- WARM_START. -/
def execWarmStart (i : StartInputs) (s : State) : Res := .next (effWarmStart i s)
/-- START_INTO_FOLLOW (R42, R299): the partner's claim is recognised; steps 1 to 4, then FOLLOW. -/
def effStartIntoFollow (i : StartInputs) (s : State) : State :=
  match s.starting with
  | some r =>
    if s.dpx.partnerClaim ∧ !s.inNine then
      match (s.checkMram i).startFirst r i with
      | .ended t => t
      | .on t => t.enterFollow r
    else s
  | none => s
/-- START_INTO_FOLLOW. -/
def execStartIntoFollow (i : StartInputs) (s : State) : Res := .next (effStartIntoFollow i s)

/-- The limit of a start in TBU counts (R45). -/
def StartReq.limit (r : StartReq) : Nat := (if r.performed = .cold then 60000 else 20000) * countsMs
/-- START_STEP_LIMIT (R45): 20 s or 60 s after entry into START, before the end of step 8. -/
def effStartStepLimit (s : State) : State :=
  match s.starting with
  | some r => if r.entered + r.limit ≤ s.now ∧ !s.inNine then s.startFailed 4 else s
  | none => s
/-- START_STEP_LIMIT. -/
def execStartStepLimit (s : State) : Res := .next (effStartStepLimit s)
/-- FAIL_COUNT_EXPIRY (R47): failures of 10 min of operating time ago no longer count. -/
def effFailCountExpiry (cold : Bool) (s : State) : State :=
  if !s.pwr.on then s
  else s.modSys fun y =>
    if cold then { y with coldFails := recent s.opMs y.coldFails } else { y with warmFails := recent s.opMs y.warmFails }
/-- FAIL_COUNT_EXPIRY. -/
def execFailCountExpiry (cold : Bool) (s : State) : Res := .next (effFailCountExpiry cold s)

end Sys2Proof.Machine
end

