-- ==== Sys2Proof/Machine/Bist.lean ====
section
/-! DEFINITION. The on-demand run of the built-in self-test (R422 to R425). -/

namespace Sys2Proof.Machine

/-- Every station with an input segment counts as failed and not yet returned (R424 step 8, R133); no declaration. -/
def State.failStations (s : State) : State :=
  [Net.hl1, Net.hl2].foldl (fun s n => (s.stationsOf false n).foldl (fun s a =>
    (s.modStation n a fun x => { x with state := 2, good := 0 }).substituteStation n a) s) s
/-- Step 3 of R424: ring memory and Shared SRAM are copied. -/
def Mem.copy (m : Mem) : Mem := { m with saved := some (m.ring, m.sram) }
/-- Step 6 of R424: they take their contents of the copy; what was written meanwhile is lost. -/
def Mem.restore (m : Mem) : Mem :=
  match m.saved with
  | none => m
  | some (r, w) => { m with ring := r, sram := w, saved := none }
/-- Steps 6 to 9 of R424: the copies are restored, the lane TCMs reloaded, the Service Processor restarts, the networks
integrate anew. -/
def State.bistFinish (s : State) (h : Quad) : State :=
  let s := (((s.modMem Mem.restore).loadLanes.spRestart.modFld fun f => { f with silent := false }).failStations).startNets
  let r := s.bistResult
  { s.complete h stOk (r ++ [0, 0, 0, 0]) with free := s.free + 8 }
/-- The run has ended (R424 steps 4 to 9): its results are stored or, where a condition fails, discarded. -/
def State.bistEnded (s : State) : State :=
  match s.bst.job with
  | none => s
  | some (h, o) =>
    let scope := ((s.entry h).map fun e => byteAt e.args 0).getD 0
    ((s.bist 3 o (scope != 2) (scope != 1))).bistFinish h
/-- Steps 1 to 3 of R424: the networks stop, the cells hold, the Service Processor rests, memories are copied. -/
def State.bistBegin (s : State) (h : Quad) (o : BistOutcome) : State :=
  let s := (((s.executing h).modHl1 HlNet.silence).modHl2 HlNet.silence).modMem Mem.copy
  (s.modFld fun f => { f with silent := true }).modBst fun b => { b with running := 3, job := some (h, o) }
/-- BIST_RUN (R424): refused outside SERVICE with SUBSTATE 0x2, and while an active module has a standby. A condition of
R422 that fails at once skips the run. -/
def effBistRun (h : Quad) (o : BistOutcome) (s : State) : State :=
  s.begin h 0x2060 false fun _ =>
    if s.sys.substate ≠ 2 then s.fail h stWrongMode
    else if s.dpx.role = 1 ∧ s.dpx.standby ≠ 0 then s.refuse h 0xB1
    else if s.pwr.bistCause ≠ 0 then
      let s := s.bistSkip 3 s.pwr.bistCause
      { s.complete h stOk (s.bistResult ++ [0, 0, 0, 0]) with free := s.free + 8 }
    else s.bistBegin h o
/-- BIST_RUN. -/
def execBistRun (h : Quad) (o : BistOutcome) (s : State) : Res := .next (effBistRun h o s)
/-- BIST_CONDITION_CHECK (R422): every 1 ms of a run; a condition that fails aborts it. -/
def effBistConditionCheck (mv : BitVec 12) (pll : Bool) (temp : BitVec 16) (s : State) : State :=
  match s.bst.job with
  | none => s
  | some (h, _) =>
    if !s.pwr.on then s
    else
      let s := s.modPwr fun p => { p.measure temp with coreMv := mv, pllLocked := pll }
      if s.pwr.bistCause = 0 then s else (s.bistSkip 3 s.pwr.bistCause).bistFinish h
/-- BIST_CONDITION_CHECK. -/
def execBistConditionCheck (mv : BitVec 12) (pll : Bool) (temp : BitVec 16) (s : State) : Res :=
  .next (effBistConditionCheck mv pll temp s)

end Sys2Proof.Machine
end

