-- ==== Sys2Proof/Machine/FieldIn.lean ====
section
/-! DEFINITION. Field inputs, the channel tick and the cells (08_field_inputs.md). -/

namespace Sys2Proof.Machine

/-- Field Link runs: PD7 is on and the logic side is not silent (R50). -/
def State.fieldUp (s : State) : Bool := s.domOn 7 && !s.fld.silent

/-! ## The tick -/

/-- A channel tick begins now (R197): 31,250 counts after the last one, or at the start of a base tick, no sooner than
50 µs and no later than 112.5 µs after it; the first tick of a start, and one after a boundary that passed without its
command, at any count (log entry 76). -/
def State.tickDue (s : State) : Bool :=
  let d := s.now - s.fld.lastTick
  decide (s.fld.ticks = 0 ∨ d = 31250 ∨ (s.now = s.sys.tickAt ∧ 50 * countsUs ≤ d) ∨ 31250 + 50 * countsUs ≤ d)
/-- CHANNEL_TICK (R197, R198). -/
def effChannelTick (s : State) : State := if s.fieldUp && s.tickDue then s.tick.changeDone else s
/-- CHANNEL_TICK. -/
def execChannelTick (s : State) : Res := .next (effChannelTick s)

/-- The free bit of index `k`. -/
def freeBit (k : Nat) : Bool := (Config.freeBits k 1).getLsbD 0

/-- What a sample does to the filter: the level after M + 1 equal samples (R205). -/
def Cell.filterStep (c : Cell) (raw : Bool) : Cell :=
  let run := if raw = c.raw then c.run + 1 else 1
  { c with raw := raw, run := run, filt := if filterTicks c.filter + 1 ≤ run then raw else c.filt }
/-- The inrush window has passed (R216). -/
def Cell.pastInrush (c : Cell) (now : Nat) : Bool := decide (c.onSince + 10 * countsMs ≤ now)
/-- Both switches open, the event latched in the cell (R232). -/
def Cell.trip (c : Cell) (ev : BitVec 3) : Cell :=
  { c with hi := false, lo := false, test := .idle, deferred := false, ownLatch := ev }
/-- Faults that samples show on a safety output (R232); `alone` is false where the partner may drive the terminals: a
duplex-wired output in FOLLOW has no expectation at P (R238). -/
def Cell.outputFaults (c : Cell) (x : Terminals) (p m alone : Bool) (now : Nat) : Cell :=
  let off := !c.hi && !c.lo && alone
  let on := c.hi && c.lo && c.test == .idle
  let c := { c with
    stuckRun := if off && p then c.stuckRun + 1 else 0
    openRun := if on && !p && !x.someCurrent then c.openRun + 1 else 0
    limitRun := if x.atLimit && c.pastInrush now then c.limitRun + 1 else 0
    atLimit := x.atLimit }
  if !isSafetyOut c.mode.toNat || c.ownLatch != 0 then c
  else if 2 ≤ c.stuckRun then c.trip 2
  else if 4 ≤ c.openRun then c.trip 4
  else if on && m then c.trip 4
  else c
/-- The uplink frame of a cell (R199, R224). -/
def Cell.frame (c : Cell) (ch : Nat) : Bytes :=
  let out := isOutputMode c.mode.toNat
  let ev := if c.ownLatch ≠ 0 then c.ownLatch.toNat else if c.reclose.isSome then 3 else c.phaseEvent.toNat
  uplinkOf ch (c.seq.toNat * 16 + maskOf [c.restarted, out && c.readback, c.filt, c.raw])
    (if c.mode = 5 then c.count.toNat else 0)
    (BitVec.ofNat 8 (maskOf [c.testFail, c.rate != 0, c.overTemp, out && c.test != .idle, out && c.atLimit]
      + ev * 32)) c.supply
/-- What a sample shows of the switches (R220, R224). -/
def Cell.look (c : Cell) (p m : Bool) : Cell :=
  { c with
    readback := p == expectP c.hi c.lo && m == expectM c.hi c.lo, mLevel := m
    shot := BitVec.ofNat 4 (maskOf [c.hi, c.lo, m, c.deferred]) }
/-- The sample of a powered cell (R198, R203 to R205, R219, R224). -/
def Cell.sample (c : Cell) (x : Terminals) (alone : Bool) (now k : Nat) : Cell :=
  let low := x.supply.toNat < 128
  let out := isOutputMode c.mode.toNat
  let p := if low then freeBit k else level (c.type3 && !out) x.lowCurrent x.p (freeBit k)
  let m := if low then freeBit (k + 1) else level false x.lowCurrentM x.m (freeBit (k + 1))
  let c := { c with
    stageTicks := if c.configured then c.stageTicks + 1 else 0
    seq := if c.gotCmd then c.seq else c.seq + 1, gotCmd := false, supply := x.supply, overTemp := x.overTemp
    uvRun := if low then c.uvRun + 1 else 0 }
  let c := { c with phaseEvent := if c.seq = 0 then 0 else c.phaseEvent }
  let c := c.filterStep p
  if out then (c.look p m).outputFaults x p m alone now else c

/-- The cell stops: its switches open without drive (R235); it sends nothing until it restarts (R204). -/
def Cell.stop (c : Cell) (seen : Option Byte) : Cell :=
  { c with powered := false, hi := false, lo := false, test := .idle, deferred := false, seenSupply := seen }
/-- SAMPLE_INSTANT (R198): the cell samples and sends its uplink frame; below 12.0 V it stops (R204). -/
def effSampleInstant (ch : Fin 96) (x : Terminals) (s : State) : State :=
  let c := s.cell ch
  if !c.powered then s.modCell ch fun c => { c with seenSupply := some x.supply }
  else if x.supply.toNat < 96 then s.modCell ch fun c => c.stop (some x.supply)
  else
    let c := c.sample x (c.mode != 8 || s.sys.mode != .follow) s.now s.free
    let s := (s.modCell ch fun _ => { c with rate := c.rate - 1 }).emit (.uplink ch (c.frame ch))
    { s with free := s.free + 2 }
/-- SAMPLE_INSTANT. -/
def execSampleInstant (ch : Fin 96) (x : Terminals) (s : State) : Res := .next (effSampleInstant ch x s)

/-! ## Command frames at the cell (R221, R222, R228, R229) -/

/-- A command frame is valid at the cell of a channel (R221). -/
def cmdValid (ch : Nat) (f : Bytes) : Bool :=
  crcEnd f 8 && byteAt f 0 == 0x5A && (byteAt f 1).toNat == ch
/-- A configuration block takes force (R222). -/
def Cell.applyBlock (c : Cell) (b : Bytes) : Cell :=
  let m : BitVec 4 := (byteAt b 0).setWidth 4
  let c := { c with
    mode := m, type3 := bitAt b 0 4, edge := BitVec.ofNat 2 ((byteAt b 0).toNat / 32)
    filter := (byteAt b 1).setWidth 4, pulse := byteAt b 2, keepOff := bitAt b 3 0
    holdMs := BitVec.ofNat 16 (beAt b 4 2), configured := true, inForce := b
    stageTicks := if c.configured then c.stageTicks else 0 }
  if isInputMode m.toNat then { c with hi := false, lo := true }
  else if m = 0 then { c with hi := false, lo := false } else c
/-- The configuration byte of a frame: the block received in the 16 ticks before may apply at k mod 16 = 0 (R222). -/
def Cell.cfgByte (c : Cell) (seq : Nat) (b : Byte) : Cell :=
  if seq = 0 then
    let got := c.rxBlock
    let ok := crcEnd got 16 && (got == c.inForce || got == c.prevBlock)
    let c := { c with prevBlock := if got.length = 16 then got else [], rxBlock := [b] }
    if ok && (got != c.inForce || !c.configured) then c.applyBlock got else c
  else if c.rxBlock.length = seq then { c with rxBlock := c.rxBlock ++ [b] } else { c with rxBlock := [] }
/-- The switches of a phase (R220), for the pulse width that the cell holds when it begins (R226, R247). -/
def Cell.phase (c : Cell) (t : TestPhase) (now : Nat) : Cell :=
  let c := { c with test := t, testAt := now, testUnits := c.pulse.toNat }
  match t with
  | .idle => c
  | .offH => { c with hi := true, lo := false }
  | .offL => { c with hi := false, lo := true }
  | .darkH => { c with hi := false, lo := true }
  | .darkL => { c with hi := true, lo := false }
/-- The phase is one of an off-test; of a dark test. -/
def TestPhase.isOff : TestPhase → Bool
  | .offH => true
  | .offL => true
  | _ => false
def TestPhase.isDark : TestPhase → Bool
  | .darkH => true
  | .darkL => true
  | _ => false
/-- OUT and TEST at a safety output (R215, R228, R229). -/
def Cell.driveSafety (c : Cell) (out : Bool) (t : TestPhase) (now : Nat) : Cell :=
  let rise := out && !(c.hi && c.lo)
  let c := { c with out := out }
  if c.ownLatch ≠ 0 then { c with hi := false, lo := false, test := .idle, deferred := false }
  else if c.test.isOff then { c with deferred := out }
  else if c.test.isDark then (if out then c else { c with hi := false, lo := false, test := .idle })
  else if t = .idle then { c with hi := out, lo := out, onSince := if rise then now else c.onSince }
  else { c.phase t now with deferred := out && t.isOff }
/-- OUT and LOW_OPEN at a standard output (R215, R232, R235). -/
def Cell.driveStandard (c : Cell) (out lowOpen : Bool) (now : Nat) : Cell :=
  let hi := out && c.ownLatch == 0 && c.reclose.isNone
  { c with
    out := out, lowOpen := lowOpen, lo := !lowOpen && c.ownLatch == 0, hi := hi
    onSince := if hi && !c.hi then now else c.onSince }
/-- A valid command frame at a cell. -/
def Cell.command (c : Cell) (f : Bytes) (now : Nat) : Cell :=
  let cmd := (byteAt f 2).toNat
  let c := { c with seq := BitVec.ofNat 4 (cmd / 16), gotCmd := true, lastValid := now }
  let c := c.cfgByte (cmd / 16) (byteAt f 4)
  let c := if bitAt f 3 0 then
      { c with ownLatch := 0, stuckRun := 0, openRun := 0, limitRun := 0
               lo := c.lo || (c.configured && isInputMode c.mode.toNat) }
    else c
  let m := c.mode.toNat
  if !c.configured then c
  else if isSafetyOut m then c.driveSafety (bitAt f 2 3) (testOf (cmd % 8)) now
  else if m = 6 then c.driveStandard (bitAt f 2 3) (bitAt f 3 1) now
  else c

/-- COMMAND_FRAME (R221): an invalid frame leaves the cell as it was. -/
def effCommandFrame (ch : Fin 96) (f : Bytes) (s : State) : State :=
  if (s.cell ch).powered && cmdValid ch f then s.modCell ch fun c => c.command f s.now else s
/-- COMMAND_FRAME. -/
def execCommandFrame (ch : Fin 96) (f : Bytes) (s : State) : Res := .next (effCommandFrame ch f s)

/-! ## Uplink frames at Field Link (R200, R201, R212, R224, R230) -/

/-- An uplink frame is valid for the tick (R200). -/
def State.uplinkValid (s : State) (ch : Nat) (f : Bytes) : Bool :=
  crcEnd f 10 && byteAt f 0 == 0xA6 && (byteAt f 1).toNat == 128 + ch &&
  (byteAt f 2).toNat / 16 == s.fld.ticks.toNat % 16 && !s.fld.deadline && decide (s.now ≤ s.fld.lastTick + 40 * countsUs)
/-- A frame of the tick is invalid: values held, counted (R200, R201). -/
def Channel.bad (x : Channel) : Channel :=
  { x with judged := true, validNow := false, invalid := satInc x.invalid, badRun := x.badRun + 1, goodRun := 0
           slotOk := false, failTicks := if x.failTicks = 0 then 0 else x.failTicks + 1
           passTicks := if x.passTicks = 0 then 0 else x.passTicks + 1 }
/-- The fields of a valid frame (R199, R212, R231), with the switch state at its sample (R224); a switch that changed takes
the channel out of the watch of R231. -/
def Channel.good (x : Channel) (f : Bytes) (shot : BitVec 4) : Channel :=
  let raw := bitAt f 2 3
  let fail := bitAt f 5 0
  { x with judged := true, validNow := true, badRun := 0, goodRun := x.goodRun + 1, raw := raw, filt := bitAt f 2 2
           readback := bitAt f 2 1, restarted := bitAt f 2 0, count := BitVec.ofNat 16 (beAt f 3 2), diag := byteAt f 5
           supply := byteAt f 6, failTicks := if fail then x.failTicks + 1 else 0
           passTicks := if fail then 0 else x.passTicks + 1, slotMoved := x.slotMoved || raw != x.slotRaw, outStat := shot
           slotOk := x.slotOk && shot &&& 3 == x.outStat &&& 3 }
/-- EVENT of DIAG (R224). -/
def eventOf (f : Bytes) : Nat := (byteAt f 5).toNat / 32
/-- A safety output's events: latches, and the result of the running phase (R224, R230, R232, R236); a fault ends a test
that waits for its second phase as well. -/
def Channel.event (x : Channel) (ev now : Nat) : Channel :=
  let x := if ev = 2 then x.latch latShort else if ev = 3 then x.latch latOverload else if ev = 4 then x.latch latSwitch
    else if ev = 7 then (x.cutShort now).latch latHold else x
  if x.test = .idle then x
  else if 2 ≤ ev ∧ ev ≤ 4 then x.endTest false false
  else if x.second then x
  else if ev = 1 ∨ ev = 5 then
    match x.test with
    | .offH => if x.demand then { x.endTest true false with openLoad := ev == 5 }
        else { x with test := .offL, second := true, openLoad := ev == 5 }
    | .offL => x.endTest false true
    | .darkH => { x with test := .darkL, second := true }
    | .darkL => x.endTest false true
    | .idle => x
  else x

/-- UPLINK_FRAME (R200): each cell's one frame of the tick is judged. The first valid one since the cell's start carried
CELL_RESTARTED (R204); event 6 counts when a cell begins to report it (R235). -/
def effUplinkFrame (ch : Fin 96) (f : Bytes) (s : State) : State :=
  if !s.domOn 7 || (s.chan ch).judged then s
  else if s.uplinkValid ch f then
    let was := (s.chan ch).diag.toNat / 32
    let s := (s.modChan ch fun x => x.good f (s.cell ch).shot).modCell ch fun c => { c with restarted := false }
    let s := if isSafetyOut (s.chan ch).m then s.modChan ch fun x => x.event (eventOf f) s.now else s
    if eventOf f = 6 ∧ was ≠ 6 then s.modGroup (groupOf ch) fun g => { g with event6 := true } else s
  else s.modChan ch Channel.bad
/-- UPLINK_FRAME. -/
def execUplinkFrame (ch : Fin 96) (f : Bytes) (s : State) : Res := .next (effUplinkFrame ch f s)

/-- The group's values of the tick: lowest supply, open without a valid frame (log entry 39), valid cells, the runs of
R235. -/
def State.groupTick (s : State) (g : Nat) : State :=
  let ok := (groupChans g).filter fun c => (s.chan c).validNow
  let v := (ok.map fun c => (s.chan c).supply.toNat).foldl Nat.min 256
  State.bump <| s.modGroup g fun x => { x with
    supply := if ok.isEmpty then Config.freeBits s.free 8 else BitVec.ofNat 8 v
    cellsValid := BitVec.ofNat 16 (maskOf ((groupChans g).map fun c => (s.chan c).validNow))
    lowTicks := if ok.isEmpty ∨ v < 154 then x.lowTicks + 1 else 0
    tripTicks := if ok.isEmpty ∨ v < 128 then x.tripTicks + 1 else 0
    okTicks := if ok.length = 16 ∧ 164 ≤ v then x.okTicks + 1 else 0 }
/-- UPLINK_DEADLINE (R198), 40 µs after the tick began: frames not complete are invalid; groups and pairs take the tick. -/
def effUplinkDeadline (s : State) : State :=
  if !s.domOn 7 || s.fld.deadline || decide (s.now < s.fld.lastTick + 40 * countsUs) then s else
  let s := s.modChans fun _ x => if x.judged then x else x.bad
  let s := s.modFld fun f => { f with deadline := true }
  (List.range 48).foldl State.pairTick ((List.range 6).foldl State.groupTick s)
/-- UPLINK_DEADLINE. -/
def execUplinkDeadline (s : State) : Res := .next (effUplinkDeadline s)

/-- COUPLER_LOST (R201): 8 consecutive invalid frames latch it; outputs latch class COUPLER (R232). -/
def effCouplerLost (ch : Fin 96) (s : State) : State :=
  let x := s.chan ch
  if s.domOn 7 && decide (8 ≤ x.badRun) then
    s.modChan ch fun x =>
      let x := { x with couplerLost := true }
      if isOutputMode x.m then (x.cutShort s.now).latch latCoupler else x
  else s
/-- COUPLER_LOST. -/
def execCouplerLost (ch : Fin 96) (s : State) : Res := .next (effCouplerLost ch s)

/-- COUPLER_RECOVERED (R201): after 16 valid frames the latch clears by itself in modes 0x0, 0x1, 0x5 and 0x6; in the
safety modes it waits for SAFETY_ACK. -/
def effCouplerRecovered (ch : Fin 96) (s : State) : State :=
  let x := s.chan ch
  if s.domOn 7 && decide (16 ≤ x.goodRun) && (x.m == 0 || x.m == 1 || x.m == 5 || x.m == 6) then
    s.modChan ch fun x => { x with couplerLost := false, latches := x.latches &&& 0xFE }
  else s
/-- COUPLER_RECOVERED. -/
def execCouplerRecovered (ch : Fin 96) (s : State) : Res := .next (effCouplerRecovered ch s)

/-- CELL_SUPPLY_LOSS (R204): the cell stops sending; its switches open without drive (R235). -/
def effCellSupplyLoss (ch : Fin 96) (s : State) : State :=
  s.modCell ch fun c => c.stop none
/-- CELL_SUPPLY_LOSS. -/
def execCellSupplyLoss (ch : Fin 96) (s : State) : Res := .next (effCellSupplyLoss ch s)

/-- CELL_RESTARTED (R204, R222): the supply is at 14.0 V or above again; filter and counter start afresh; both switches
open until a block applies. A supply measured lower since the stop keeps the cell silent. -/
def effCellRestarted (ch : Fin 96) (s : State) : State :=
  let c := s.cell ch
  if c.powered || (match c.seenSupply with | some v => decide (v.toNat < 112) | none => false) then s
  else s.modCell ch fun _ => { Cell.reset with powered := true, restarted := true, lastValid := s.now }
/-- CELL_RESTARTED. -/
def execCellRestarted (ch : Fin 96) (s : State) : Res := .next (effCellRestarted ch s)

/-- The edge is of the configured kind (R207): 0 rising, 1 falling, 2 both. -/
def edgeCounts (edge : BitVec 2) (rising : Bool) : Bool :=
  edge == 2 || (if rising then edge == 0 else edge == 1)
/-- COUNTER_EDGE (R207): counted; after a short time COUNT_RATE is set and counting is no longer guaranteed. -/
def effCounterEdge (ch : Fin 96) (rising short : Bool) (s : State) : State :=
  let c := s.cell ch
  if !c.powered || c.mode != 5 then s else
  let n : BitVec 16 := if edgeCounts c.edge rising then 1 else 0
  let n := if short && !freeBit s.free then 0 else n
  let s := s.modCell ch fun c => { c with count := c.count + n, rate := if short then 2 else c.rate }
  if short then s.bump else s
/-- COUNTER_EDGE. -/
def execCounterEdge (ch : Fin 96) (rising short : Bool) (s : State) : Res := .next (effCounterEdge ch rising short s)

/-- DISCREPANCY (R210): the timer has reached D + 1 in RISING or FALLING and the tick is evaluated. -/
def effDiscrepancy (p : Fin 48) (s : State) : State :=
  let x := s.dual p
  if s.domOn 7 && s.isPair p && s.pairEvaluated p && (x.state == .rising || x.state == .falling)
      && decide (x.d + 1 ≤ x.timer.toNat) then
    (s.modDual p fun y => { y with state := .fault, discrepancy := true, safe := false, running := false, timer := 0 }
      ).raisePair p x.state .fault x.timer
  else s
/-- DISCREPANCY. -/
def execDiscrepancy (p : Fin 48) (s : State) : Res := .next (effDiscrepancy p s)

/-- INPUT_STAGE_TEST (R212): once every 256 ticks of the cell's own count, before the sample; INPUT_TEST_FAIL reports the
most recent test of a safety input. DESIGN CHOICE: the first one 256 ticks after the count began (log entry 77). -/
def effInputStageTest (ch : Fin 96) (passed : Bool) (s : State) : State :=
  let c := s.cell ch
  if c.powered && c.configured && decide (2 ≤ c.mode.toNat ∧ c.mode.toNat ≤ 4) && c.stageTicks != 0
      && c.stageTicks % 256 == 0 then
    s.modCell ch fun c => { c with testFail := !passed, stageTicks := 0 }
  else s
/-- INPUT_STAGE_TEST. -/
def execInputStageTest (ch : Fin 96) (passed : Bool) (s : State) : Res := .next (effInputStageTest ch passed s)

/-- CELL_FAULT (R212): INPUT_TEST_FAIL has stood at 1 over 257 consecutive ticks. -/
def effCellFault (ch : Fin 96) (s : State) : State :=
  let x := s.chan ch
  if s.domOn 7 && decide (2 ≤ x.m ∧ x.m ≤ 4) && decide (257 ≤ x.failTicks) then
    s.modChan ch fun x => { x with cellFault := true }
  else s
/-- CELL_FAULT. -/
def execCellFault (ch : Fin 96) (s : State) : Res := .next (effCellFault ch s)

end Sys2Proof.Machine
end

