-- ==== Sys2Proof/Machine/FieldOut.lean ====
section
/-! DEFINITION. Field outputs: tests, faults, group supply, silence, acknowledgement (09_field_outputs.md). -/

namespace Sys2Proof.Machine

/-- TEST_DUE (R226): a due test awaits the next slot of its channel's offset; none begins with a latch set or a group
trip latched, nor in FOLLOW (R238). -/
def effTestDue (ch : Fin 96) (s : State) : State :=
  let x := s.chan ch
  if s.fieldUp && isSafetyOut x.m && x.test == .idle && x.latches == 0 && !(s.group (groupOf ch)).uvLatch
      && !(x.m == 8 && s.sys.mode == .follow) && (match x.due with | some t => decide (t ≤ s.now) | none => false) then
    s.modChan ch fun x => { x with await := true }
  else s
/-- TEST_DUE. -/
def execTestDue (ch : Fin 96) (s : State) : Res := .next (effTestDue ch s)

/-- What the end of a phase shows: the event of DIAG (R220, R224, R232). -/
def phaseResult (t : TestPhase) (p m : Bool) (x : Terminals) : BitVec 3 :=
  match t with
  | .idle => 0
  | .offH =>
    if !p then (if x.atLimit then 3 else 4)
    else if !m then (if x.over20mA then 4 else 5)
    else 1
  | .offL => if p then 2 else if m then 4 else 1
  | .darkH => if p then 2 else if m then 4 else 1
  | .darkL => if !p then (if x.atLimit then 3 else 4) else if !m then 4 else 1
/-- The phase or pulse of a cell ends (R226, R229): a fault trips it, otherwise the switches take the commanded state. -/
def Cell.endPhase (c : Cell) (x : Terminals) (now k : Nat) : Cell :=
  let p := level false x.lowCurrent x.p (freeBit k)
  let m := level false x.lowCurrentM x.m (freeBit (k + 1))
  let ev := phaseResult c.test p m x
  if 2 ≤ ev.toNat ∧ ev.toNat ≤ 4 then c.trip ev
  else
    let on := c.out
    { c with test := .idle, deferred := false, phaseEvent := ev, hi := on, lo := on
             onSince := if on && c.test.isOff then now else c.onSince }
/-- TEST_PHASE_END (R226): the configured pulse width after the phase began. -/
def effTestPhaseEnd (ch : Fin 96) (x : Terminals) (s : State) : State :=
  let c := s.cell ch
  if c.powered && c.test != .idle && decide (c.testAt + c.testUnits * 25 * countsUs ≤ s.now) then
    let s := s.modCell ch fun c => c.endPhase x s.now s.free
    { s with free := s.free + 2 }
  else s
/-- TEST_PHASE_END. -/
def execTestPhaseEnd (ch : Fin 96) (x : Terminals) (s : State) : Res := .next (effTestPhaseEnd ch x s)

/-- The reaction to an overload (R232): both switches of a safety output, the high side of a standard one. -/
def Cell.overload (c : Cell) (now : Nat) : Cell :=
  if isSafetyOut c.mode.toNat then (if c.ownLatch = 0 then c.trip 3 else c)
  else if c.mode = 6 then { c with hi := false, reclose := some now } else c
/-- OVERLOAD (R217): the current stood at its limit on 4 consecutive samples outside the inrush window. -/
def effOverload (ch : Fin 96) (s : State) : State :=
  let c := s.cell ch
  if c.powered && decide (4 ≤ c.limitRun) then s.modCell ch fun c => { c.overload s.now with limitRun := 0 } else s
/-- OVERLOAD. -/
def execOverload (ch : Fin 96) (s : State) : Res := .next (effOverload ch s)
/-- THERMAL_LIMIT (R217): the switch opens at once. -/
def effThermalLimit (ch : Fin 96) (s : State) : State :=
  if (s.cell ch).powered then s.modCell ch fun c => c.overload s.now else s
/-- THERMAL_LIMIT. -/
def execThermalLimit (ch : Fin 96) (s : State) : Res := .next (effThermalLimit ch s)
/-- OVERLOAD_RECLOSE (R232): one second later the high side closes again while commanded on. -/
def effOverloadReclose (ch : Fin 96) (s : State) : State :=
  let c := s.cell ch
  match c.reclose with
  | none => s
  | some t =>
    if c.powered && c.mode == 6 && decide (t + 1000 * countsMs ≤ s.now) then
      s.modCell ch fun c =>
        let on := c.out && c.ownLatch == 0
        { c with reclose := none, hi := on, onSince := if on then s.now else c.onSince }
    else s
/-- OVERLOAD_RECLOSE. -/
def execOverloadReclose (ch : Fin 96) (s : State) : Res := .next (effOverloadReclose ch s)

/-- SUPPLY_LOW (R235). -/
def effSupplyLow (g : Fin 6) (s : State) : State :=
  if s.domOn 7 && decide (16 ≤ (s.group g).lowTicks) then s.modGroup g fun x => { x with supplyLow := true } else s
/-- SUPPLY_LOW. -/
def execSupplyLow (g : Fin 6) (s : State) : Res := .next (effSupplyLow g s)

/-- CELL_UNDERVOLTAGE_TRIP (R235): below 16.0 V on 8 samples, the cell opens both switches and reports event 6. -/
def effCellUndervoltageTrip (ch : Fin 96) (s : State) : State :=
  let c := s.cell ch
  if c.powered && decide (8 ≤ c.uvRun) then
    s.modCell ch fun c => c.trip 6
  else s
/-- CELL_UNDERVOLTAGE_TRIP. -/
def execCellUndervoltageTrip (ch : Fin 96) (s : State) : Res := .next (effCellUndervoltageTrip ch s)

/-- GROUP_UNDERVOLTAGE_TRIP (R235): UV_LATCH, and UNDERVOLTAGE on every output channel of the group. -/
def effGroupUndervoltageTrip (g : Fin 6) (s : State) : State :=
  let x := s.group g
  if s.domOn 7 && !x.uvLatch && (decide (8 ≤ x.tripTicks) || x.event6) then
    let s := s.modGroup g fun x => { x with uvLatch := true, uvTrips := satInc x.uvTrips, event6 := false, okTicks := 0 }
    (groupChans g).foldl (fun s c =>
      s.modChan c fun x => if isOutputMode x.m then (x.cutShort s.now).latch latUnder else x) s
  else s
/-- GROUP_UNDERVOLTAGE_TRIP. -/
def execGroupUndervoltageTrip (g : Fin 6) (s : State) : Res := .next (effGroupUndervoltageTrip g s)

/-- SUPPLY_RECOVERY (R235): SUPPLY_LOW and UV_LATCH clear; UNDERVOLTAGE of the standard outputs clears, with a wait for
command 0 unless the group has UV_RESTART; cells that are no safety outputs clear their own trip. -/
def effSupplyRecovery (g : Fin 6) (s : State) : State :=
  let x := s.group g
  if s.domOn 7 && decide (800 ≤ x.okTicks) && (x.supplyLow || x.uvLatch) then
    let wait := s.param 0x0110 g == 0
    let s := s.modGroup g fun x => { x with supplyLow := false, uvLatch := false, event6 := false }
    (groupChans g).foldl (fun s c =>
      s.modChan c fun x =>
        if x.m = 6 ∧ x.latches.getLsbD latUnder then
          { x with latches := x.latches &&& 0xBF, uvWait := wait, latchClr := true }
        else if isSafetyOut x.m then x else { x with latchClr := true }) s
  else s
/-- SUPPLY_RECOVERY. -/
def execSupplyRecovery (g : Fin 6) (s : State) : Res := .next (effSupplyRecovery g s)

/-- HOLD_TIME_EXPIRED (R236): the cell has been silent for its hold time. -/
def effHoldTimeExpired (ch : Fin 96) (s : State) : State :=
  let c := s.cell ch
  if c.powered && c.configured && decide (c.lastValid + c.holdMs.toNat * countsMs ≤ s.now) then
    s.modCell ch fun c =>
      if isSafetyOut c.mode.toNat then (if c.ownLatch = 0 then c.trip 7 else c)
      else if c.mode = 6 ∧ c.keepOff then { c with hi := false } else c
  else s
/-- HOLD_TIME_EXPIRED. -/
def execHoldTimeExpired (ch : Fin 96) (s : State) : Res := .next (effHoldTimeExpired ch s)

/-! ## Acknowledgement (R234) -/

/-- Channels in the scope of a SAFETY_ACK (R80): 0 channel, 1 group, 2 module; only safety channels have latches that it
clears (R201, R212, R233). -/
def State.ackScope (s : State) (scope ix : Nat) : List Nat :=
  (allChans.filter fun c => if scope = 0 then c == ix else if scope = 1 then groupOf c == ix else true).filter fun c =>
    isSafetyMode (s.chan c).m
/-- The latches of a channel that clear at once: those of the mask whose cause is gone (R234). -/
def State.ackNow (s : State) (m : Byte) (c : Nat) : State :=
  let x := s.chan c
  let coupler := m.getLsbD latCoupler && decide (16 ≤ x.goodRun)
  let input := m.getLsbD latInput && decide (4096 ≤ x.passTicks)
  let under := m.getLsbD latUnder && !(s.group (groupOf c)).uvLatch
  let hold := m.getLsbD latHold && s.fieldUp && s.fld.ticks != 0 && (s.cell c).powered
    && decide (s.fld.lastTick ≤ (s.cell c).lastValid)
  let clr : Byte := BitVec.ofNat 8 (maskOf [coupler, input, false, false, false, false, under, hold])
  s.modChan c fun x =>
    let x := if isSafetyOut x.m then { x.unlatch clr with latchClr := x.latchClr || (x.latches &&& clr &&& 0xC0 != 0) } else x
    { x with couplerLost := x.couplerLost && !coupler, cellFault := x.cellFault && !input }
/-- Request the off-test of a channel that has latches only a test clears (R234). -/
def State.ackTest (s : State) (h : Quad) (m : Byte) (c : Nat) : State :=
  let x := s.chan c
  if isSafetyOut x.m && (x.latches &&& m &&& testClasses) != 0 then
    s.modChan c fun x => { (x.cutShort s.now) with ackTest := some (h, m), testDone := none, await := true, latchClr := true }
  else s
/-- SAFETY_ACK (R234). -/
def effSafetyAck (h : Quad) (s : State) : State :=
  s.begin h 0x2031 false fun e =>
    let m := byteAt e.args 2
    let cs := s.ackScope (byteAt e.args 0).toNat (byteAt e.args 1).toNat
    let a := s.latchCount m cs
    let s := cs.foldl (fun s c => s.ackNow m c) (s.executing h)
    let n := a - s.latchCount m cs
    let s := cs.foldl (fun s c => s.ackTest h m c) s
    (s.modFld fun f => { f with ackJob := some (h, m, cs, n) }).ackDone
/-- SAFETY_ACK. -/
def execSafetyAck (h : Quad) (s : State) : Res := .next (effSafetyAck h s)

/-- An announced pulse at the standby (R238): the second of a test comes in the next test frame, 16 ms after the first; a
pulse not seen in two consecutive tests is due for a report. -/
def Channel.announced (x : Channel) (followed : Bool) (now : Nat) : Channel × Bool :=
  let second := x.annAt != 0 && !x.annSecond && decide (now < x.annAt + 24 * countsMs)
  let n := if followed then 0 else (if second then x.missSecond else x.missFirst) + 1
  (if second then { x with annAt := now, annSecond := true, missSecond := n }
    else { x with annAt := now, annSecond := false, missFirst := n }, decide (2 ≤ n))
/-- TEST_ANNOUNCEMENT (R238): the standby watches RAW of P. -/
def effTestAnnouncement (ch : Fin 96) (followed : Bool) (s : State) : State :=
  if s.domOn 7 && s.sys.mode == .follow && (s.chan ch).m == 8 then
    let (x, report) := (s.chan ch).announced followed s.now
    let s := s.modChan ch fun _ => x
    if report then s.emit (.dpxReport ch) else s
  else s
/-- TEST_ANNOUNCEMENT. -/
def execTestAnnouncement (ch : Fin 96) (followed : Bool) (s : State) : Res := .next (effTestAnnouncement ch followed s)

end Sys2Proof.Machine
end

