-- ==== Sys2Proof/Machine/RegMap.lean ====
section
/-! DEFINITION. What every register, window and location of BAR0 reads (20_register_map.md and the register sections of the
other chapters). -/

namespace Sys2Proof.Machine

/-- A register word from its fields: low bit, width, value. -/
def fields (l : List (Nat × Nat × Nat)) : Word := BitVec.ofNat 32 ((l.map fun (lo, w, v) => v % 2 ^ w * 2 ^ lo).sum)
/-- A flag as a number. -/
def flag (b : Bool) : Nat := if b then 1 else 0
/-- The word of a 64-bit quantity: low, or high. -/
def half (hi : Bool) (v : Nat) : Word := BitVec.ofNat 32 (if hi then v / 2 ^ 32 else v)
/-- Two's complement of a signed 64-bit quantity. -/
def wrap64 (v : Int) : Nat := (v % 2 ^ 64).toNat
/-- An offset in ns, saturating at ±(2³¹ − 1). -/
def ofsWord (v : Int) : Word := BitVec.ofInt 32 (max (-2147483647) (min 2147483647 v))

/-! ## SYS (R430, R37, 13_duplex_redundancy.md, 04_cyclic_execution.md) -/

/-- The ERR flag is set for a context of the legacy class (SYS_LIRQ.STILE). -/
def State.legacyErr (s : State) : Bool := (List.range 128).any fun x => (s.ctx x).owner == 2 && (s.ctx x).err
/-- SYS_LIRQ (R438): ring pairs 8 to 11, STILE, EVENT, the line, which an LBASE of 0xFF disables (R446). -/
def State.lirq (s : State) : Nat :=
  let m := maskOf [(s.ring 8).irqOn s.now, (s.ring 9).irqOn s.now, (s.ring 10).irqOn s.now, (s.ring 11).irqOn s.now,
    s.legacyErr, s.sys.eventsOn != 0]
  m + (if m = 0 ∨ s.mfg.lbase = 0xFF then 0 else 256)
/-- SYS_HOSTCFG. -/
def Sys.hostcfg (y : Sys) : Word := fields [(0, 1, flag y.progSem), (1, 1, flag y.progW1c), (2, 1, flag y.legacyWrite), (31, 1, flag y.lock)]
/-- The SYS block, offsets 0x00 to 0x4B. -/
def State.sysReg (s : State) (o : Nat) : Option Word :=
  match o with
  | 0x00 => some (fields [(0, 16, 0x7300), (16, 4, 2), (20, 4, s.mfg.variant.toNat)])
  | 0x04 => some (half false s.mfg.serial.toNat)
  | 0x08 => some (half true s.mfg.serial.toNat)
  | 0x0C => some (fields [(0, 2, 3), (8, 8, 1), (16, 2, 3)])
  | 0x10 => some s.hyk.powerCycles
  | 0x14 => some (s.sys.epoch.setWidth 32)
  | 0x18 => some (s.sys.event.setWidth 32)
  | 0x1C => some (s.sys.eventMask.setWidth 32)
  | 0x20 => some s.sys.hostcfg
  | 0x24 => some (s.sys.lpage.setWidth 32)
  | 0x28 => some (BitVec.ofNat 32 s.lirq)
  | 0x40 => some s.sys.modeWord
  | 0x44 => some 0
  | 0x48 => some (fields [(0, 3, (s.prog.olc.map (·.phase.toNat)).getD 0), (3, 1, flag s.prog.olcPart),
      (8, 8, s.prog.passes.toNat), (16, 16, s.prog.changes.toNat)])
  | _ => none
/-- SYS_DPX_*, offsets 0x80 to 0x94. -/
def State.dpxReg (s : State) (o : Nat) : Option Word :=
  let d := s.dpx
  match o with
  | 0x80 => some (fields [(0, 2, d.role.toNat), (2, 2, d.standby.toNat), (4, 3, d.phase.toNat), (7, 1, flag s.mfg.slotPos),
      (8, 8, d.epoch.toNat), (16, 1, flag d.ownClaim), (17, 1, flag d.partnerClaim), (18, 1, flag d.lane0),
      (19, 1, flag d.lane1), (20, 4, d.incompat.toNat)])
  | 0x84 => some (fields [(0, 16, d.lastKib.toNat), (16, 16, d.maxKib.toNat)])
  | 0x88 => some (fields [(0, 16, d.stretches.toNat), (16, 16, d.lags.toNat)])
  | 0x8C => some (fields [(0, 16, Nat.min 0xFFFF s.exerciseHours), (16, 1, flag d.due)])
  | 0x90 => some (fields [(0, 16, d.takeovers.toNat), (16, 16, d.swaps.toNat)])
  | 0x94 => some d.gapNs
  | _ => none
/-- SYS_TASKSTAT_n, SYS_TASKTIME_n, SYS_TASKMAX_n, by offset from 0x200. -/
def State.taskReg (s : State) (o : Nat) : Option Word :=
  let k := s.task (o / 16)
  if 17 ≤ o / 16 then none
  else match o % 16 with
    | 0 => some (fields [(0, 3, k.state.toNat), (3, 1, flag k.haltPolicy), (4, 4, k.priority.toNat), (8, 1, flag k.overrun),
        (9, 1, flag k.stretched), (16, 16, k.overruns.toNat)])
    | 4 => some k.lastNs
    | 8 => some k.maxNs
    | _ => none

/-! ## SWD, TRI, CPR -/

/-- SWD, by offset from 0x1000. -/
def State.swdReg (s : State) (o : Nat) : Option Word :=
  let w := s.swd
  match o with
  | 0x00 => some (fields [(0, 6, s.live), (8, 6, w.liveMax.toNat), (16, 6, w.buffers.toNat), (24, 1, flag w.refusedCfg)])
  | 0x04 => some w.version
  | 0x08 => some (fields [(0, 1, flag w.pin), (1, 1, flag w.pinned.isSome)])
  | 0x0C => some (w.pinned.getD 0)
  | 0x10 => some w.undo
  | _ => none
/-- SWD_STN_k_n, by offset from 0x2000. -/
def State.stnReg (s : State) (o : Nat) : Option Word :=
  let n := o % 0x400 / 4
  let x := s.station (if o < 0x400 then .hl1 else .hl2) n
  if 1 ≤ n ∧ n ≤ 250 then
    some (fields [(0, 2, x.state.toNat), (2, 4, x.missed.toNat), (8, 8, x.fails.toNat), (16, 16, x.undelivered.toNat)])
  else none
/-- VOTE_MODE of TRI_STATE. -/
def State.voteMode (s : State) : Nat :=
  if s.prog.safety.isNone then 0 else if s.tri.allIn then 1 else if s.tri.oneOutOfTwo then 3 else 2
/-- Lanes in a state of TRI_STATE; none while PD1 is off (R140). -/
def State.laneBits (s : State) (x : LaneState) : Nat := if s.domOn 1 then s.tri.mask x else 0
/-- TRI, by offset from 0x3000. -/
def State.triReg (s : State) (o : Nat) : Option Word :=
  let t := s.tri
  match o with
  | 0x00 => some (fields [(0, 2, s.voteMode), (4, 3, s.laneBits .inVote), (8, 3, s.laneBits .selfTest), (12, 3, s.laneBits .resync),
      (16, 3, t.mask .excluded), (20, 3, t.mask .permanent), (24, 1, flag t.voterFault), (25, 1, flag t.debug)])
  | 0x04 => some (fields [(0, 2, t.lastLane.toNat), (2, 4, t.lastKind.toNat), (8, 16, t.mismatches.toNat)])
  | 0x08 => some t.misTick
  | 0x1C => some (fields [(0, 16, s.repairRemain), (16, 1, flag t.repairEnd.isSome)])
  | 0x20 => some t.passes
  | _ =>
    if o = 0x10 ∨ o = 0x14 ∨ o = 0x18 then
      let x := t.lane ((o - 0x10) / 4)
      some (fields [(0, 8, x.corrected.toNat), (8, 2, countTwo x.transients), (10, 2, countTwo x.exclusions)])
    else none
/-- CPR, by offset from 0x3100. -/
def State.cprReg (s : State) (o : Nat) : Option Word :=
  let p := s.cpr
  match o with
  | 0x00 => some (fields [(0, 2, s.pairMode), (2, 2, p.recovery.toNat), (4, 2, p.excluded.toNat), (6, 2, p.permanent.toNat),
      (8, 1, flag (s.param 0x0103 0 == 1))])
  | 0x04 => some (fields [(0, 4, p.lastKind.toNat), (8, 8, p.reexecs.toNat), (16, 16, p.mismatches.toNat)])
  | 0x08 => some p.misTick
  | 0x0C => some (fields [(0, 14, p.logMax.toNat), (16, 16, p.chkptOvf.toNat)])
  | 0x10 => some (fields [(0, 16, p.corrected0.toNat), (16, 2, countTwo p.exclusions0)])
  | 0x14 => some (fields [(0, 16, p.corrected1.toNat), (16, 2, countTwo p.exclusions1)])
  | 0x18 => some (fields [(0, 16, p.l2Corrected.toNat), (16, 16, p.dramCorrected.toNat)])
  | _ => none

/-! ## FLD -/

/-- STATE of FLD_OUT_n; where two hold, the group trip and the hold time come before a latch (log entry 36). -/
def State.outState (s : State) (c : Nat) : Nat :=
  let x := s.chan c
  if !isOutputMode x.m then 0
  else if x.m = 8 ∧ s.sys.mode = .follow then 7
  else if (s.group (groupOf c)).uvLatch ∨ x.latches.getLsbD latHold ∨ x.uvWait then 6
  else if x.latches ≠ 0 then 5
  else if x.test ≠ .idle then 3
  else if (s.cell c).deferred then 4
  else if x.cmd then 2 else 1
/-- FLD, by offset from 0x4000. -/
def State.fldReg (s : State) (o : Nat) : Option Word :=
  if o < 0x180 then
    let x := s.chan (o / 4)
    some (fields [(0, 4, x.m), (4, 1, flag x.type3), (5, 4, x.filter.toNat), (9, 2, x.edge.toNat), (11, 1, flag x.couplerLost),
      (12, 1, flag x.cellFault), (16, 16, x.invalid.toNat)])
  else if o < 0x240 then
    let d := s.dual ((o - 0x180) / 4)
    some (fields [(0, 11, d.steps.toNat), (12, 3, d.state.code), (15, 1, flag d.antivalent),
      (16, 16, if d.running then d.timer.toNat else 0)])
  else if o < 0x258 then
    let g := s.group ((o - 0x240) / 4)
    some (fields [(0, 8, g.supply.toNat), (8, 1, flag g.supplyLow), (16, 16, g.cellsValid.toNat)])
  else if o = 0x260 then some s.fld.ticks
  else if 0x400 ≤ o ∧ o < 0xA00 then
    let c := (o - 0x400) / 16
    let x := s.chan c
    match o % 16 with
    | 0 => some (fields [(0, 3, s.outState c), (3, 1, flag x.cmd), (4, 8, x.latches.toNat), (12, 4, x.offset.toNat),
        (16, 6, x.pulse.toNat), (22, 10, if 1 ≤ x.m ∧ x.m ≤ 6 then 0 else x.period.toNat)])
    | 4 => some x.tsched
    | 8 => some x.texec
    | _ => some x.tabort
  else if 0xA00 ≤ o ∧ o < 0xA18 then
    let k := (o - 0xA00) / 4
    let g := s.group k
    let st := if (g.uvLatch ∨ g.supplyLow) ∧ g.okTicks ≠ 0 then 3 else if g.uvLatch then 2 else if g.supplyLow then 1 else 0
    some (fields [(0, 2, st), (2, 1, flag g.uvLatch), (3, 1, flag (s.param 0x0110 k == 1)), (4, 1, flag (s.param 0x0111 k == 1)),
      (16, 16, g.uvTrips.toNat)])
  else none

/-! ## HLA, HLB -/

/-- HLA_NODE.STATE (R278). -/
def NodeState.code : NodeState → Nat
  | .off => 0 | .listen => 1 | .coldstart => 2 | .wait => 3 | .sync => 4 | .observe => 5 | .integrated => 6 | .reference => 7
/-- Network registers, by offset from 0x5000 or 0x5100. -/
def HlNet.reg (x : HlNet) (o : Nat) : Option Word :=
  match o with
  | 0x00 => some (fields [(0, 4, x.gen.toNat), (8, 8, x.netId.toNat), (16, 13, (x.sched.map (·.slots.length)).getD 0)])
  | 0x04 => some (BitVec.ofNat 32 ((x.sched.map (·.cycleNs)).getD 0))
  | 0x08 => some ((x.sched.map (·.ident)).getD 0)
  | 0x0C => some (fields [(0, 1, flag x.isIntegrated), (1, 1, flag x.splitA), (2, 1, flag x.splitB), (3, 1, flag x.hub),
      (8, 8, x.hubAddr.toNat), (16, 8, x.refAddr.toNat), (24, 8, x.epoch.toNat)])
  | 0x10 => some x.cycle
  | 0x14 => some x.strayA
  | 0x18 => some x.strayB
  | _ => none
/-- A port is the upstream port (R261): 0 while the module is hub. -/
def HlNet.isUp (x : HlNet) (p : Nat) : Bool :=
  !x.hub && (if p < 2 then x.join.upA else x.join.upB) == some (p % 2 == 1)
/-- Node status, by offset from 0x5200 or 0x5300. -/
def HlNet.nodeReg (x : HlNet) (o : Nat) : Option Word :=
  let port (p : Nat) : Word :=
    fields [(0, 1, flag (x.linkUp.getLsbD p)), (1, 1, flag (x.master.getLsbD p)), (2, 1, flag (x.isUp p)),
      (3, 1, flag (x.hub && p % 2 == 1 && x.ringReturn.getLsbD (p / 2))), (16, 16, (Tbl.get (fun _ => 0) x.drops p).toNat)]
  let d (v : Option Nat) : Word := BitVec.ofNat 32 (if x.hub then 0 else v.getD 0)
  match o with
  | 0x00 => some (fields [(0, 3, x.state.code), (3, 1, flag x.mismatch), (4, 1, flag x.search), (8, 8, x.attempt.toNat),
      (16, 8, x.addr.toNat), (24, 8, if x.hub then x.grants.length else flag x.own.isSome)])
  | 0x04 => some (d x.dA)
  | 0x08 => some (d x.dB)
  | 0x0C => some (fields [(0, 4, Nat.min 8 x.refusals.length), (8, 8, x.refusedA.toNat), (16, 8, x.refusedB.toNat),
      (24, 8, x.leaves.toNat)])
  | 0x10 => some (port 0)
  | 0x14 => some (port 1)
  | 0x18 => some (port 2)
  | 0x1C => some (port 3)
  | 0x20 => some (fields [(0, 2, x.lossCause.toNat), (8, 8, x.losses.toNat)])
  | _ => none

/-! ## Captures (R432) -/

/-- The number of a reading party; the runtime is none. -/
def partyIx : Party → Option Nat
  | .pcie => some 0
  | .legacy => some 1
  | .part0 => some 2
  | .part1 => some 3
  | .service => some 4
  | .runtime => none
/-- The six words that a read of CYCLES captures (R274). -/
def SlotCnt.words (c : SlotCnt) : List Word := [c.validA, c.invalidA, c.emptyA, c.validB, c.invalidB, c.emptyB]
/-- Counters of a slot. -/
def HlNet.cnt (x : HlNet) (k : Nat) : SlotCnt := Tbl.get (fun _ => SlotCnt.reset) x.counters k
/-- Index of a party's slot capture on a network. -/
def capIx (p : Nat) (n : Net) : Nat := 2 * p + netIx n
/-- What a party's slot words read: captured ones for the slot it captured, live ones for every other. -/
def State.slotWords (s : State) (p : Party) (n : Net) (k : Nat) : List Word :=
  let live := ((s.net n).cnt k).words
  match partyIx p with
  | none => live
  | some i =>
    match Tbl.get (fun _ => none) s.host.slotCap (capIx i n) with
    | some (j, ws) => if j = k then ws else live
    | none => live
/-- HLA_SLOT_s, by offset from the network's block. -/
def State.slotReg (s : State) (p : Party) (n : Net) (o : Nat) : Option Word :=
  let k := o / 0x20
  if 4096 ≤ k then none
  else if o % 0x20 = 0 then some ((s.net n).cnt k).cycles
  else if o % 0x20 = 0x1C then none
  else (s.slotWords p n k)[o % 0x20 / 4 - 1]?
/-- What a party's TBU words read: its last capture. -/
def State.tbuCapture (s : State) (p : Party) : Nat × Int × Int :=
  match partyIx p with
  | some i => Tbl.get (fun _ => (0, 0, 0)) s.host.tbuCap i
  | none => (0, 0, 0)
/-- A party reads the count itself, and what was captured with it (R349, R432). -/
def State.tbuReg (s : State) (p : Party) (o : Nat) : Option Word :=
  let (c, pl, nt) := s.tbuCapture p
  let sec (v : Int) : Nat := wrap64 (v / 1000000000)
  let ns (v : Int) : Word := BitVec.ofInt 32 (v % 1000000000)
  let t := s.tbu
  match o with
  | 0x00 => some (half false s.now)
  | 0x04 => some (half true c)
  | 0x08 => some (half false (sec pl))
  | 0x0C => some (half true (sec pl))
  | 0x10 => some (ns pl)
  | 0x14 => some (half false (sec nt))
  | 0x18 => some (half true (sec nt))
  | 0x1C => some (ns nt)
  | 0x20 => some (fields [(0, 4, maskOf [t.plantSet, t.plantLocked, t.jumpRefused, t.netLocked]), (4, 2, if s.param 0x0131 0 = 0 then 0 else Nat.max 1 t.ptpState.toNat),
      (8, 8, t.refusals.toNat)])
  | 0x24 => some t.plant.r
  | 0x28 => some t.net.r
  | 0x2C => some (half false (wrap64 (t.jump.getD 0)))
  | 0x30 => some (half true (wrap64 (t.jump.getD 0)))
  | 0x34 => some (ofsWord t.plantOfs)
  | 0x38 => some (ofsWord t.netOfs)
  | _ => none
/-- What a party's HYK_WRITTEN and HYK_DROPPED read. -/
def State.hykCapture (s : State) (p : Party) : Word × Word :=
  match partyIx p with
  | some i => Tbl.get (fun _ => (0, 0)) s.host.hykCap i
  | none => (0, 0)
/-- HYK, by offset from 0x8000, with the words given for HYK_WRITTEN and HYK_DROPPED. -/
def State.hykReg (s : State) (written dropped : Word) (o : Nat) : Option Word :=
  let h := s.hyk
  match o with
  | 0x00 => some (fields [(0, 15, h.genNext.toNat), (15, 1, flag h.genWrapped)])
  | 0x04 => some h.genSeq
  | 0x08 => some (fields [(0, 12, h.safNext.toNat), (12, 1, flag h.safWrapped)])
  | 0x0C => some h.safSeq
  | 0x10 => some h.raised
  | 0x14 => some written
  | 0x18 => some dropped
  | 0x1C => some (fields [(0, 11, h.buckets.length), (16, 16, h.evictFail.toNat)])
  | 0x20 => some (h.badSlots.setWidth 32)
  | 0x24 => some (BitVec.ofNat 32 (s.opMs / msHour))
  | _ => none

/-! ## STL, PWR, UPD, BST, RING -/

/-- The words of a log entry (STL_PEL_i). -/
def pelWord (e : Option Pel) (o : Nat) : Option Word :=
  match e with
  | none => if o % 4 = 0 ∧ o < 0x1C then some 0 else none
  | some x =>
    match o with
    | 0x00 => some (fields [(0, 1, 1), (1, 4, x.cause.toNat), (5, 1, flag x.outcome), (8, 7, x.ctx), (16, 4, if x.hl2 then 8 else 7),
        (24, 8, x.station)])
    | 0x04 => some x.tag
    | 0x08 => some (half false x.addr.toNat)
    | 0x0C => some (half true x.addr.toNat)
    | 0x10 => some x.cycle
    | 0x14 => some x.discFirst
    | 0x18 => some (fields [(0, 16, x.discCount.toNat), (16, 8, x.far.toNat)])
    | _ => none
/-- STL, by offset from 0x6000. -/
def State.stlReg (s : State) (o : Nat) : Option Word :=
  if o = 0 then
    some (fields [(0, 6, ((List.range 32).filter fun i => (s.pel i).isSome).length),
      (8, 7, ((List.range 64).filter fun k => (s.sem k).held).length), (16, 15, (s.cfg.cur.routing.filter (·.valid)).length)])
  else if o = 4 then some s.stl.lost
  else if o = 8 then some (fields [(0, 16, s.stl.noRoute.toNat), (16, 16, s.stl.overflow.toNat)])
  else if 0x10 ≤ o ∧ o < 0x38 then
    let p := (o - 0x10) / 4
    let x := s.port p
    some (fields [(0, 2, x.state.toNat), (8, 8, if p < 4 then x.tec.toNat else 0), (16, 8, if p < 4 then x.recErr.toNat else 0)])
  else if 0x100 ≤ o ∧ o < 0x200 then
    let m := s.sem ((o - 0x100) / 4)
    some (fields [(0, 7, m.owner.toNat), (7, 1, flag m.held)])
  else if 0x200 ≤ o ∧ o < 0x400 then
    let c := s.ctx ((o - 0x200) / 4)
    some (fields [(0, 3, c.owner.toNat), (4, 6, c.credits), (10, 6, c.free), (16, 1, flag c.err), (17, 1, flag c.fenceAll),
      (18, 4, Nat.min 8 c.fences.length), (22, 10, c.lost.toNat)])
  else if 0x400 ≤ o ∧ o < 0x800 then pelWord (s.pel ((o - 0x400) / 0x20)) (o % 0x20)
  else none
/-- PWR, by offset from 0x7000. -/
def Pwr.reg (p : Pwr) (o : Nat) : Option Word :=
  match o with
  | 0x00 => some (fields [(0, 8, p.l1v.toNat), (8, 8, p.l2v.toNat),
      (16, 5, maskOf [p.l1ok, p.l2ok, p.holdupReady, p.onHoldup, p.reserveReady])])
  | 0x04 => some (fields [(0, 16, p.feedDrops.toNat), (16, 16, p.rideThroughs.toNat)])
  | 0x08 => some (fields [(0, 16, p.domains.toNat), (16, 16, if p.dom 4 = 1 then p.sramRet.toNat else 0)])
  | 0x0C => some (fields [(0, 4, maskOf [p.pllLocked, p.onBackup, p.refLost, p.crossOvf]), (16, 16, p.flushes.toNat)])
  | 0x10 => some (fields [(0, 16, p.sramCorrected.toNat), (16, 16, p.pd0Corrected.toNat)])
  | 0x14 => some (fields [(0, 16, p.temp.toNat), (16, 16, p.tempMax.toNat)])
  | 0x18 => some (p.coreMv.setWidth 32)
  | 0x1C => some (p.reserveUs.setWidth 32)
  | _ => none
/-- A slot state as UPD_STATUS codes it (R402). -/
def SlotState.code : SlotState → Nat
  | .empty => 0 | .loading => 1 | .valid => 2 | .active => 3
/-- A field of a slot that reads 0 when EMPTY. -/
def FwSlot.shown (x : FwSlot) (v : Nat) : Nat := if x.state = .empty then 0 else v
/-- UPD, by offset from 0x9000. -/
def State.updReg (s : State) (o : Nat) : Option Word :=
  let u := s.upd
  let other := if u.activeB then u.slotA else u.slotB
  let run := if u.activeB then u.slotB else u.slotA
  let miss := if u.slotA.state = .loading then u.slotA.missing.length
    else if u.slotB.state = .loading then u.slotB.missing.length else 0
  let count := (u.armed.map (·.count)).getD 0
  match o with
  | 0x00 => some (fields [(0, 1, flag u.activeB), (1, 1, flag u.pending), (2, 2, u.slotA.state.code), (4, 2, u.slotB.state.code),
      (6, 1, flag u.armed.isSome), (7, 1, flag u.ready), (8, 8, (u.armed.map (·.group.toNat)).getD 0),
      (16, 1, flag ((u.armed.map (·.plant)).getD false)), (17, 1, flag u.fallback), (18, 3, u.scope.toNat)])
  | 0x04 => some (fields [(0, 8, s.mfg.fused.toNat), (8, 8, u.slotA.shown u.slotA.secVersion.toNat),
      (16, 8, u.slotB.shown u.slotB.secVersion.toNat), (24, 4, s.mfg.revoked.toNat)])
  | 0x08 => some (fields [(0, 16, miss), (16, 16, other.shown other.blocks)])
  | 0x0C => some (half false count)
  | 0x10 => some (half true count)
  | 0x14 => some (fields [(0, 16, run.tfVersion.toNat), (16, 16, run.sfVersion.toNat)])
  | _ => none
/-- BST, by offset from 0xA000. -/
def State.bstReg (s : State) (o : Nat) : Option Word :=
  let b := s.bst
  match o with
  | 0x00 => some (fields [(0, 2, b.running.toNat), (2, 1, flag b.due), (3, 1, flag b.skipped), (4, 2, b.skipCause.toNat),
      (6, 2, b.lastKind.toNat), (8, 1, flag b.recordValid), (9, 1, flag b.failed)])
  | 0x04 => some (b.failMask.setWidth 32)
  | 0x08 => some (fields [(0, 16, b.unrepaired.toNat), (16, 16, b.repairs.length)])
  | 0x0C => some (BitVec.ofNat 32 (Nat.min 0xFFFF s.bistHours))
  | _ =>
    if 0x20 ≤ o ∧ o < 0xA0 then
      match b.fails[(o - 0x20) / 8]? with
      | none => some 0
      | some (f, rep) =>
        if o % 8 = 0 then some (fields [(0, 6, f.arr.toNat), (6, 1, flag rep), (7, 1, 1), (8, 7, f.bitNo.toNat)])
        else some (f.addr.setWidth 32)
    else none
/-- The control block of a ring pair (R67). -/
def State.ringReg (s : State) (n o : Nat) : Option Word :=
  let r := s.ring n
  match o with
  | 0x00 => some (fields [(0, 14, r.base.toNat), (16, 4, r.depthLog2.toNat), (20, 2, r.cmdset.toNat), (24, 3, r.owner.toNat),
      (31, 1, flag r.enabled)])
  | 0x04 => some (fields [(0, 7, maskOf [r.restarted, r.takeover, r.replayDone, r.doorbellErr, r.consErr, r.acceptHeld,
      s.sys.mode == .follow]), (16, 16, r.gen.toNat)])
  | 0x08 => some r.cmdProd
  | 0x0C => some r.cmdCons
  | 0x10 => some r.cplProd
  | 0x14 => some r.cplCons
  | 0x18 => some (fields [(0, 8, r.thresh.toNat), (8, 10, r.timer.toNat), (31, 1, flag r.mask)])
  | 0x1C => some (BitVec.ofNat 32 (s.outstanding n))
  | _ => none

/-! ## BAR0 (R429 to R432, R55) -/

/-- The domain that a block of the register space lies in (R55, R366). -/
def blockDom (o : Nat) : Nat :=
  if o < 0x80 then 0 else if o < 0x200 then 5 else if o < 0x1000 then 0
  else if o < 0x3000 then 4 else if o < 0x3100 then 1 else if o < 0x4000 then 2 else if o < 0x5000 then 7
  else if o < 0x6000 then 4 else if o < 0x7000 then 3 else if o < 0xA000 then 0 else if o < 0x10000 then 6
  else if o < 0x100000 then 4 else 0
/-- The register at an aligned BAR0 offset, as a party reads it; none where no register stands. -/
def State.reg (s : State) (p : Party) (o : Nat) : Option Word :=
  if o < 0x4C then s.sysReg o
  else if o < 0x200 then s.dpxReg o
  else if o < 0x1000 then s.taskReg (o - 0x200)
  else if o < 0x2000 then s.swdReg (o - 0x1000)
  else if o < 0x2800 then s.stnReg (o - 0x2000)
  else if o < 0x3000 then none
  else if o < 0x3100 then s.triReg (o - 0x3000)
  else if o < 0x4000 then s.cprReg (o - 0x3100)
  else if o < 0x5000 then s.fldReg (o - 0x4000)
  else if o < 0x5100 then s.hl1.reg (o - 0x5000)
  else if o < 0x5200 then s.hl2.reg (o - 0x5100)
  else if o < 0x5300 then s.hl1.nodeReg (o - 0x5200)
  else if o < 0x6000 then s.hl2.nodeReg (o - 0x5300)
  else if o < 0x7000 then s.stlReg (o - 0x6000)
  else if o < 0x8000 then s.pwr.reg (o - 0x7000)
  else if o < 0x9000 then s.hykReg (s.hykCapture p).1 (s.hykCapture p).2 (o - 0x8000)
  else if o < 0xA000 then s.updReg (o - 0x9000)
  else if o < 0x10000 then s.bstReg (o - 0xA000)
  else if o < 0x20000 then s.ringReg ((o - 0x10000) / 0x800) (o % 0x800)
  else if o < 0x40000 then s.slotReg p .hl1 (o - 0x20000)
  else if o < 0x60000 then s.slotReg p .hl2 (o - 0x40000)
  else if 0x1C00000 ≤ o then s.tbuReg p (o - 0x1C00000)
  else none
/-- Only the Lifeline works (R50, R53, R55). -/
def State.lifeline (s : State) : Bool := s.sys.mode == .halt || (s.sys.mode == .service && s.sys.substate == 6)
/-- The party reaches the registers: its domain is on. -/
def State.partyUp (s : State) (p : Party) : Bool :=
  match p with
  | .pcie => s.domOn 5
  | .legacy => s.domOn 5
  | .service => s.domOn 3
  | _ => s.domOn 2
/-- All ones. -/
def ones : Word := 0xFFFFFFFF
/-- A read of an aligned register offset by a party (R10, R11, R55, R429, R431); a party whose domain is off gets none. -/
def State.regRead (s : State) (p : Party) (o : Nat) : Word :=
  if !s.partyUp p ∨ (s.lifeline ∧ 0x4C ≤ o) then ones
  else if !s.domOn (blockDom o) then ones
  else (s.reg p o).getD 0

/-- Bytes of the Hayrick read window (R383, R395): slots, and the copy of the registers, which captures nothing. -/
def State.hykByte (s : State) (a : Nat) : Byte :=
  let slot (t : Tbl (Option HykEntry)) (i k : Nat) : Byte :=
    match Tbl.get (fun _ => none) t i with
    | some e => byteAt e.bytes k
    | none => 0
  if a < 0xE0000 then slot s.hyk.general (a / 32) (a % 32)
  else if a < 0x100000 then slot s.hyk.safety ((a - 0xE0000) / 32) (a % 32)
  else if a < 0x100020 then
    byteAt (le 4 ((s.hykReg s.hyk.written s.hyk.dropped ((a - 0x100000) / 4 * 4)).getD 0)) (a % 4)
  else 0
/-- The version that the snapshot window shows (R139). -/
def State.shownVersion (s : State) : Option Version :=
  match s.swd.pinned with
  | some n => s.swd.versions.find? (·.num == n)
  | none => if s.swd.promoted then s.swd.versions.find? (·.num == s.swd.version) else none
/-- A byte of an input window (R138): segments, quality words, header. -/
def State.windowByte (s : State) (v : Version) (a : Nat) : Byte :=
  if a < 0x40000 then
    let ins := (s.segs.filter fun x => !x.isOut).zip v.segs
    match ins.find? fun (x, _) => decide (x.imageOff ≤ a ∧ a < x.imageOff + x.size) with
    | some (x, b, _) => byteAt b (a - x.imageOff)
    | none => 0
  else if a < 0x40800 then
    match v.segs[(a - 0x40000) / 2]? with
    | some (_, q) => byteAt (le 2 q) (a % 2)
    | none => 0
  else if a < 0x40840 then
    let subst := ((v.segs.filter fun x => x.2.getLsbD 1)).length
    byteAt (le 4 v.num ++ [0, 0, 0, 0] ++ leBytes 8 v.at_ ++ leBytes 8 v.tick.toNat ++ leBytes 4 subst) (a - 0x40800)
  else 0
/-- A byte of the snapshot window. -/
def State.snapByte (s : State) (a : Nat) : Byte :=
  match s.shownVersion with
  | some v => s.windowByte v a
  | none => 0

/-- A location as a host path names it. -/
inductive Spot where
  | reg (o : Nat)
  | ringMem (o : Nat)
  | hyk (o : Nat)
  | snap (o : Nat)
  | staging (o : Nat)
  | msix (o : Nat)
  | pba (o : Nat)
  | nothing
  deriving DecidableEq, Repr
/-- The location of a BAR0 offset (R429). -/
def barSpot (o : Nat) : Spot :=
  if o < 0x100000 then .reg o
  else if o < 0x200000 then .ringMem (o - 0x100000)
  else if o < 0x200200 then .msix (o - 0x200000)
  else if 0x201000 ≤ o ∧ o < 0x201008 then .pba (o - 0x201000)
  else if 0x1000000 ≤ o ∧ o < 0x1400000 then .snap (o - 0x1000000)
  else if 0x1800000 ≤ o ∧ o < 0x1C00000 then .hyk (o - 0x1800000)
  else if 0x1C00000 ≤ o ∧ o < 0x2000000 then .reg o
  else .nothing
/-- The location of a page of the legacy window (R442). -/
def pageSpot (p o : Nat) : Spot :=
  if p ≤ 0x1F then .ringMem (p * 0x8000 + o)
  else if 0x40 ≤ p ∧ p ≤ 0x60 then .hyk ((p - 0x40) * 0x8000 + o)
  else if 0x80 ≤ p ∧ p ≤ 0x88 then .snap ((p - 0x80) * 0x8000 + o)
  else if 0xA0 ≤ p ∧ p ≤ 0xAB then .reg ((p - 0xA0) * 0x8000 + o)
  else if 0x800 ≤ p then .staging ((p - 0x800) * 0x8000 + o)
  else .nothing
/-- The location of a legacy address within the subset (R440). -/
def legacySpot (page : BitVec 12) (a : Nat) : Spot :=
  if a < 0x400 then .reg a
  else if a < 0x500 then .reg (0x14000 + (a - 0x400) / 0x40 * 0x800 + a % 0x40)
  else if 0x800 ≤ a ∧ a < 0x1000 then .reg (0x6000 + (a - 0x800))
  else if 0x1000 ≤ a ∧ a < 0x2000 then .reg (0x4000 + (a - 0x1000))
  else if 0x2000 ≤ a ∧ a < 0x2200 then .reg (0x3000 + (a - 0x2000))
  else if 0x2200 ≤ a ∧ a < 0x2220 then .reg (0x1000 + (a - 0x2200))
  else if 0x2400 ≤ a ∧ a < 0x2800 then .reg (0x5000 + (a - 0x2400))
  else if 0x2800 ≤ a ∧ a < 0x2840 then .reg (0x1C00000 + (a - 0x2800))
  else if 0x2900 ≤ a ∧ a < 0x2A00 then .reg (0x7000 + (a - 0x2900))
  else if 0x2A00 ≤ a ∧ a < 0x2B00 then .reg (0x8000 + (a - 0x2A00))
  else if 0x2B00 ≤ a ∧ a < 0x2C00 then .reg (0x9000 + (a - 0x2B00))
  else if 0x2C00 ≤ a ∧ a < 0x2D00 then .reg (0xA000 + (a - 0x2C00))
  else if 0x8000 ≤ a then pageSpot page.toNat (a - 0x8000)
  else .nothing
/-- What the PCI Express endpoint identifies itself with (R428): vendor 0xAE1D, device 0x7300, revision = hardware issue
0x02 (R1), class 0x0B_4000, subsystem 0xAE1D and the variant (R4). -/
structure PciIdentity where
  vendor : BitVec 16
  device : BitVec 16
  revision : Byte
  classCode : BitVec 24
  subVendor : BitVec 16
  subsystem : BitVec 16
  deriving DecidableEq, Repr
/-- The endpoint's identity (R428). -/
def State.pciIdentity (s : State) : PciIdentity :=
  ⟨0xAE1D, 0x7300, 0x02, 0x0B4000, 0xAE1D, s.mfg.variant.setWidth 16⟩
/-- A word made of four bytes. -/
def wordOf (f : Nat → Byte) (o : Nat) : Word := BitVec.ofNat 32 (leNat ((List.range 4).map fun k => f (o + k)))
/-- What an aligned 32-bit read of a location returns to a party. -/
def State.spotRead (s : State) (p : Party) (x : Spot) : Word :=
  let up (v : Word) : Word := if s.lifeline || !s.partyUp p then ones else v
  match x with
  | .reg o => s.regRead p o
  | .hyk o => if s.partyUp p then wordOf s.hykByte o else ones
  | .ringMem o => up (wordOf (Tbl.get byte0 s.mem.ring) o)
  | .snap o => up (wordOf s.snapByte o)
  | .staging o => up (wordOf (Tbl.get byte0 s.mem.staging) o)
  | .msix o => up (Tbl.get msixDefault s.host.msixTable (o / 4))
  | .pba o => up (if o = 0 then s.host.pba else 0)
  | .nothing => up 0

end Sys2Proof.Machine
end

