-- ==== Sys2Proof/Machine/HostBus.lean ====
section
/-! DEFINITION. Register writes of every party, captures, the legacy local bus, the PCI Express link
(20_register_map.md, R51, R52, R55, R58, R139). -/

namespace Sys2Proof.Machine

/-! ## Writes of fields (R431, R434) -/

/-- A host path. -/
def isHost (p : Party) : Bool := p == .pcie || p == .legacy
/-- SYS_RESTART (R51, R52): honoured in HALT with KEY 0xA5, WARM only while HALT_LATCHED is clear; recorded elsewhere. A
module without trusted firmware restarts through the service USB port only (R55). -/
def State.writeRestart (s : State) (v : Word) : State :=
  let key : Byte := (v >>> 8).setWidth 8
  if s.sys.mode ≠ .halt then s.raise srcSup 0x1005 3 [(modeCode s.sys.mode).setWidth 8, v.setWidth 8, key]
  else if key ≠ 0xA5 ∨ s.sys.haltCause = 2 then s
  else if v.getLsbD 1 then
    (s.modSys fun y => if y.haltLatched then { y with haltLatched := false, warmFails := [], coldFails := [] } else y).enterStart
      .cold 0
  else if v.getLsbD 0 ∧ !s.sys.haltLatched then s.enterStart .warm 0
  else s
/-- SYS_HOSTCFG: nothing once locked. -/
def Sys.writeHostcfg (y : Sys) (v : Word) : Sys :=
  if y.lock then y
  else { y with progSem := v.getLsbD 0, progW1c := v.getLsbD 1, legacyWrite := v.getLsbD 2, lock := v.getLsbD 31 }
/-- SWD_SNAPLOCK.PIN (R139): the version promoted most recently is pinned, or the pinned one released. -/
def State.writePin (s : State) (pin : Bool) : State :=
  (s.modSwd fun w =>
    if pin then { w with pin := true, pinned := if w.pinned.isSome then w.pinned else if w.promoted then some w.version else none }
    else { w with pin := false, pinned := none }).prune
/-- A party that may clear the W1C fields of a task or context: a host, or the partition itself while PROG_W1C is set. -/
def State.mayClear (s : State) (p : Party) (part1 : Bool) : Bool :=
  isHost p || (s.sys.progW1c && p == (if part1 then .part1 else .part0))
/-- SYS_TASKSTAT_n: OVERRUN and STRETCHED. -/
def State.writeTaskstat (s : State) (p : Party) (n : Nat) (v : Word) : State :=
  if s.mayClear p (decide (9 ≤ n)) ∧ (isHost p ∨ 1 ≤ n) then
    s.modTask n fun k => { k with overrun := k.overrun && !v.getLsbD 8, stretched := k.stretched && !v.getLsbD 9 }
  else s.forbid p 1 (0x200 + n * 16) v
/-- STL_SEM_k (R341): ACQUIRE, then RELEASE, for the context in CTX. -/
def State.writeSem (s : State) (p : Party) (k : Nat) (v : Word) : State :=
  let x := v.toNat / 256 % 128
  s.semWrite p k x v fun s =>
    let s := if v.getLsbD 16 then s.semAcquire k x else s
    if v.getLsbD 17 then s.semRelease k x else s
/-- STL_CTX_n: ERR, of own contexts (R337); a fence stays. -/
def State.writeCtx (s : State) (p : Party) (x : Nat) (v : Word) : State :=
  let mine : Bool := s.ownsCtx p x && (s.sys.progW1c || !(p == .part0 || p == .part1))
  if mine then s.modCtx x fun c => { c with err := c.err && !v.getLsbD 16 } else s.forbid p 1 (0x6200 + 4 * x) v
/-- RING_IRQ_n (R67): the condition may come to hold. -/
def State.writeIrq (s : State) (n : Nat) (v : Word) : State :=
  let before := (s.ring n).irqOn s.now
  (s.modRing n fun r => { r with thresh := v.setWidth 8, timer := (v >>> 8).setWidth 10, mask := v.getLsbD 31 }).irqEdge n before
/-- RING_STATUS_n: the W1C fields. -/
def Ring.clear (r : Ring) (v : Word) : Ring :=
  { r with restarted := r.restarted && !v.getLsbD 0, takeover := r.takeover && !v.getLsbD 1
           doorbellErr := r.doorbellErr && !v.getLsbD 3, consErr := r.consErr && !v.getLsbD 4 }
/-- The control block of a ring pair (R58, R64 to R67); any other location in it is refused. -/
def State.writeRing (s : State) (p : Party) (n o : Nat) (v : Word) : State :=
  s.ringWrite p n o v fun s =>
    match o with
    | 0x04 => s.modRing n fun r => r.clear v
    | 0x08 => s.writeDoorbell n v
    | 0x14 => s.writeCons n v
    | 0x18 => s.writeIrq n v
    | _ => s.forbid p 1 (0x10000 + n * 0x800 + o) v

/-- A 32-bit write to a register by a party, past the gates (R431, R434): the fields it may write, or refused; reserved
offsets ignore it. -/
def State.writeReg (s : State) (p : Party) (o : Nat) (v : Word) : State :=
  let host (s : State) (f : State → State) : State := if isHost p then f s else s.forbid p 1 o v
  if o = 0x18 then host s fun s => (s.modSys fun y => { y with event := y.event &&& ~~~ v.setWidth 8 }).reevents
  else if o = 0x1C then host s fun s => (s.modSys fun y => { y with eventMask := v.setWidth 8 }).reevents
  else if o = 0x20 then host s fun s => s.modSys fun y => y.writeHostcfg v
  else if o = 0x24 then
    if p = .legacy then s.modSys fun y => { y with lpage := v.setWidth 12 } else s.forbid p 1 o v
  else if o = 0x44 then host s fun s => s.writeRestart v
  else if s.lifeline ∧ 0x4C ≤ o then s
  else if 0x200 ≤ o ∧ o < 0x310 ∧ o % 16 = 0 then s.writeTaskstat p ((o - 0x200) / 16) v
  else if o = 0x1000 then host s fun s => s.modSwd fun w => { w with refusedCfg := w.refusedCfg && !v.getLsbD 24 }
  else if o = 0x1008 then host s fun s => s.writePin (v.getLsbD 0)
  else if o = 0x5200 then host s fun s => s.modHl1 fun x => { x with mismatch := x.mismatch && !v.getLsbD 3 }
  else if o = 0x5300 then host s fun s => s.modHl2 fun x => { x with mismatch := x.mismatch && !v.getLsbD 3 }
  else if 0x6100 ≤ o ∧ o < 0x6200 then s.writeSem p ((o - 0x6100) / 4) v
  else if 0x6200 ≤ o ∧ o < 0x6400 then s.writeCtx p ((o - 0x6200) / 4) v
  else if o = 0x700C then host s fun s => s.modPwr fun q => { q with crossOvf := q.crossOvf && !v.getLsbD 3 }
  else if 0x10000 ≤ o ∧ o < 0x20000 then s.writeRing p ((o - 0x10000) / 0x800) (o % 0x800) v
  else if (s.reg p o).isSome then s.forbid p 1 o v
  else s
/-- The gates before a register write: the party is up; the Lifeline answers outside the SYS block to nothing (R55); the
Service Processor's windows are granted (R15, R398); LEGACY_WRITE (SYS_HOSTCFG). -/
def State.gate (s : State) (p : Party) (o : Nat) (v : Word) (f : State → State) : State :=
  if !s.partyUp p ∨ (s.lifeline ∧ 0x4C ≤ o) then s
  else if p = .service ∧ !s.upd.granted then s.forbid p 1 o v
  else if p = .legacy ∧ !s.sys.legacyWrite ∧ o ≠ 0x24 then s.refuseWrite p 3 o v
  else f s
/-- A whole 32-bit write to a register. -/
def State.busWrite (s : State) (p : Party) (o : Nat) (v : Word) : State := s.gate p o v fun s => s.writeReg p o v

/-! ## Rows that are writes to one register -/

/-- SYS_RESTART_WARM: a write of SYS_RESTART (R51, R52). -/
def effSysRestartWarm (p : Party) (v : Word) (s : State) : State := s.busWrite p 0x44 v
/-- SYS_RESTART_WARM. -/
def execSysRestartWarm (p : Party) (v : Word) (s : State) : Res := .next (effSysRestartWarm p v s)
/-- SYS_RESTART_COLD: a write of SYS_RESTART (R51, R52). -/
def effSysRestartCold (p : Party) (v : Word) (s : State) : State := s.busWrite p 0x44 v
/-- SYS_RESTART_COLD. -/
def execSysRestartCold (p : Party) (v : Word) (s : State) : Res := .next (effSysRestartCold p v s)
/-- SYS_EVENT_CLEAR (R433, R437): a bit that a later row sets is a new occurrence. -/
def effSysEventClear (p : Party) (v : Word) (s : State) : State := s.busWrite p 0x18 v
/-- SYS_EVENT_CLEAR. -/
def execSysEventClear (p : Party) (v : Word) (s : State) : Res := .next (effSysEventClear p v s)
/-- SYS_EVENT_MASK_WRITE (R437). -/
def effSysEventMaskWrite (p : Party) (v : Word) (s : State) : State := s.busWrite p 0x1C v
/-- SYS_EVENT_MASK_WRITE. -/
def execSysEventMaskWrite (p : Party) (v : Word) (s : State) : Res := .next (effSysEventMaskWrite p v s)
/-- HOSTCFG_LOCK (R434): a write of SYS_HOSTCFG. -/
def effHostcfgLock (p : Party) (v : Word) (s : State) : State := s.busWrite p 0x20 v
/-- HOSTCFG_LOCK. -/
def execHostcfgLock (p : Party) (v : Word) (s : State) : Res := .next (effHostcfgLock p v s)
/-- PIN (R139, R435). -/
def effPin (p : Party) (s : State) : State := s.busWrite p 0x1008 1
/-- PIN. -/
def execPin (p : Party) (s : State) : Res := .next (effPin p s)
/-- PIN_CLEAR (R139, R435). -/
def effPinClear (p : Party) (s : State) : State := s.busWrite p 0x1008 0
/-- PIN_CLEAR. -/
def execPinClear (p : Party) (s : State) : Res := .next (effPinClear p s)

/-! ## Captures (R274, R349, R432) -/

/-- A read of a slot's CYCLES word captures the other six for the party (R274). -/
def State.captureSlot (s : State) (p : Party) (n : Net) (k : Nat) : State :=
  match partyIx p with
  | none => s
  | some i => s.modHost fun h => { h with
      slotCap := Tbl.set (fun _ => none) h.slotCap (capIx i n) (some (k, ((s.net n).cnt k).words)) }
/-- A read of TBU_COUNT_LO captures the count and both scales at it (R349). -/
def State.captureTbu (s : State) (p : Party) : State :=
  match partyIx p with
  | none => s
  | some i => s.modHost fun h => { h with tbuCap := Tbl.set (fun _ => (0, 0, 0)) h.tbuCap i (s.now, s.plantNow, s.netNow) }
/-- A read of HYK_RAISED captures HYK_WRITTEN and HYK_DROPPED. -/
def State.captureHyk (s : State) (p : Party) : State :=
  match partyIx p with
  | none => s
  | some i => s.modHost fun h => { h with hykCap := Tbl.set (fun _ => (0, 0)) h.hykCap i (s.hyk.written, s.hyk.dropped) }
/-- The Service Processor's windows let it read a location (R398): Stile, its ring pairs, snapshot and Hayrick read
windows, TBU. -/
def State.serviceReads (s : State) (o : Nat) : Bool :=
  s.upd.granted && decide ((0x6000 ≤ o ∧ o < 0x7000) ∨ (0x1C000 ≤ o ∧ o < 0x20000) ∨ (0x1000000 ≤ o ∧ o < 0x2000000))
/-- What a read of an aligned register offset captures; one of the Service Processor outside its windows is refused (R15). -/
def State.capture? (s : State) (p : Party) (o : Nat) : State :=
  if s.lifeline ∨ !s.partyUp p then s
  else if p = .service ∧ !s.serviceReads o then s.firewallRefused 0 (BitVec.ofNat 64 (0x0101000000 + o))
  else if o = 0x1C00000 then s.captureTbu p
  else if o = 0x8010 then s.captureHyk p
  else if 0x20000 ≤ o ∧ o < 0x40000 ∧ o % 0x20 = 0 then s.captureSlot p .hl1 ((o - 0x20000) / 0x20)
  else if 0x40000 ≤ o ∧ o < 0x60000 ∧ o % 0x20 = 0 then s.captureSlot p .hl2 ((o - 0x40000) / 0x20)
  else s
/-- SLOT_COUNTER_CAPTURE (R274). -/
def effSlotCounterCapture (p : Party) (n : Net) (slot : Fin 4096) (s : State) : State :=
  s.capture? p ((if n = .hl1 then 0x20000 else 0x40000) + slot.val * 0x20)
/-- SLOT_COUNTER_CAPTURE. -/
def execSlotCounterCapture (p : Party) (n : Net) (slot : Fin 4096) (s : State) : Res :=
  .next (effSlotCounterCapture p n slot s)
/-- TBU_CAPTURE (R432). -/
def effTbuCapture (p : Party) (s : State) : State := s.capture? p 0x1C00000
/-- TBU_CAPTURE. -/
def execTbuCapture (p : Party) (s : State) : Res := .next (effTbuCapture p s)
/-- HAYRICK_CAPTURE (R432). -/
def effHayrickCapture (p : Party) (s : State) : State := s.capture? p 0x8010
/-- HAYRICK_CAPTURE. -/
def execHayrickCapture (p : Party) (s : State) : Res := .next (effHayrickCapture p s)

/-! ## Ring memory, the MSI-X table, REGISTER_WRITE (R58, R431, R436) -/

/-- A byte of ring memory lies in the command ring of a ring pair. -/
def Ring.inCommands (r : Ring) (a : Nat) : Bool :=
  r.enabled && decide (r.base.toNat * 64 ≤ a ∧ a < r.base.toNat * 64 + r.depth * 64)
/-- The bytes of a write that its byte enables select, with their offsets. -/
def enabledBytes (o : Nat) (be : Byte) (data : Bytes) : List (Nat × Byte) :=
  data.zipIdx.filterMap fun (b, k) => if be.getLsbD k then some (o + k, b) else none
/-- A write to ring memory (R58): into the owner's command rings, by its byte enables; elsewhere refused. -/
def State.writeRingMem (s : State) (p : Party) (o : Nat) (be : Byte) (data : Bytes) : State :=
  if !s.mailboxUp then s
  else
    let bs := enabledBytes o be data
    let mine (a : Nat) : Bool := (List.range 32).any fun n => ownsRing p n && (s.ring n).inCommands a
    let other (a : Nat) : Bool := (List.range 32).any fun n => !ownsRing p n && (s.ring n).inCommands a
    if bs.all fun x => mine x.1 then
      s.modMem fun m => { m with ring := bs.foldl (fun t x => Tbl.set byte0 t x.1 x.2) m.ring }
    else s.forbid p (if isHost p ∧ bs.any fun x => other x.1 then 4 else 1) (0x100000 + o) (BitVec.ofNat 32 (leNat data))
/-- Messages that waited for their vector to be unmasked are sent (R436). -/
def State.sendPending (s : State) : State :=
  (List.range 32).foldl (fun s v =>
    if s.host.pba.getLsbD v ∧ !s.host.masked v then
      (s.modHost fun h => { h with pba := h.pba &&& ~~~ ((1 : Word) <<< v) }).emit (.msix v)
    else s) s
/-- A write of one or two words to the MSI-X table. -/
def State.writeMsix (s : State) (o : Nat) (data : Bytes) : State :=
  (s.modHost fun h => { h with
    msixTable := (List.range (data.length / 4)).foldl (fun t k =>
      Tbl.set msixDefault t (o / 4 + k) (BitVec.ofNat 32 (leAt data (4 * k) 4))) h.msixTable }).sendPending
/-! ## Shared SRAM by fabric address (R377 to R379) -/

/-- How an access reaches a word of Shared SRAM: at its own address, through its set alias, through its clear alias. -/
inductive SramPort where | plain | set | clear
  deriving DecidableEq, Repr
/-- The word of Shared SRAM that a fabric address names (R379). -/
def sramAt (a : Nat) : Option (SramPort × Nat) :=
  let at_ (base : Nat) (p : SramPort) : Option (SramPort × Nat) :=
    if base ≤ a ∧ a < base + 0x800000 then some (p, (a - base) / 8) else none
  (at_ 0x40000000 .plain).or ((at_ 0x41000000 .set).or (at_ 0x42000000 .clear))
/-- The bytes of a write in its 64-bit word: the bits that its byte mask selects, and their data (R378). -/
def wordBytes (off : Nat) (be : Byte) (data : Bytes) : Quad × Quad :=
  (enabledBytes (off % 8) be data).foldl (fun (m, d) (k, b) =>
    if k < 8 then (m ||| ((0xFF : Quad) <<< (8 * k)), d ||| (b.setWidth 64 <<< (8 * k))) else (m, d)) (0, 0)
/-- One write of a word, as one read-modify-write: a plain write comes before the aliases of its bank cycle, and a bit that
a set and a clear both name ends at 0 (R378, R379). DESIGN CHOICE: a bank cycle is a TBU count (log entry 81). -/
def Mem.sramWrite (m : Mem) (now : Nat) (p : SramPort) (w : Nat) (mask d : Quad) : Mem :=
  let (sets, clears) := match m.bankCycle with
    | some (t, x, a, b) => if t = now ∧ x = w then (a, b) else (0, 0)
    | none => (0, 0)
  let old := Tbl.get (fun _ => 0) m.sram w
  let put (v a b : Quad) : Mem :=
    { m with sram := Tbl.set (fun _ => 0) m.sram w ((v ||| a) &&& ~~~ b), bankCycle := some (now, w, a, b) }
  match p with
  | .plain => put ((old &&& ~~~ mask) ||| (d &&& mask)) sets clears
  | .set => put old (sets ||| (d &&& mask)) clears
  | .clear => put old sets (clears ||| (d &&& mask))
/-- The parties that reach Shared SRAM by fabric address: the runtimes, and the Service Processor in its windows (R379). -/
def State.reachesSram (s : State) (p : Party) (access : Byte) (a : Nat) : Bool :=
  s.domOn 4 && s.partyUp p && (p == .runtime || (p == .service && s.windowAdmits access (BitVec.ofNat 64 a)))
/-- A write by fabric address. -/
def State.sramWrite (s : State) (p : Party) (off : Nat) (be : Byte) (data : Bytes) : State :=
  match sramAt off with
  | none => s
  | some (port, w) =>
    let (mask, d) := wordBytes off be data
    if s.reachesSram p 1 off then s.modMem fun m => m.sramWrite s.now port w mask d
    else if p = .service ∧ s.partyUp p then s.firewallRefused 1 (BitVec.ofNat 64 off) else s
/-- A read of a word by fabric address, through either alias too: the word, without a side effect (R379). -/
def State.sramRead (s : State) (p : Party) (off : Nat) : Option Quad :=
  if s.reachesSram p 0 off then (sramAt off).map fun x => Tbl.get (fun _ => 0) s.mem.sram x.2 else none
/-- REGISTER_WRITE (R431): a register takes an aligned write of 4 bytes with every byte enabled; any other is recorded. An
offset behind BAR0 is a fabric address of Shared SRAM (R379; log entry 81). -/
def effRegisterWrite (p : Party) (off : Nat) (be : Byte) (data : Bytes) (s : State) : State :=
  let v : Word := BitVec.ofNat 32 (leNat data)
  match barSpot off with
  | .reg o =>
    s.gate p o v fun s =>
      if s.lifeline ∧ 0x4C ≤ o then s
      else if data.length = 4 ∧ o % 4 = 0 ∧ be &&& 0x0F = 0x0F then s.writeReg p o v
      else s.refuseWrite p 2 o v
  | .ringMem o => s.gate p (0x100000 + o) v fun s => s.writeRingMem p o be data
  | .msix o =>
    if p = .pcie ∧ s.domOn 5 ∧ !s.lifeline ∧ o % 4 = 0 ∧ (data.length = 4 ∨ data.length = 8 ∧ o % 8 = 0) then s.writeMsix o data
    else s
  | .nothing => s.sramWrite p off be data
  | _ => s
/-- REGISTER_WRITE. -/
def execRegisterWrite (p : Party) (off : Nat) (be : Byte) (data : Bytes) (s : State) : Res :=
  .next (effRegisterWrite p off be data s)
/-- PCIE_LINK_RESET (R439): the endpoint alone; rings, handles and cyclic execution stay. -/
def effPcieLinkReset (s : State) : State :=
  if s.domOn 5 then s.modHost fun h => { h with msixTable := [], pba := 0 } else s
/-- PCIE_LINK_RESET. -/
def execPcieLinkReset (s : State) : Res := .next (effPcieLinkReset s)

/-! ## The legacy local bus (R440 to R443) -/

/-- The module answers a legacy access (R440); an LBASE of 0xFF disables the path (R446). -/
def State.legacyHit (s : State) (a : BitVec 24) : Bool :=
  s.domOn 5 && s.mfg.lbase != 0xFF && a.toNat / 65536 == s.mfg.lbase.toNat
/-- The location of a legacy address, under the page of this access (R442). -/
def State.legacyAt (s : State) (a : Nat) : Spot := legacySpot s.sys.lpage (a % 65536)
/-- The latches after any other access (R441). -/
def State.dropLatches (s : State) : State := s.modHost fun h => { h with readLatch := none, writeLatch := none }
/-- The register's read of a legacy location, with its capture (R432, R441). -/
def State.legacyRead (s : State) (x : Spot) : State :=
  match x with
  | .reg o => s.capture? .legacy o
  | _ => s
/-- LEGACY_LOW_HALF_READ (R441): the register's read; the whole register is latched. At the address of a high half it is
that half's read: from the latch when it directly follows its low half, afresh otherwise. -/
def effLegacyLowHalfRead (addr : BitVec 24) (s : State) : State :=
  if s.legacyHit addr ∧ addr.toNat % 4 = 0 then
    let x := s.legacyAt addr.toNat
    let s := s.legacyRead x
    s.modHost fun h => { h with readLatch := some (addr.toNat, s.spotRead .legacy x), writeLatch := none }
  else if s.legacyHit addr ∧ addr.toNat % 4 = 2 then
    if s.host.readLatch.any fun l => l.1 + 2 == addr.toNat then s.dropLatches
    else (s.legacyRead (s.legacyAt (addr.toNat - 2))).dropLatches
  else s
/-- LEGACY_LOW_HALF_READ. -/
def execLegacyLowHalfRead (addr : BitVec 24) (s : State) : Res := .next (effLegacyLowHalfRead addr s)
/-- A 16-bit write of the staging area, performed on an IN_SYNC standby as well (R443); it has no BAR0 offset to record when
LEGACY_WRITE is clear. -/
def State.writeStaging (s : State) (o : Nat) (v : BitVec 16) : State :=
  if s.lifeline then s
  else if !s.sys.legacyWrite then s.bump.refuseWrite .legacy 3 (Config.freeBits s.free 32).toNat (v.setWidth 32)
  else (s.modMem fun m => { m with staging := m.staging.store o (le 2 v) }).iff s.inSync (·.emit (.staging o v))
/-- A 16-bit write of a location that is no register (R441); windows that are read only ignore it. -/
def State.writeHalf (s : State) (x : Spot) (v : BitVec 16) : State :=
  match x with
  | .ringMem o => s.gate .legacy (0x100000 + o) (v.setWidth 32) fun s => s.writeRingMem .legacy o 3 (le 2 v)
  | .staging o => s.writeStaging o v
  | _ => s
/-- LEGACY_LOW_HALF_WRITE (R441): latched for a register; the windows take it at once. -/
def effLegacyLowHalfWrite (addr : BitVec 24) (v : BitVec 16) (s : State) : State :=
  if s.legacyHit addr ∧ addr.toNat % 4 = 0 then
    match s.legacyAt addr.toNat with
    | .reg _ => s.modHost fun h => { h with readLatch := none, writeLatch := some (addr, v) }
    | x => s.dropLatches.writeHalf x v
  else s
/-- LEGACY_LOW_HALF_WRITE. -/
def execLegacyLowHalfWrite (addr : BitVec 24) (v : BitVec 16) (s : State) : Res :=
  .next (effLegacyLowHalfWrite addr v s)
/-- The low half that a high-half write completes (R441). -/
def HostSide.lowFor (h : HostSide) (addr : BitVec 24) : BitVec 16 :=
  match h.writeLatch with
  | some (a, lo) => if a.toNat + 2 = addr.toNat then lo else 0
  | none => 0
/-- LEGACY_HIGH_HALF_WRITE (R441): one 32-bit write of both halves. -/
def effLegacyHighHalfWrite (addr : BitVec 24) (v : BitVec 16) (s : State) : State :=
  if s.legacyHit addr ∧ addr.toNat % 4 = 2 then
    match s.legacyAt (addr.toNat - 2) with
    | .reg o => s.dropLatches.busWrite .legacy o (v ++ s.host.lowFor addr)
    | _ => s.dropLatches.writeHalf (s.legacyAt addr.toNat) v
  else s
/-- LEGACY_HIGH_HALF_WRITE. -/
def execLegacyHighHalfWrite (addr : BitVec 24) (v : BitVec 16) (s : State) : Res :=
  .next (effLegacyHighHalfWrite addr v s)

end Sys2Proof.Machine
end

