-- ==== Sys2Proof/Machine/Recorder.lean ====
section
/-! DEFINITION. The commands of the event recorder (17_hayrick_event_recorder.md) and the firewall (R15). -/

namespace Sys2Proof.Machine

/-- EVENT_OFFER (R391 to R393); the source of code 0x1013 has set CROSS_OVF (R374). -/
def effEventOffer (source : Byte) (code : BitVec 16) (sev : BitVec 4) (data : Bytes) (badWrites : Nat) (s : State) : State :=
  if s.pwr.on then
    let s := if source = srcPower ∧ code = 0x1013 then s.modPwr fun p => { p with crossOvf := true } else s
    (s.offer source code sev data false badWrites).1
  else s
/-- EVENT_OFFER. -/
def execEventOffer (source : Byte) (code : BitVec 16) (sev : BitVec 4) (data : Bytes) (badWrites : Nat) (s : State) : Res :=
  .next (effEventOffer source code sev data badWrites s)

/-- The summary of a bucket (R394): no token, not counted as raised. -/
def State.summary (s : State) (b : Bucket) : State :=
  let saf := safetyEntry srcHyk b.code
  let e := s.entryOf srcHyk 0x9001 (sevFlags b.lastSev saf true false (s.sys.mode == .follow))
    (le 2 b.code ++ le 4 b.drops ++ le 6 b.firstDrop)
  s.modHyk fun h => h.put saf e
/-- TOKEN_REFILL (R393, R394): one token each 64 ms, at most 16; pending drops become a summary. -/
def effTokenRefill (code : BitVec 16) (s : State) : State :=
  match s.hyk.buckets.find? (·.code == code) with
  | none => s
  | some b =>
    if !s.pwr.on ∨ s.opMs < b.gainedAt + 64 then s else
    let s := s.modHyk fun h => { h with buckets := h.buckets.map fun x =>
      if x.code = code then { x with
        tokens := Nat.min 16 (x.tokens + 1), drops := 0, firstDrop := 0, gainedAt := x.gainedAt + 64 } else x }
    if b.drops = 0 then s else s.summary b
/-- TOKEN_REFILL. -/
def execTokenRefill (code : BitVec 16) (s : State) : Res := .next (effTokenRefill code s)

/-- OP_TIME_SAVE (R386): every second. -/
def effOpTimeSave (s : State) : State := if s.pwr.on && decide (s.hyk.opSaved + 1000 ≤ s.opMs) then s.modHyk fun h => { h with opSaved := s.opMs } else s
/-- OP_TIME_SAVE. -/
def execOpTimeSave (s : State) : Res := .next (effOpTimeSave s)

/-- Sequence `a` is newer than `b`: the steps from `b` to `a` along the series lie between 1 and 2³¹ (R386). -/
def newerSeq (a b : Word) : Bool :=
  let d := ((a.toNat : Int) - b.toNat) % 4294967295
  decide (1 ≤ d ∧ d ≤ 2147483648)
/-- What a reader of a slot learns (R396). -/
inductive ReadStep where | nothing | again | damaged | accepted | lapped
  deriving DecidableEq, Repr
/-- One slot as R396 reads it: the last accepted sequence, SEQUENCE before and after the 28 bytes, whether CHECK fits. -/
def readSlot (q seq1 seq2 : Word) (checkOk : Bool) : ReadStep :=
  if seq1 = 0 ∨ !newerSeq seq1 q then .nothing
  else if seq2 ≠ seq1 then .again
  else if !checkOk then .damaged
  else if seq1 = nextSeq q then .accepted else .lapped

/-- FIREWALL_REFUSAL (R15, R397): an access that no granted window admits is recorded and not performed; a refused read
returns all ones to the Service Processor. -/
def effFirewallRefusal (access : Byte) (addr : Quad) (s : State) : State :=
  if s.domOn 3 && !s.windowAdmits access addr then s.firewallRefused access addr else s
/-- FIREWALL_REFUSAL. -/
def execFirewallRefusal (access : Byte) (addr : Quad) (s : State) : Res := .next (effFirewallRefusal access addr s)

end Sys2Proof.Machine
end

