-- ==== Sys2Proof/Machine/Triad.lean ====
section
/-! DEFINITION. The commands of the Safety Triad (06_safety_triad.md, R255). -/

namespace Sys2Proof.Machine

/-- EGRESS_EVENT (R148): the copies of the lanes in vote are judged; the agreed tuple is released; an odd lane leaves the
vote; without agreement the module enters HALT. `none` is a copy not presented in time (R147). -/
def effEgressEvent (c0 c1 c2 : Option EgressCopy) (s : State) : State :=
  if !s.voting || s.prog.safety.isNone then s else
  let j := s.judge c0 c1 c2
  let s := s.modTri fun t => { t with
    lane0 := t.lane0.present c0, lane1 := t.lane1.present c1, lane2 := t.lane2.present c2 }
  let s := match j.release with
    | some c => s.release c
    | none => s
  match j.odd with
  | some l => s.mismatch l j.kind
  | none => s
/-- EGRESS_EVENT. -/
def execEgressEvent (c0 c1 c2 : Option EgressCopy) (s : State) : Res := .next (effEgressEvent c0 c1 c2 s)
/-- LATE_LANE (R147). -/
def effLateLane (l : Fin 3) (s : State) : State := s.mismatch (some l) 4
/-- LATE_LANE. -/
def execLateLane (l : Fin 3) (s : State) : Res := .next (effLateLane l s)
/-- LANE_EXCEPTION (R142). -/
def effLaneException (l : Fin 3) (s : State) : State := s.mismatch (some l) 6
/-- LANE_EXCEPTION. -/
def execLaneException (l : Fin 3) (s : State) : Res := .next (effLaneException l s)
/-- SCRUB_PASS (R153): a pass of 256 safety cycles or base ticks ends; a difference is a mismatch of its lane, two lanes
call for HALT (R167). -/
def effScrubPass (differs : BitVec 3) (s : State) : State :=
  if !s.domOn 1 || decide (s.tri.scrub < 256) then s else
  ([0, 1, 2].filter fun l => differs.getLsbD l).foldl (fun s l => s.mismatch (some l) 8)
    (s.modTri fun t => { t with scrub := 0 })
/-- SCRUB_PASS. -/
def execScrubPass (differs : BitVec 3) (s : State) : Res := .next (effScrubPass differs s)
/-- TCM_ECC_ERROR (R153): corrected and counted, or a fault of the lane. -/
def effTcmEccError (l : Fin 3) (uncorrectable : Bool) (s : State) : State :=
  if uncorrectable then s.mismatch (some l) 5
  else if s.domOn 1 then s.modLane l fun x => { x with corrected := satInc x.corrected } else s
/-- TCM_ECC_ERROR. -/
def execTcmEccError (l : Fin 3) (uncorrectable : Bool) (s : State) : Res := .next (effTcmEccError l uncorrectable s)

/-- A lane out of the vote takes the next step of its sequence. -/
def State.laneIn (s : State) (l : Nat) (st : LaneState) : Bool := s.domOn 1 && (s.tri.lane l).state == st
/-- PARTIAL_SELF_TEST_COMPLETE (R160, R161): after 8 ms, RESYNC unless the test failed or two transient readmissions lie
in the last 24 operating hours. -/
def effPartialSelfTestComplete (l : Fin 3) (passed : Bool) (s : State) : State :=
  if s.laneIn l .selfTest && decide ((s.tri.lane l).since + 8 * countsMs ≤ s.now) then
    if passed ∧ (withinHours 24 s.opMs (s.tri.lane l).transients).length < 2 then
      (s.modLane l fun x => { x with since := s.now }).laneState l .resync
    else s.exclude l
  else s
/-- PARTIAL_SELF_TEST_COMPLETE. -/
def execPartialSelfTestComplete (l : Fin 3) (passed : Bool) (s : State) : Res := .next (effPartialSelfTestComplete l passed s)
/-- A lane's memories as a copy of the source lane leaves them (R162). -/
def Lane.copyFrom (x src : Lane) : Lane := { x with tcm := src.tcm, region := src.region, destroyed := false }
/-- Copying 2 MiB at 4 bytes per ns, in TBU counts (R162). -/
def copyCounts : Nat := 262144
/-- BACKGROUND_COPY_COMPLETE (R162): the source lane's memories as the copy met them, 0.524 ms after it began. -/
def effBackgroundCopyComplete (l : Fin 3) (s : State) : State :=
  if s.laneIn l .resync && !(s.tri.lane l).copied && decide ((s.tri.lane l).since + copyCounts ≤ s.now) then
    s.modLane l fun x => { x.copyFrom s.tri.source with copied := true }
  else s
/-- BACKGROUND_COPY_COMPLETE. -/
def execBackgroundCopyComplete (l : Fin 3) (s : State) : Res := .next (effBackgroundCopyComplete l s)
/-- The gap of a final pass: task 0 has published and not latched again, or does not latch (R162). -/
def State.inGap (s : State) : Bool := !(s.sys.mode == .run && (s.task 0).present && (s.task 0).running)
/-- FINAL_PASS (R162): in its gap the tracked lines are copied; where the residue fits and the digest agrees the lane is to
be readmitted, or the pass is tried again in the next gap. -/
def effFinalPass (l : Fin 3) (fits digestOk : Bool) (s : State) : State :=
  if s.laneIn l .resync && (s.tri.lane l).copied && s.inGap && fits && digestOk then
    s.modLane l fun x => { x.copyFrom s.tri.source with ready := true }
  else s
/-- FINAL_PASS. -/
def execFinalPass (l : Fin 3) (fits digestOk : Bool) (s : State) : Res := .next (effFinalPass l fits digestOk s)
/-- RESYNC_TIMEOUT (R160): 40 ms without a readmission. -/
def effResyncTimeout (l : Fin 3) (s : State) : State :=
  if s.laneIn l .resync && decide ((s.tri.lane l).since + 40 * countsMs ≤ s.now) then s.exclude l else s
/-- RESYNC_TIMEOUT. -/
def execResyncTimeout (l : Fin 3) (s : State) : Res := .next (effResyncTimeout l s)

/-- TEST_WINDOW (R168, R170, R178), whether or not the triad votes: a safety body without its publish request is an overrun
of task 0; an injection that goes wrong is a voter fault, or a checker fault of the pair; otherwise the pass counts. -/
def effTestWindow (voterBad : Option VoterFaultKind) (checkerBad : Bool) (s : State) : State :=
  if !s.domOn 1 then s
  else if s.inBody0 then s.overrun 0
  else if voterBad.isSome then s.voterFault
  else
    let s := s.modTri fun t => { t with passes := t.passes + 1 }
    if checkerBad then s.pairMismatch .checker 0 else s
/-- TEST_WINDOW. -/
def execTestWindow (voterBad : Option VoterFaultKind) (checkerBad : Bool) (s : State) : Res :=
  .next (effTestWindow voterBad checkerBad s)
/-- VOTER_FAULT (R169), of every kind. -/
def effVoterFault (_k : VoterFaultKind) (s : State) : State := if s.domOn 1 then s.voterFault else s
/-- VOTER_FAULT. -/
def execVoterFault (k : VoterFaultKind) (s : State) : Res := .next (effVoterFault k s)

/-- REPAIR_TIMER_MILESTONE (R255): half, then nine tenths of the time. -/
def effRepairTimerMilestone (s : State) : State :=
  match s.tri.repairEnd with
  | none => s
  | some e =>
    let passed := s.tri.repairSpan - (e - s.opMs)
    if !s.pwr.on then s
    else if s.tri.repairStage = 0 ∧ s.tri.repairSpan ≤ 2 * passed then
      (s.modTri fun t => { t with repairStage := 1 }).repairRecord 2
    else if s.tri.repairStage = 1 ∧ 9 * s.tri.repairSpan ≤ 10 * passed then
      (s.modTri fun t => { t with repairStage := 2 }).repairRecord 3
    else s
/-- REPAIR_TIMER_MILESTONE. -/
def execRepairTimerMilestone (s : State) : Res := .next (effRepairTimerMilestone s)
/-- REPAIR_TIMER_EXPIRY (R255). -/
def effRepairTimerExpiry (s : State) : State :=
  match s.tri.repairEnd with
  | none => s
  | some e => if s.pwr.on && s.sys.mode != .halt && decide (e ≤ s.opMs) then (s.repairRecord 4).fault 0x09 else s
/-- REPAIR_TIMER_EXPIRY. -/
def execRepairTimerExpiry (s : State) : Res := .next (effRepairTimerExpiry s)
/-- TRANSIENT_READMISSION_EXPIRY (R160): what lies 24 operating hours back drops out. -/
def effTransientReadmissionExpiry (l : Fin 3) (s : State) : State :=
  if s.pwr.on then s.modLane l fun x => { x with transients := withinHours 24 s.opMs x.transients } else s
/-- TRANSIENT_READMISSION_EXPIRY. -/
def execTransientReadmissionExpiry (l : Fin 3) (s : State) : Res := .next (effTransientReadmissionExpiry l s)
/-- EXCLUSION_EXPIRY (R160, R184): what lies 1,000 operating hours back drops out; the pair has lanes 0 and 1. -/
def effExclusionExpiry (triad : Bool) (lane : Fin 3) (s : State) : State :=
  if !s.pwr.on then s
  else if triad then s.modLane lane fun x => { x with exclusions := withinHours 1000 s.opMs x.exclusions }
  else if lane.val < 2 then s.modExclusions lane (withinHours 1000 s.opMs) else s
/-- EXCLUSION_EXPIRY. -/
def execExclusionExpiry (triad : Bool) (lane : Fin 3) (s : State) : Res := .next (effExclusionExpiry triad lane s)

end Sys2Proof.Machine
end

