-- ==== Sys2Proof/Machine/Dispatch.lean ====
section
/-! DEFINITION. One arm per command: its meaning. -/

namespace Sys2Proof.Machine

/-- The effect of a command on everything but the queue. -/
def exec (i : Instr) (s : State) : Host.Outcome State Fault Refusal :=
  match i with
  | .powerUp l1 l2 slotPos lbase coreMv temp => Sys2Proof.Machine.execPowerUp l1 l2 slotPos lbase coreMv temp s
  | .reserveReady => Sys2Proof.Machine.execReserveReady s
  | .holdupReady => Sys2Proof.Machine.execHoldupReady s
  | .feedLoss f v => Sys2Proof.Machine.execFeedLoss f v s
  | .feedRestored f v => Sys2Proof.Machine.execFeedRestored f v s
  | .onHoldup v => Sys2Proof.Machine.execOnHoldup v s
  | .supplyReturn v => Sys2Proof.Machine.execSupplyReturn v s
  | .powerFailSequence v => Sys2Proof.Machine.execPowerFailSequence v s
  | .temperatureWarning t => Sys2Proof.Machine.execTemperatureWarning t s
  | .overtemperature t => Sys2Proof.Machine.execOvertemperature t s
  | .rootPllLoss => Sys2Proof.Machine.execRootPllLoss s
  | .referenceOscillatorLoss => Sys2Proof.Machine.execReferenceOscillatorLoss s
  | .crossingReset n => Sys2Proof.Machine.execCrossingReset n s
  | .sramScrub sram pd0 => Sys2Proof.Machine.execSramScrub sram pd0 s
  | .memoryUncorrectable mem addr => Sys2Proof.Machine.execMemoryUncorrectable mem addr s
  | .supervisorSelfCheckFail => Sys2Proof.Machine.execSupervisorSelfCheckFail s
  | .coldStart w => Sys2Proof.Machine.execColdStart w s
  | .warmStart w => Sys2Proof.Machine.execWarmStart w s
  | .startIntoFollow w => Sys2Proof.Machine.execStartIntoFollow w s
  | .startStepLimit => Sys2Proof.Machine.execStartStepLimit s
  | .failCountExpiry cold => Sys2Proof.Machine.execFailCountExpiry cold s
  | .doorbellWrite p n v => Sys2Proof.Machine.execDoorbellWrite p n v s
  | .cplConsWrite p n v => Sys2Proof.Machine.execCplConsWrite p n v s
  | .takeEntry journalOk outOk => Sys2Proof.Machine.execTakeEntry journalOk outOk s
  | .partnerNoAck => Sys2Proof.Machine.execPartnerNoAck s
  | .irqTimerExpiry n => Sys2Proof.Machine.execIrqTimerExpiry n s
  | .nop h => Sys2Proof.Machine.execNop h s
  | .statusGet h => Sys2Proof.Machine.execStatusGet h s
  | .handleQuery h => Sys2Proof.Machine.execHandleQuery h s
  | .modeRun h b => Sys2Proof.Machine.execModeRun h b s
  | .modeStop h => Sys2Proof.Machine.execModeStop h s
  | .serviceEnter h => Sys2Proof.Machine.execServiceEnter h s
  | .serviceLeave h => Sys2Proof.Machine.execServiceLeave h s
  | .startWarm src => Sys2Proof.Machine.execStartWarm src s
  | .startCold src => Sys2Proof.Machine.execStartCold src s
  | .shutdown h o => Sys2Proof.Machine.execShutdown h o s
  | .shutdownDrainLimit => Sys2Proof.Machine.execShutdownDrainLimit s
  | .roleSwap h => Sys2Proof.Machine.execRoleSwap h s
  | .swapBoundary => Sys2Proof.Machine.execSwapBoundary s
  | .containerLoad h b outOk lanesAgree => Sys2Proof.Machine.execContainerLoad h b outOk lanesAgree s
  | .onlineChange h b => Sys2Proof.Machine.execOnlineChange h b s
  | .preCopyPass residueKib => Sys2Proof.Machine.execPreCopyPass residueKib s
  | .drain => Sys2Proof.Machine.execDrain s
  | .switchWindow partnerAck outOk => Sys2Proof.Machine.execSwitchWindow partnerAck outOk s
  | .forceSet h => Sys2Proof.Machine.execForceSet h s
  | .forceClear h => Sys2Proof.Machine.execForceClear h s
  | .forceList h outOk => Sys2Proof.Machine.execForceList h outOk s
  | .persistentReset h => Sys2Proof.Machine.execPersistentReset h s
  | .configLoad h b => Sys2Proof.Machine.execConfigLoad h b s
  | .safetyParamChange h b => Sys2Proof.Machine.execSafetyParamChange h b s
  | .passwordLockoutEnd => Sys2Proof.Machine.execPasswordLockoutEnd s
  | .safetyAck h => Sys2Proof.Machine.execSafetyAck h s
  | .updateManifest h b => Sys2Proof.Machine.execUpdateManifest h b s
  | .updateBlock h b readBackOk => Sys2Proof.Machine.execUpdateBlock h b readBackOk s
  | .updateArm h => Sys2Proof.Machine.execUpdateArm h s
  | .updateCancel h => Sys2Proof.Machine.execUpdateCancel h s
  | .checkPoint beacon => Sys2Proof.Machine.execCheckPoint beacon s
  | .activationBoundary => Sys2Proof.Machine.execActivationBoundary s
  | .fuseRule => Sys2Proof.Machine.execFuseRule s
  | .identityGet h outOk => Sys2Proof.Machine.execIdentityGet h outOk s
  | .attest h outOk => Sys2Proof.Machine.execAttest h outOk s
  | .debugToken h b => Sys2Proof.Machine.execDebugToken h b s
  | .debugExpiry => Sys2Proof.Machine.execDebugExpiry s
  | .bistRun h o => Sys2Proof.Machine.execBistRun h o s
  | .bistConditionCheck mv pll temp => Sys2Proof.Machine.execBistConditionCheck mv pll temp s
  | .bistDue => Sys2Proof.Machine.execBistDue s
  | .plantJumpAccept h => Sys2Proof.Machine.execPlantJumpAccept h s
  | .stileTransfer h b => Sys2Proof.Machine.execStileTransfer h b s
  | .stileLogAck h => Sys2Proof.Machine.execStileLogAck h s
  | .v1Nop h => Sys2Proof.Machine.execV1Nop h s
  | .statusV1 h => Sys2Proof.Machine.execStatusV1 h s
  | .goV1 h b => Sys2Proof.Machine.execGoV1 h b s
  | .holdV1 h => Sys2Proof.Machine.execHoldV1 h s
  | .restartV1 h => Sys2Proof.Machine.execRestartV1 h s
  | .initV1 h => Sys2Proof.Machine.execInitV1 h s
  | .progLoad h b outOk => Sys2Proof.Machine.execProgLoad h b outOk s
  | .forceAddr h => Sys2Proof.Machine.execForceAddr h s
  | .unforceAddr h => Sys2Proof.Machine.execUnforceAddr h s
  | .remoteXfer h b => Sys2Proof.Machine.execRemoteXfer h b s
  | .cycleInfo c => Sys2Proof.Machine.execCycleInfo c s
  | .timeGet c scale => Sys2Proof.Machine.execTimeGet c scale s
  | .tbuRead c => Sys2Proof.Machine.execTbuRead c s
  | .cmdSubmit c ring entry => Sys2Proof.Machine.execCmdSubmit c ring entry s
  | .cplNext c ring => Sys2Proof.Machine.execCplNext c ring s
  | .errEvents c limit => Sys2Proof.Machine.execErrEvents c limit s
  | .commitInfo c => Sys2Proof.Machine.execCommitInfo c s
  | .forceInfo c var elem => Sys2Proof.Machine.execForceInfo c var elem s
  | .eventLog c code data => Sys2Proof.Machine.execEventLog c code data s
  | .changeInfo c => Sys2Proof.Machine.execChangeInfo c s
  | .faultRaise c reaction data => Sys2Proof.Machine.execFaultRaise c reaction data s
  | .baseTick => Sys2Proof.Machine.execBaseTick s
  | .latchPoint t => Sys2Proof.Machine.execLatchPoint t s
  | .publishPoint t b => Sys2Proof.Machine.execPublishPoint t b s
  | .retentiveCommit => Sys2Proof.Machine.execRetentiveCommit s
  | .commitMade => Sys2Proof.Machine.execCommitMade s
  | .initTaskTimeout => Sys2Proof.Machine.execInitTaskTimeout s
  | .channelTick => Sys2Proof.Machine.execChannelTick s
  | .networkCycleStart n => Sys2Proof.Machine.execNetworkCycleStart n s
  | .sampleInstant ch x => Sys2Proof.Machine.execSampleInstant ch x s
  | .commandFrame ch f => Sys2Proof.Machine.execCommandFrame ch f s
  | .uplinkFrame ch f => Sys2Proof.Machine.execUplinkFrame ch f s
  | .uplinkDeadline => Sys2Proof.Machine.execUplinkDeadline s
  | .couplerLost ch => Sys2Proof.Machine.execCouplerLost ch s
  | .couplerRecovered ch => Sys2Proof.Machine.execCouplerRecovered ch s
  | .cellSupplyLoss ch => Sys2Proof.Machine.execCellSupplyLoss ch s
  | .cellRestarted ch => Sys2Proof.Machine.execCellRestarted ch s
  | .counterEdge ch rising short => Sys2Proof.Machine.execCounterEdge ch rising short s
  | .discrepancy p => Sys2Proof.Machine.execDiscrepancy p s
  | .inputStageTest ch passed => Sys2Proof.Machine.execInputStageTest ch passed s
  | .cellFault ch => Sys2Proof.Machine.execCellFault ch s
  | .testDue ch => Sys2Proof.Machine.execTestDue ch s
  | .testPhaseEnd ch x => Sys2Proof.Machine.execTestPhaseEnd ch x s
  | .overload ch => Sys2Proof.Machine.execOverload ch s
  | .thermalLimit ch => Sys2Proof.Machine.execThermalLimit ch s
  | .overloadReclose ch => Sys2Proof.Machine.execOverloadReclose ch s
  | .supplyLow g => Sys2Proof.Machine.execSupplyLow g s
  | .cellUndervoltageTrip ch => Sys2Proof.Machine.execCellUndervoltageTrip ch s
  | .groupUndervoltageTrip g => Sys2Proof.Machine.execGroupUndervoltageTrip g s
  | .supplyRecovery g => Sys2Proof.Machine.execSupplyRecovery g s
  | .holdTimeExpired ch => Sys2Proof.Machine.execHoldTimeExpired ch s
  | .egressEvent c0 c1 c2 => Sys2Proof.Machine.execEgressEvent c0 c1 c2 s
  | .lateLane l => Sys2Proof.Machine.execLateLane l s
  | .laneException l => Sys2Proof.Machine.execLaneException l s
  | .scrubPass differs => Sys2Proof.Machine.execScrubPass differs s
  | .partialSelfTestComplete l passed => Sys2Proof.Machine.execPartialSelfTestComplete l passed s
  | .backgroundCopyComplete l => Sys2Proof.Machine.execBackgroundCopyComplete l s
  | .finalPass l fits digestOk => Sys2Proof.Machine.execFinalPass l fits digestOk s
  | .resyncTimeout l => Sys2Proof.Machine.execResyncTimeout l s
  | .testWindow voterBad checkerBad => Sys2Proof.Machine.execTestWindow voterBad checkerBad s
  | .voterFault k => Sys2Proof.Machine.execVoterFault k s
  | .repairTimerMilestone => Sys2Proof.Machine.execRepairTimerMilestone s
  | .repairTimerExpiry => Sys2Proof.Machine.execRepairTimerExpiry s
  | .lockstepMismatch k logKib => Sys2Proof.Machine.execLockstepMismatch k logKib s
  | .cacheEccError e => Sys2Proof.Machine.execCacheEccError e s
  | .pairSelfTestComplete pass => Sys2Proof.Machine.execPairSelfTestComplete pass s
  | .checkpointRestore => Sys2Proof.Machine.execCheckpointRestore s
  | .programAccessRefused t access addr => Sys2Proof.Machine.execProgramAccessRefused t access addr s
  | .remoteWindowLoad t addr size => Sys2Proof.Machine.execRemoteWindowLoad t addr size s
  | .remoteWindowStore t addr data => Sys2Proof.Machine.execRemoteWindowStore t addr data s
  | .readTimeout x => Sys2Proof.Machine.execReadTimeout x s
  | .beaconFrame n port at_ f => Sys2Proof.Machine.execBeaconFrame n port at_ f s
  | .dataFrame n port at_ f => Sys2Proof.Machine.execDataFrame n port at_ f s
  | .coldstartFrame n port at_ f => Sys2Proof.Machine.execColdstartFrame n port at_ f s
  | .claimFrame n port at_ f => Sys2Proof.Machine.execClaimFrame n port at_ f s
  | .delayFrame n port at_ f => Sys2Proof.Machine.execDelayFrame n port at_ f s
  | .acyclicFrame n port at_ f => Sys2Proof.Machine.execAcyclicFrame n port at_ f s
  | .slotStart n slot devA devB => Sys2Proof.Machine.execSlotStart n slot devA devB s
  | .acceptanceWindowEnd n slot => Sys2Proof.Machine.execAcceptanceWindowEnd n slot s
  | .listenTimeout n => Sys2Proof.Machine.execListenTimeout n s
  | .coldstartWindowEnd n => Sys2Proof.Machine.execColdstartWindowEnd n s
  | .waitTimeout n => Sys2Proof.Machine.execWaitTimeout n s
  | .observeTimeout n => Sys2Proof.Machine.execObserveTimeout n s
  | .beaconLoss n => Sys2Proof.Machine.execBeaconLoss n s
  | .hubAssumesReference n => Sys2Proof.Machine.execHubAssumesReference n s
  | .guardianLimit n => Sys2Proof.Machine.execGuardianLimit n s
  | .ringSplit n c => Sys2Proof.Machine.execRingSplit n c s
  | .claimAbandoned n => Sys2Proof.Machine.execClaimAbandoned n s
  | .grantReleased n slot => Sys2Proof.Machine.execGrantReleased n slot s
  | .linkChange n port up master => Sys2Proof.Machine.execLinkChange n port up master s
  | .heartbeat lane m => Sys2Proof.Machine.execHeartbeat lane m s
  | .heartbeatSend => Sys2Proof.Machine.execHeartbeatSend s
  | .heartbeatLoss => Sys2Proof.Machine.execHeartbeatLoss s
  | .claimReleased => Sys2Proof.Machine.execClaimReleased s
  | .claimRecognised => Sys2Proof.Machine.execClaimRecognised s
  | .claimWatchdogExpiry => Sys2Proof.Machine.execClaimWatchdogExpiry s
  | .cycleMirror m => Sys2Proof.Machine.execCycleMirror m s
  | .mirrorAck t mseq => Sys2Proof.Machine.execMirrorAck t mseq s
  | .mirrorStretchLimit t => Sys2Proof.Machine.execMirrorStretchLimit t s
  | .pairLinkLaneLoss lane => Sys2Proof.Machine.execPairLinkLaneLoss lane s
  | .resyncPhaseComplete failedCheck => Sys2Proof.Machine.execResyncPhaseComplete failedCheck s
  | .catchUpTimeout passes residueKib => Sys2Proof.Machine.execCatchUpTimeout passes residueKib s
  | .exerciseDue => Sys2Proof.Machine.execExerciseDue s
  | .messageReceived port ident m => Sys2Proof.Machine.execMessageReceived port ident m s
  | .remoteAnswer n station a => Sys2Proof.Machine.execRemoteAnswer n station a s
  | .responseLimit n station x tag => Sys2Proof.Machine.execResponseLimit n station x tag s
  | .semaphoreAcquire p k x => Sys2Proof.Machine.execSemaphoreAcquire p k x s
  | .semaphoreRelease p k x => Sys2Proof.Machine.execSemaphoreRelease p k x s
  | .semaphoreHoldLimit k => Sys2Proof.Machine.execSemaphoreHoldLimit k s
  | .busOff port => Sys2Proof.Machine.execBusOff port s
  | .serviceWatchdogExpiry => Sys2Proof.Machine.execServiceWatchdogExpiry s
  | .ptpSample e delta => Sys2Proof.Machine.execPtpSample e delta s
  | .eventOffer source code sev data badWrites => Sys2Proof.Machine.execEventOffer source code sev data badWrites s
  | .tokenRefill code => Sys2Proof.Machine.execTokenRefill code s
  | .opTimeSave => Sys2Proof.Machine.execOpTimeSave s
  | .sysRestartWarm p v => Sys2Proof.Machine.execSysRestartWarm p v s
  | .sysRestartCold p v => Sys2Proof.Machine.execSysRestartCold p v s
  | .sysEventClear p v => Sys2Proof.Machine.execSysEventClear p v s
  | .sysEventMaskWrite p v => Sys2Proof.Machine.execSysEventMaskWrite p v s
  | .hostcfgLock p v => Sys2Proof.Machine.execHostcfgLock p v s
  | .pin p => Sys2Proof.Machine.execPin p s
  | .pinClear p => Sys2Proof.Machine.execPinClear p s
  | .slotCounterCapture p n slot => Sys2Proof.Machine.execSlotCounterCapture p n slot s
  | .tbuCapture p => Sys2Proof.Machine.execTbuCapture p s
  | .hayrickCapture p => Sys2Proof.Machine.execHayrickCapture p s
  | .legacyLowHalfRead addr => Sys2Proof.Machine.execLegacyLowHalfRead addr s
  | .legacyLowHalfWrite addr v => Sys2Proof.Machine.execLegacyLowHalfWrite addr v s
  | .legacyHighHalfWrite addr v => Sys2Proof.Machine.execLegacyHighHalfWrite addr v s
  | .registerWrite p off be data => Sys2Proof.Machine.execRegisterWrite p off be data s
  | .pcieLinkReset => Sys2Proof.Machine.execPcieLinkReset s
  | .usbRecoveryImage manifest blocks => Sys2Proof.Machine.execUsbRecoveryImage manifest blocks s
  | .pairLinkLaneRestored lane => Sys2Proof.Machine.execPairLinkLaneRestored lane s
  | .plantEthernetLinkChange port up => Sys2Proof.Machine.execPlantEthernetLinkChange port up s
  | .ptpMessage d answerTo => Sys2Proof.Machine.execPtpMessage d answerTo s
  | .messageTransmitted port => Sys2Proof.Machine.execMessageTransmitted port s
  | .busOffRecovery port => Sys2Proof.Machine.execBusOffRecovery port s
  | .junctionCooled l1 l2 slotPos lbase coreMv temp => Sys2Proof.Machine.execJunctionCooled l1 l2 slotPos lbase coreMv temp s
  | .dramPatrolScrub corrected uncorrectable => Sys2Proof.Machine.execDramPatrolScrub corrected uncorrectable s
  | .tcmEccError l uncorrectable => Sys2Proof.Machine.execTcmEccError l uncorrectable s
  | .firewallRefusal access addr => Sys2Proof.Machine.execFirewallRefusal access addr s
  | .mirroredItem it => Sys2Proof.Machine.execMirroredItem it s
  | .testAnnouncement ch followed => Sys2Proof.Machine.execTestAnnouncement ch followed s
  | .transientReadmissionExpiry l => Sys2Proof.Machine.execTransientReadmissionExpiry l s
  | .exclusionExpiry triad lane => Sys2Proof.Machine.execExclusionExpiry triad lane s

end Sys2Proof.Machine
end

