-- ==== Sys2Proof/Machine/Idle.lean ====
section
/-! DEFINITION. What passes while no command waits: time, and the work of the module that no command of the table ends. -/

namespace Sys2Proof.Machine

/-- Work under way ends (log entry 37): the init tasks of a MODE_RUN (R91), a shutdown without outstanding commands (R53
step 4), an on-demand run of the self-test (R424), step 9 of a start whose networks have integrated (R42), the error
tasks of open cycles (R92), a safety parameter change whose 50 ms have passed (R247). -/
def State.background (s : State) : State := s.initEnded.shutdownDrained.bistEnded.joined.errorsEnd.changeDone
/-- Time passes while nothing waits: one count of the TBU, 2 ns, while the module has power (R348; log entry 12). -/
def State.idle (s : State) : State :=
  if s.pwr.on then (s.modTbu fun t => { t with count := t.count + 1 }).background else s

end Sys2Proof.Machine
end

