-- ==== Sys2Proof/Machine/Step.lean ====
section
/-! DEFINITION. One step: the command at the front of the queue, or the passing of time. -/

namespace Sys2Proof.Machine

/-- Take the command at the front of the queue and run it on the state with the queue's rest; on an empty queue time
passes. -/
def step (s : State) : Res :=
  match s.pending with
  | [] => .next s.idle
  | c :: rest => exec c (s.modPending fun _ => rest)

/-- The state with the command that a word spells at the front of its queue. -/
def State.withFetchWord (s : State) (nbits w : Nat) : State :=
  match decodeTableWord nbits w with
  | none => s
  | some c => s.modPending fun q => c :: q

end Sys2Proof.Machine
end

