-- ==== Sys2Proof/Safety.lean ====
section
/-! DEFINITION. The terms the statements use: outcomes, a command that may begin, its answer, what else stays. -/

namespace Sys2Proof.Machine

/-- An outcome that goes on. -/
def Goes (r : Res) : Prop := ∃ t, r = .next t

/-- The journal holds an accepted command of this opcode under the handle, nothing holds it back (R39, R71), and the mode
is in its Modes column (R69, R80). -/
def State.begins (s : State) (h : Quad) (op : BitVec 16) (v1 : Bool) (e : JEntry) : Prop :=
  s.entry h = some e ∧ e.opcode = op ∧ e.v1 = v1 ∧ e.phase = .accepted ∧ s.mayBegin e = true ∧
    ((cmdInfo op).map fun c => c.inMode s.sys.mode) = some true

/-- The commit of the command is journalled with this status and RESULT (R32). -/
def State.answered (t : State) (h : Quad) (st : BitVec 16) (result : Bytes) : Prop :=
  ∃ e, t.entry h = some e ∧ e.committed = true ∧ e.status = st ∧ e.result = padTo 48 result

/-- Ring memory and ring pairs between `s` and `t`: completion records are written in ring pair `n` (R57, R59), or wait for
a free slot of it (R63), and nothing else: every other ring pair, and every byte outside that pair's completion ring, as
before. -/
structure State.recordsOnly (s t : State) (n : Nat) : Prop where
  others : ∀ k, k ≠ n → t.ring k = s.ring k
  pair : t.ring n = { s.ring n with
    cplProd := (t.ring n).cplProd, undelivered := (t.ring n).undelivered, backlog := (t.ring n).backlog }
  bytes : ∀ a, a < (s.ring n).cplOff 0 ∨ (s.ring n).cplOff 0 + (s.ring n).depth * 64 ≤ a →
    Tbl.get byte0 t.mem.ring a = Tbl.get byte0 s.mem.ring a

/-- A command of ring pair `n` is answered: its commit, its records, no handle gained or lost. -/
def State.answers (s t : State) (h : Quad) (n : Nat) (st : BitVec 16) (result : Bytes) : Prop :=
  t.answered h st result ∧ s.recordsOnly t n ∧ t.journal.map (·.handle) = s.journal.map (·.handle)

/-- What TAKE_ENTRY looks at: entries of cycles that never published passed over (R88), ring pairs without room marked (R66). -/
def State.taking (s : State) : State := s.passVoids.markHeld
/-- TAKE_ENTRY takes the head of ring pair `n`: entries are accepted (R39, R50), the ring pair is the first in the order
of R68 with an entry and room (R66), and no record of it waits for a slot. -/
structure State.serves (s : State) (n : Nat) : Prop where
  up : s.mailboxUp = true ∧ s.accepting = true
  next : (s.taking.serveOrder.find? fun k => s.taking.waiting k && s.taking.room k) = some n
  slots : (s.ring n).backlog = []

/-- `s` with what an answer to a command writes as it stands in `t`: journal, ring pairs, ring memory, the interrupts
that go with a record. -/
def State.withAnswer (s t : State) : State :=
  { s with journal := t.journal, rings := t.rings, mem := { s.mem with ring := t.mem.ring }
           host := { s.host with pba := t.host.pba }, sent := t.sent }

/-- The force table is `fs` after a command of ring pair `n` that sets or clears forces (R105, R106): outside RUN the
command is answered OK with the number of forces; in RUN it is so answered, or executes and waits for points of tasks. -/
structure State.forcesTo (s t : State) (h : Quad) (n : Nat) (fs : List Force) : Prop where
  table : t.prog.forces = fs
  stopped : s.sys.mode ≠ .run → s.answers t h n stOk (leBytes 4 fs.length) ∧ t.prog.forceJob = none
  running : s.sys.mode = .run → (s.answers t h n stOk (leBytes 4 fs.length) ∧ t.prog.forceJob = none) ∨
    (t.journal = (s.executing h).journal ∧ ∃ l, l ≠ [] ∧ t.prog.forceJob = some (h, l))
  rest : t = { s.withAnswer t with prog := { s.prog with forces := fs, forceJob := t.prog.forceJob }, swd := t.swd }

/-- One event is accepted by the recorder between `s` and `t` (R385, R391 to R393): counted as raised, and either dropped
and counted, nothing written, or written to the slot that was next in its partition, every other slot as before. -/
def State.logged (s t : State) (src : Byte) (code : BitVec 16) (sev : BitVec 4) (data : Bytes) : Prop :=
  let saf := safetyEntry src code
  t.hyk.raised = s.hyk.raised + 1 ∧
    ((t.hyk.dropped = s.hyk.dropped + 1 ∧ limitedCode code = true ∧ t.hyk.written = s.hyk.written ∧
        t.hyk.general = s.hyk.general ∧ t.hyk.safety = s.hyk.safety ∧ t.hyk.genNext = s.hyk.genNext ∧
        t.hyk.safNext = s.hyk.safNext) ∨
      (t.hyk.dropped = s.hyk.dropped ∧ t.hyk.written = s.hyk.written + 1 ∧
        ∃ e : HykEntry, e.source = src ∧ e.code = code ∧ e.sevFlags.setWidth 4 = sev ∧ e.data = padTo 12 data ∧
          e.seq = nextSeq (if saf then s.hyk.safSeq else s.hyk.genSeq) ∧
          t.hyk.safety =
            (if saf then Tbl.set (fun _ => none) s.hyk.safety s.hyk.safNext.toNat (some e) else s.hyk.safety) ∧
          t.hyk.general =
            (if saf then s.hyk.general else Tbl.set (fun _ => none) s.hyk.general s.hyk.genNext.toNat (some e)) ∧
          t.hyk.safNext.toNat = (if saf then (s.hyk.safNext.toNat + 1) % 4096 else s.hyk.safNext.toNat) ∧
          t.hyk.genNext.toNat = (if saf then s.hyk.genNext.toNat else (s.hyk.genNext.toNat + 1) % 28672)))

/-- `s` with bit `k` of SYS_EVENT set, and what vector 9 may send with it as it stands in `t` (R437). -/
def State.signalling (s t : State) (k : Nat) : State :=
  { s with sys := { s.sys with event := s.sys.event ||| (1 <<< k) }, host := { s.host with pba := t.host.pba }
           sent := t.sent }

/-- `t` is `s` after entry into HALT (R50, R368, R389): SYS_MODE, the entry in the safety partition, the claim released
and the fault reported, nothing transmitted, the last command frames sent, PD0 alone or with PD5 ON, SYS_EVENT.MODE; the
parts not named are as they were. -/
structure State.halted (s t : State) (cause : Byte) (latch : Bool) : Prop where
  mode : t.sys.mode = .halt ∧ t.sys.substate = 0 ∧ t.sys.haltCause = cause ∧
    t.sys.haltLatched = (s.sys.haltLatched || latch) ∧ t.sys.start = none ∧ t.sys.event.getLsbD 0 = true
  entry : ∃ e : HykEntry, Tbl.get (fun _ => none) t.hyk.safety s.hyk.safNext.toNat = some e ∧
    e.code = 0x1F00 + cause.setWidth 16 ∧ e.data = padTo 12 ([cause] ++ le 4 s.sys.modeWord ++ le 4 s.sys.baseTick)
  claim : t.dpx.ownClaim = false ∧ t.dpx.role = 0 ∧ t.dpx.standby = 0 ∧ t.dpx.faultReport = true
  outputs : s.domOn 7 = true → t.fld.silent = true ∧ t.fld.safetyOff = true
  work : t.prog.olc = none ∧ t.prog.due = [] ∧ t.prog.writing = none ∧ t.bst.running = 0
  rest : t = { s with
    pwr := { s.pwr with domains := domainWord (if s.pwr.onHoldup then [0] else [0, 5]) }
    hl1 := { s.hl1 with up := false }, hl2 := { s.hl2 with up := false }, host := { s.host with pba := t.host.pba }
    sent := t.sent, hyk := t.hyk, sys := t.sys, prog := t.prog, journal := t.journal, tasks := t.tasks, fld := t.fld
    dpx := t.dpx, upd := t.upd, bst := t.bst }

/-- `t` is `s` after entry into START for a requested kind (R39, R42, R43, R74, R367): SYS_MODE and the start in progress,
the claim released, every ring pair emptied and enabled, every domain ON, what MRAM and flash hold kept. -/
structure State.starts (s t : State) (k : StartKind) : Prop where
  mode : t.sys.mode = .start ∧ t.sys.substate = 1
  start : ∃ r, t.sys.start = some r ∧ r.requested = k ∧ r.entered = s.now ∧
    r.performed = (if k = .warm ∧ s.coldCause true [] ≠ 0 then .cold else k)
  claim : t.dpx.ownClaim = false ∧ t.dpx.role = 0 ∧ t.dpx.standby = 0
  emptied : t.mem.ring = [] ∧ ∀ n, n < 32 → (t.ring n).enabled = true ∧ (t.ring n).gen = (s.ring n).gen + 1 ∧
    (t.ring n).cmdProd = 0 ∧ (t.ring n).cmdCons = 0 ∧ (t.ring n).cplProd = 0 ∧ (t.ring n).cplCons = 0
  domains : t.pwr.domains = domainWord [0, 1, 2, 3, 4, 5, 6, 7]
  kept : t.journal.map (·.handle) = s.journal.map (·.handle) ∧ t.sys.epoch = s.sys.epoch ∧ t.prog.flash = s.prog.flash ∧
    t.prog.bank0 = s.prog.bank0 ∧ t.prog.bank1 = s.prog.bank1 ∧ t.mfg = s.mfg ∧ t.saf.items = s.saf.items ∧
    t.cfg.stored = s.cfg.stored

/-- `t` is `s` after power-up (R361, R367, R43, R51): the power cycle is counted, slot position `p` and legacy base `b`
are taken, MRAM and flash are kept; HALT again when it is latched, else START of the kind that item 0x0101 selects. -/
structure State.comesUp (s t : State) (p : Bool) (b : Byte) : Prop where
  power : t.pwr.on = true ∧ t.pwr.hotOff = false ∧ t.hyk.powerCycles = s.hyk.powerCycles + 1 ∧ t.hyk.lastOff = 0
  sensed : t.mfg = { s.mfg with slotPos := p, lbase := b }
  kept : t.sys.epoch = s.sys.epoch ∧ t.journal.map (·.handle) = s.journal.map (·.handle) ∧ t.prog.flash = s.prog.flash ∧
    t.prog.bank0 = s.prog.bank0 ∧ t.prog.bank1 = s.prog.bank1 ∧ t.upd.slotA = s.upd.slotA ∧ t.upd.slotB = s.upd.slotB
  latched : s.sys.haltLatched = true → t.sys.mode = .halt ∧ t.sys.haltCause = 1 ∧ t.pwr.domains = domainWord [0, 5]
  start : s.sys.haltLatched = false → t.sys.mode = .start ∧ t.pwr.domains = domainWord [0, 1, 2, 3, 4, 5, 6, 7] ∧
    t.sys.start.map (·.requested) = some (if s.param 0x0101 0 = 1 then .cold else .warm)

/-- `t` is `s` after the standby has taken the active role (R306, R307, R310, R340): claim and role epoch, the partner's
mode, the semaphores free. -/
structure State.takesRole (s t : State) : Prop where
  claim : t.dpx.ownClaim = true ∧ t.dpx.epoch = s.dpx.epoch + 1 ∧ t.dpx.takeHub1 = true ∧ t.dpx.takeHub2 = true
  mode : t.sys.mode = (if s.dpx.partnerRun then .run else .stop) ∧ t.sys.event.getLsbD 0 = true
  stile : t.stl.sems = []
  kept : t.mfg = s.mfg ∧ t.pwr = s.pwr ∧ t.sys.epoch = s.sys.epoch ∧ t.prog.bank0 = s.prog.bank0 ∧
    t.prog.bank1 = s.prog.bank1

/-- The cause of a latch class of a channel is gone (R201, R212, R234): 16 valid frames, 4,096 ticks without a failed input
test, no group trip, valid command frames at the cell in the tick; the other classes clear by an off-test only. -/
def State.causeGone (s : State) (c k : Nat) : Bool :=
  match k with
  | 0 => decide (16 ≤ (s.chan c).goodRun)
  | 1 => decide (4096 ≤ (s.chan c).passTicks)
  | 6 => !(s.group (groupOf c)).uvLatch
  | 7 => s.fieldUp && s.fld.ticks != 0 && (s.cell c).powered && decide (s.fld.lastTick ≤ (s.cell c).lastValid)
  | _ => false

/-- The task's latch point falls now and nothing keeps the task from latching: RUN, present, its last body published and mirrored, no stop,
hold, recovery or takeover under way (R49, R86, R89, R107, R183, R304, R310). -/
structure State.latching (s : State) (t : Nat) : Prop where
  mode : s.sys.mode = .run ∧ s.pwr.on = true
  clear : s.dpx.decidedAt = none ∧ s.sys.stopJob = none ∧ s.cpr.recovery = 0
  task : (s.task t).present = true ∧ (s.task t).stopped = false ∧ (s.task t).held = false ∧ (s.task t).running = false ∧
    (s.task t).unacked = none ∧ (s.task t).mirrorWait = false
  due : (s.task t).due = some s.now

/-- Hayrick in order: both partitions in canonical form, the general partition's next slot inside it (R383), every event
accounted for (R391 to R393). -/
def Hyk.sound (h : Hyk) : Prop :=
  Tbl.wf (fun _ => none) h.general = true ∧ Tbl.wf (fun _ => none) h.safety = true ∧ h.genNext.toNat < 28672 ∧
    h.raised = h.written + h.dropped

/-- Ring memory, staging area, Shared SRAM and their copy are in canonical form. -/
def Mem.sound (m : Mem) : Prop :=
  Tbl.wf byte0 m.ring = true ∧ Tbl.wf byte0 m.staging = true ∧ Tbl.wf (fun _ => 0) m.sram = true ∧
    ∀ r w, m.saved = some (r, w) → Tbl.wf byte0 r = true ∧ Tbl.wf (fun _ => 0) w = true

/-- The memories, ring pairs, tasks, channels, cells, pairs, groups and Hayrick are in their canonical
form: equal contents are equal data. -/
structure State.sound (s : State) : Prop where
  mem : s.mem.sound
  rings : Tbl.wf Ring.reset s.rings = true
  tasks : Tbl.wf (fun _ => Task.reset) s.tasks = true
  chans : Tbl.wf (fun _ => Channel.reset) s.fld.chans = true
  cells : Tbl.wf (fun _ => Cell.reset) s.fld.cells = true
  pairs : Tbl.wf (fun _ => DualPair.reset) s.fld.pairs = true
  groups : Tbl.wf (fun _ => Group.reset) s.fld.groups = true
  hyk : s.hyk.sound

/-- What every command keeps from `s` to `t`: the queue; what manufacture fixed; fuses only ever blow (R400, R406); a
sound state stays sound. -/
structure Keeps (s t : State) : Prop where
  queue : t.pending = s.pending
  variant : t.mfg.variant = s.mfg.variant
  serial : t.mfg.serial = s.mfg.serial
  fused : s.mfg.fused.toNat ≤ t.mfg.fused.toNat
  revoked : s.mfg.revoked &&& t.mfg.revoked = s.mfg.revoked
  sound : s.sound → t.sound

end Sys2Proof.Machine
end

