-- ==== Sys2Proof/Certificates/Slice0/Obligations.lean ====
section
/-! DEFINITION. The statements about the block. -/

open Sys2Proof Sys2Proof.Machine

/-- For every command c and every state with c at the front of its queue, step is exec of c on the state with the
queue's rest, and every command leaves the queue as it is given to it. (95_what_each_step_holds.md) -/
def Obligations.StepTakesTheFront : Prop :=
  (∀ (s : State) (c : Instr) (rest : List Instr), s.pending = c :: rest → step s = exec c { s with pending := rest }) ∧
  (∀ (s : State) (c : Instr), ∃ t, exec c s = .next t ∧ t.pending = s.pending)

/-- A step on an empty queue advances the TBU counter by one count of 2 ns (R348) while logic power is present, and
changes nothing at all without power; with no start, init task run, shutdown, self-test, error task or safety
parameter change in progress the count is all that changes. That a step on an empty queue is one count is the model's
choice (log entries 12 and 37). (R348, R361) -/
def Obligations.TimePassesOnAnEmptyQueue : Prop :=
  (∀ s : State, s.pending = [] → s.pwr.on = false → step s = .next s) ∧
  (∀ s : State, s.pending = [] → s.pwr.on = true → ∃ t, step s = .next t ∧ t.tbu.count = s.tbu.count + 1 ∧ t.pending = []) ∧
  (∀ s : State, s.pending = [] → s.pwr.on = true → s.sys.initRun = none → s.sys.shutJob = none → s.bst.job = none →
    s.sys.start = none → s.saf.applying = none → (∀ n, n ≤ 16 → (s.task n).errRuns = false) →
    step s = .next { s with tbu := { s.tbu with count := s.tbu.count + 1 } })

/-- State.reset: SYS_MODE reads START with nothing latched, every SYS_EVENT bit is clear and masked, the three
permissions of SYS_HOSTCFG stand and LOCK is clear, PWR_DOMAIN shows PD0 alone, every ring pair is disabled with base
0, depth code 8 and threshold 1, the TBU counter is 0, the role is alone without claim, nothing is stored in ring
memory. Fields of MRAM, fuses and manufacture are the model's choice (log entry 2) and not part of this statement. The
state is sound: every table canonical, every event accounted for. (R36, R37, R57, R348, R367, R437) -/
def Obligations.ResetIsSoundAndShowsTheResetColumns : Prop :=
  State.reset.sys.mode = .start ∧ State.reset.sys.substate = 0 ∧ State.reset.sys.startKind = 0 ∧ State.reset.sys.coldSubstituted = false ∧
  State.reset.sys.event = 0 ∧ State.reset.sys.eventMask = 0xFF ∧ State.reset.sys.lock = false ∧
  State.reset.sys.progSem = true ∧ State.reset.sys.progW1c = true ∧ State.reset.sys.legacyWrite = true ∧
  State.reset.sys.lpage = 0 ∧ State.reset.pwr.on = false ∧ State.reset.pwr.domains = 1 ∧ State.reset.tbu.count = 0 ∧
  (∀ n, n < 32 → (State.reset.ring n).enabled = false ∧ (State.reset.ring n).base = 0 ∧ (State.reset.ring n).depthLog2 = 8 ∧
    (State.reset.ring n).thresh = 1 ∧ (State.reset.ring n).cmdProd = 0 ∧ (State.reset.ring n).cplProd = 0) ∧
  State.reset.dpx.role = 0 ∧ State.reset.dpx.standby = 0 ∧ State.reset.dpx.ownClaim = false ∧
  State.reset.mem.ring = [] ∧ State.reset.pending = [] ∧ State.reset.sound

/-- For every one of the 213 commands, with every operand, and for every state, exec answers a next state in which the
queue is untouched, variant and serial number stay as manufactured, the fused security version does not fall, no
revocation fuse is cleared, and a sound state stays sound. So does every step: from a sound state it goes on to a
sound state, in which every table is canonical, the next slot of the general partition is below 28,672 and HYK_RAISED
is HYK_WRITTEN plus HYK_DROPPED. (R4, R383, R391, R393, R400, R406) -/
def Obligations.EveryStepGoesOnAndKeepsSoundness : Prop :=
  (∀ (c : Instr) (s : State), ∃ t, exec c s = .next t ∧ Keeps s t) ∧
  (∀ s : State, s.sound → ∃ t, step s = .next t ∧ t.sound ∧ s.mfg.fused.toNat ≤ t.mfg.fused.toNat ∧
    s.mfg.revoked &&& t.mfg.revoked = s.mfg.revoked ∧ t.hyk.raised = t.hyk.written + t.hyk.dropped)

/-- FEED_LOSS of a feed that was OK and now stands below 19.2 V clears its OK, counts the loss, logs 0x1010 and sets
SYS_EVENT bit 2; FEED_RESTORED sets OK again and logs once the feed has stood at or above 19.2 V for 100 ms;
RESERVE_READY sets its bit. Nothing else changes. (R361, R360, R437) -/
def Obligations.FeedsAreWatched : Prop :=
  (∀ (s : State) (f : Feed) (v : Byte), s.pwr.on = true → s.pwr.feedOk f = true → v.toNat < volt19_2 →
    ∃ t, exec (.feedLoss f v) s = .next t ∧ s.logged t srcPower 0x1010 3 [feedCode f, 0, v] ∧
      t = { s.signalling t 2 with
        pwr := { s.pwr.setFeed f v false with
          feedDrops := satInc s.pwr.feedDrops, below1 := if f = .l1 then s.now else s.pwr.below1
          below2 := if f = .l2 then s.now else s.pwr.below2 }
        hyk := t.hyk }) ∧
  (∀ (s : State) (f : Feed) (v : Byte), s.pwr.on = true → s.pwr.feedOk f = false → volt19_2 ≤ v.toNat →
    s.pwr.below f + 100 * countsMs ≤ s.now →
    ∃ t, exec (.feedRestored f v) s = .next t ∧ s.logged t srcPower 0x1010 3 [feedCode f, 1, v] ∧
      t = { s.signalling t 2 with pwr := s.pwr.setFeed f v true, hyk := t.hyk }) ∧
  (∀ s : State, s.pwr.on = true →
    exec .reserveReady s = .next { s with pwr := { s.pwr with reserveReady := true } })

/-- HOLDUP_READY gives a ride-through of at least 20 ms. ON_HOLDUP below 18.5 V counts a ride-through and caps both
feed voltages; before RESERVE_READY it is a loss of power with the claim released. SUPPLY_RETURN clears ON_HOLDUP
alone; in HALT PD5 follows the hold-up. (R361, R362, R368) -/
def Obligations.HoldUpTakesOver : Prop :=
  (∀ s : State, s.pwr.on = true → s.pwr.reserveReady = true →
    ∃ (n : BitVec 16) (t : State), exec .holdupReady s = .next t ∧ 2000 ≤ n.toNat ∧
      t = { s with pwr := { s.pwr with holdupReady := true, reserveUs := n }, free := t.free }) ∧
  (∀ (s : State) (v : Byte), s.pwr.on = true → s.pwr.onHoldup = false → s.pwr.reserveReady = true → v.toNat < volt18_5 →
    ∃ (n : BitVec 16) (t : State), exec (.onHoldup v) s = .next t ∧ (s.pwr.holdupReady = true → 2000 ≤ n.toNat) ∧
      t = { s with free := t.free, pwr := { s.pwr with
        onHoldup := true, holdupAt := s.now, rideThroughs := satInc s.pwr.rideThroughs, l1v := capAt v s.pwr.l1v, l2v := capAt v s.pwr.l2v
        reserveUs := n, domains := if s.sys.mode = .halt then domainWord [0] else s.pwr.domains } }) ∧
  (∀ (s : State) (v : Byte), s.pwr.on = true → s.pwr.onHoldup = false → s.pwr.reserveReady = false → v.toNat < volt18_5 →
    ∃ t, exec (.onHoldup v) s = .next t ∧
      t = { s with pwr := { s.pwr with on := false, domains := 0 }
                   dpx := { s.dpx with ownClaim := false, droveAt := t.dpx.droveAt } }) ∧
  (∀ (s : State) (v : Byte), s.pwr.on = true → s.pwr.onHoldup = true → volt19_2 ≤ v.toNat →
    exec (.supplyReturn v) s = .next { s with pwr := { s.pwr with
      onHoldup := false, domains := if s.sys.mode = .halt then domainWord [0, 5] else s.pwr.domains } })

/-- POWER_FAIL_SEQUENCE, not within the 20 ms that a ready hold-up lasts, and OVERTEMPERATURE (which also keeps the
module off until it has cooled) run the same sequence: fault reported and claim released, commits not begun or
finished, an armed activation cleared, entry 0x1011 with cause, voltage and temperature, OP_TIME saved, power and
domains off. TEMPERATURE_WARNING measures and logs 0x1012. (R363, R366, R457, R411) -/
def Obligations.PowerEnds : Prop :=
  (∀ (s : State) (v : Byte), s.pwr.on = true → s.pwr.onHoldup = true → s.pwr.reserveReady = true →
    s.pwr.holdupReady = false ∨ s.pwr.holdupAt + 20 * countsMs ≤ s.now →
    ∃ t, exec (.powerFailSequence v) s = .next t ∧ t.hyk.lastOff = 2 ∧ t.hyk.opSaved = s.opMs ∧
      (s.upd.armed = none → s.logged t srcPower 0x1011 5 ([1, v] ++ le 2 s.pwr.temp)) ∧
      t = { s with
        pwr := { s.pwr with on := false, domains := 0 }, hyk := t.hyk, prog := { s.prog with due := [], writing := none }
        dpx := { s.dpx with faultReport := true, ownClaim := false, droveAt := t.dpx.droveAt }
        upd := { s.upd with armed := none, ready := t.upd.ready } }) ∧
  (∀ (s : State) (x : BitVec 16), s.pwr.on = true → 125 * 16 < x.toInt →
    ∃ t, exec (.overtemperature x) s = .next t ∧ t.hyk.lastOff = 2 ∧ t.hyk.opSaved = s.opMs ∧
      (s.upd.armed = none → s.logged t srcPower 0x1011 5 ([2, s.pwr.combined] ++ le 2 x)) ∧
      t = { s with
        pwr := { s.pwr.measure x with on := false, domains := 0, hotOff := true }, hyk := t.hyk
        prog := { s.prog with due := [], writing := none }
        dpx := { s.dpx with faultReport := true, ownClaim := false, droveAt := t.dpx.droveAt }
        upd := { s.upd with armed := none, ready := t.upd.ready } }) ∧
  (∀ (s : State) (x : BitVec 16), s.pwr.on = true → 115 * 16 < x.toInt →
    ∃ t, exec (.temperatureWarning x) s = .next t ∧
      s.logged t srcPower 0x1012 3 (le 2 x ++ le 2 (if s.pwr.tempMax.toInt < x.toInt then x else s.pwr.tempMax)) ∧
      t = { s with pwr := s.pwr.measure x, hyk := t.hyk })

/-- POWER_UP with the higher feed at or above 19.2 V, and JUNCTION_COOLED below 100 °C after overtemperature,
complete: power is on, the power cycle is counted, slot position and legacy base are taken, and epoch, journal
handles, flash, commit banks and firmware slots are kept. A latched HALT returns to HALT with cause 0x01 and PD0 and
PD5 ON; otherwise START begins with every domain ON, of the kind that parameter 0x0101 selects. (R361, R51, R43, R367,
R457) -/
def Obligations.PowerUpStarts : Prop :=
  (∀ (s : State) (l1 l2 : Byte) (p : Bool) (b : Byte) (mv : BitVec 12) (x : BitVec 16), s.pwr.on = false →
    s.pwr.hotOff = false → volt19_2 ≤ Nat.max l1.toNat l2.toNat →
    ∃ t, exec (.powerUp l1 l2 p b mv x) s = .next t ∧ s.comesUp t p b) ∧
  (∀ (s : State) (l1 l2 : Byte) (p : Bool) (b : Byte) (mv : BitVec 12) (x : BitVec 16), s.pwr.on = false →
    s.pwr.hotOff = true → x.toInt < 1600 → volt19_2 ≤ Nat.max l1.toNat l2.toNat →
    ∃ t, exec (.junctionCooled l1 l2 p b mv x) s = .next t ∧ s.comesUp t p b)

/-- ROOT_PLL_LOSS, REFERENCE_OSCILLATOR_LOSS (cause 0x0B) and MEMORY_UNCORRECTABLE (cause 0x0A) log their event and
enter HALT when the module is in a mode other than START and HALT; SUPERVISOR_SELF_CHECK_FAIL enters HALT with cause
0x0C. CROSSING_RESET counts a flush; SRAM_SCRUB, once a second, adds the corrections of its pass to SRAM, while PD4 is
ON, and to PD0; both stay at the greatest value. (R372, R375, R380, R389, R50, R38) -/
def Obligations.MemoryFaultsHalt : Prop :=
  (∀ s : State, s.pwr.on = true → s.sys.mode ≠ .halt → s.sys.mode ≠ .start →
    ∃ u t, exec .rootPllLoss s = .next t ∧ s.logged u srcPower 0x1015 5 [1] ∧
      State.halted { s with pwr := { s.pwr with pllLocked := false, onBackup := true }, hyk := u.hyk } t 0x0B false) ∧
  (∀ s : State, s.pwr.on = true → s.sys.mode ≠ .halt → s.sys.mode ≠ .start →
    ∃ u t, exec .referenceOscillatorLoss s = .next t ∧ s.logged u srcPower 0x1015 5 [2] ∧
      State.halted { s with pwr := { s.pwr with refLost := true }, hyk := u.hyk } t 0x0B false) ∧
  (∀ (s : State) (m : Byte) (a : Word), s.pwr.on = true → s.sys.mode ≠ .halt → s.sys.mode ≠ .start →
    ∃ u t, exec (.memoryUncorrectable m a) s = .next t ∧ s.logged u srcPower 0x1014 5 ([m, 0, 0, 0] ++ le 4 a) ∧
      State.halted { s with hyk := u.hyk } t 0x0A false) ∧
  (∀ s : State, s.pwr.on = true → s.sys.mode ≠ .halt →
    ∃ t, exec .supervisorSelfCheckFail s = .next t ∧ s.halted t 0x0C false) ∧
  (∀ (s : State) (n : Byte), s.pwr.on = true →
    exec (.crossingReset n) s = .next { s with pwr := { s.pwr with flushes := satInc s.pwr.flushes } }) ∧
  (∀ (s : State) (a b : Nat), s.pwr.on = true → s.pwr.scrubbedAt + 1000 * countsMs ≤ s.now →
    exec (.sramScrub a b) s = .next { s with pwr := { s.pwr with
      scrubbedAt := s.now
      sramCorrected := if s.pwr.dom 4 = 1 then satAdd s.pwr.sramCorrected a else s.pwr.sramCorrected
      pd0Corrected := satAdd s.pwr.pd0Corrected b } })

/-- MODE_RUN (and GO on a version 1 ring pair) that no check refuses, that no armed activation precedes and with no
cold-init task to run enters RUN at once; without a task it is answered OK with the TBU count, otherwise its commit
waits for the first latch point. With cold-init tasks the tasks run first. A failed check answers REFUSED with its
detail code; the buffer rule (0x51) sets REFUSED_CFG as well. (R38, R41, R86, R91, R82, R78, R40, R139) -/
def Obligations.ModeRunEntersRun : Prop :=
  (∀ (s : State) (h : Quad) (v : Bool) (b : Body) (e : JEntry), s.begins h 0x2010 v e → s.activationDue = none → s.runRefusal = none →
    s.prog.coldInits = [] → s.present = [] →
    ∃ t, exec (if v then .goV1 h b else .modeRun h b) s = .next t ∧ s.answers t h e.ring stOk (leBytes 8 s.now) ∧
      t.sys.mode = .run ∧ t.sys.substate = 0 ∧ t.sys.event.getLsbD 0 = true ∧
      t = { s.withAnswer t with
        sys := t.sys, hyk := t.hyk, upd := t.upd, prog := t.prog, tasks := t.tasks, tri := t.tri }) ∧
  (∀ (s : State) (h : Quad) (v : Bool) (b : Body) (e : JEntry), s.begins h 0x2010 v e → s.activationDue = none → s.runRefusal = none →
    s.prog.coldInits = [] → s.present ≠ [] →
    ∃ t, exec (if v then .goV1 h b else .modeRun h b) s = .next t ∧ t.sys.mode = .run ∧ t.sys.substate = 0 ∧
      t.sys.runWait = some h ∧ t.journal = (s.executing h).journal ∧
      (∀ n ∈ s.present, (t.task n).state = 1 ∧ (t.task n).latched = false) ∧
      t = { s with journal := t.journal, sys := t.sys, hyk := t.hyk, upd := t.upd, prog := t.prog, tasks := t.tasks
                   tri := t.tri, host := { s.host with pba := t.host.pba }, sent := t.sent }) ∧
  (∀ (s : State) (h : Quad) (v : Bool) (b : Body) (e : JEntry), s.begins h 0x2010 v e → s.activationDue = none → s.runRefusal = none →
    s.prog.coldInits ≠ [] →
    exec (if v then .goV1 h b else .modeRun h b) s =
      .next { s.executing h with
        sys := { s.sys with initRun := some ⟨h, b, s.now, (Config.freeBits s.free 32).toNat⟩ }, free := s.free + 1 }) ∧
  (∀ (s : State) (h : Quad) (v : Bool) (b : Body) (e : JEntry) (d : Nat), s.begins h 0x2010 v e → s.activationDue = none → s.runRefusal = some d →
    ∃ t, exec (if v then .goV1 h b else .modeRun h b) s = .next t ∧ s.answers t h e.ring stRefused (leBytes 4 d) ∧
      t = { s.withAnswer t with swd := { s.swd with refusedCfg := s.swd.refusedCfg || d == 0x51 } })

/-- MODE_STOP (and HOLD) marks the stop and waits for each task to publish its stop values; with no task the module is
in STOP at once, every task record abandoned, and the command is answered OK with the TBU count. (R49, R82, R38) -/
def Obligations.ModeStopStops : Prop :=
  (∀ (s : State) (h : Quad) (v : Bool) (e : JEntry), s.begins h 0x2011 v e → s.activationDue = none → s.present ≠ [] →
    exec (if v then .holdV1 h else .modeStop h) s =
      .next { s.executing h with sys := { s.sys with stopJob := some ⟨h, false⟩ } }) ∧
  (∀ (s : State) (h : Quad) (v : Bool) (e : JEntry), s.begins h 0x2011 v e → s.activationDue = none → s.present = [] →
    s.prog.forceJob = none → s.saf.applying = none →
    ∃ t, exec (if v then .holdV1 h else .modeStop h) s = .next t ∧ s.answers t h e.ring stOk (leBytes 8 s.now) ∧
      t.sys.mode = .stop ∧ t.sys.substate = 0 ∧ t.sys.stopJob = none ∧ t.sys.runWait = none ∧
      (∀ n, n ≤ 16 → (t.task n).running = false) ∧
      t = { s.withAnswer t with
        sys := t.sys, hyk := t.hyk, upd := t.upd, prog := t.prog, tasks := t.tasks, swd := t.swd, tri := t.tri })

/-- SERVICE_ENTER enters SERVICE with the purpose as SUBSTATE and answers with it; SERVICE_LEAVE goes back to STOP
unless LOCKSTEP_BROKEN (WRONG_MODE) or a failed self-test (REFUSED 0xB2) stands against it. Each transition logs
0x1001. (R38, R41, R417, R425, R390) -/
def Obligations.ServiceOpensAndCloses : Prop :=
  (∀ (s : State) (h : Quad) (e : JEntry), s.begins h 0x2012 false e → s.activationDue = none →
    ∃ t, exec (.serviceEnter h) s = .next t ∧ s.answers t h e.ring stOk [byteAt e.args 0] ∧
      s.logged t srcSup 0x1001 2 (le 1 (modeCode s.sys.mode) ++ le 1 (modeCode .service)
        ++ le 1 ((byteAt e.args 0).setWidth 4 : BitVec 4) ++ leBytes 1 0 ++ le 4 s.sys.baseTick) ∧
      t = { s.withAnswer t with
        hyk := t.hyk, upd := { s.upd with fuseMs := t.upd.fuseMs, fuseSince := t.upd.fuseSince }
        sys := { s.sys with mode := .service, substate := (byteAt e.args 0).setWidth 4, event := s.sys.event ||| 1 } }) ∧
  (∀ (s : State) (h : Quad) (e : JEntry), s.begins h 0x2013 false e → s.sys.lockstepBroken = false → s.bst.failed = false →
    ∃ t, exec (.serviceLeave h) s = .next t ∧ s.answers t h e.ring stOk [] ∧
      s.logged t srcSup 0x1001 2 (le 1 (modeCode s.sys.mode) ++ le 1 (modeCode .stop) ++ le 1 (0 : BitVec 4)
        ++ leBytes 1 0 ++ le 4 s.sys.baseTick) ∧
      t = { s.withAnswer t with
        hyk := t.hyk, tri := { s.tri with debug := false }
        upd := { s.upd with scope := 0, fuseMs := t.upd.fuseMs, fuseSince := t.upd.fuseSince }
        sys := { s.sys with mode := .stop, substate := 0, event := s.sys.event ||| 1 } }) ∧
  (∀ (s : State) (h : Quad) (e : JEntry), s.begins h 0x2013 false e → s.sys.lockstepBroken = true →
    ∃ t, exec (.serviceLeave h) s = .next t ∧ s.answers t h e.ring stWrongMode [] ∧ t = s.withAnswer t) ∧
  (∀ (s : State) (h : Quad) (e : JEntry), s.begins h 0x2013 false e → s.sys.lockstepBroken = false → s.bst.failed = true →
    ∃ t, exec (.serviceLeave h) s = .next t ∧ s.answers t h e.ring stRefused (leBytes 4 0xB2) ∧ t = s.withAnswer t)

/-- START_WARM, START_COLD, RESTART, INIT and the service USB port begin a start: START, the requested kind, performed
as cold when a condition of R43 asks for it, claim released, ring pairs emptied and enabled, domains ON, MRAM and
flash contents kept; a ring command is committed OK before the start. A cold start through USB clears a latched HALT;
out of the HALT for want of firmware it needs a recovery image. (R43, R51, R55, R74, R75, R76, R82) -/
def Obligations.StartCommandsBeginAStart : Prop :=
  (∀ (s : State) (h : Quad) (v : Bool) (e : JEntry), s.begins h 0x2014 v e →
    ∃ t, exec (if v then .restartV1 h else .startWarm (.ring h)) s = .next t ∧ s.starts t .warm ∧
      (s.saf.applying = none → s.prog.forceJob = none → t.answered h stOk [])) ∧
  (∀ (s : State) (h : Quad) (v : Bool) (e : JEntry), s.begins h 0x2015 v e →
    ∃ t, exec (if v then .initV1 h else .startCold (.ring h)) s = .next t ∧ s.starts t .cold ∧
      (s.saf.applying = none → s.prog.forceJob = none → t.answered h stOk [])) ∧
  (∀ s : State, s.pwr.on = true → s.sys.mode ≠ .start → (s.sys.mode = .halt → s.sys.haltCause ≠ 2 ∧ s.sys.haltLatched = false) →
    s.upd.recovered = false → ∃ t, exec (.startWarm .usb) s = .next t ∧ s.starts t .warm) ∧
  (∀ s : State, s.pwr.on = true → s.sys.mode ≠ .start →
    (s.sys.mode = .halt → s.sys.haltCause = 2 → s.upd.recovered = true) →
    ∃ t, exec (.startCold .usb) s = .next t ∧ s.starts t .cold ∧ t.sys.haltLatched = false)

/-- A write of SYS_RESTART in HALT with KEY 0xA5 starts cold (bit 1, a latch cleared) or warm (bit 0, HALT not
latched) unless HALT came from missing firmware; with another key nothing changes; in every other mode it is recorded
as 0x1005 and has no effect. (R51, R52, R55) -/
def Obligations.RestartRegisterStarts : Prop :=
  (∀ (s : State) (v : Word), s.domOn 5 = true → s.sys.mode = .halt → s.sys.haltCause ≠ 2 →
    (v >>> 8).setWidth 8 = (0xA5 : Byte) → v.getLsbD 1 = true →
    ∃ t, exec (.sysRestartCold .pcie v) s = .next t ∧ s.starts t .cold ∧ t.sys.haltLatched = false) ∧
  (∀ (s : State) (v : Word), s.domOn 5 = true → s.sys.mode = .halt → s.sys.haltCause ≠ 2 →
    (v >>> 8).setWidth 8 = (0xA5 : Byte) → v.getLsbD 1 = false → v.getLsbD 0 = true → s.sys.haltLatched = false →
    ∃ t, exec (.sysRestartWarm .pcie v) s = .next t ∧ s.starts t .warm) ∧
  (∀ (s : State) (v : Word), s.domOn 5 = true → s.sys.mode = .halt → (v >>> 8).setWidth 8 ≠ (0xA5 : Byte) →
    exec (.sysRestartWarm .pcie v) s = .next s ∧ exec (.sysRestartCold .pcie v) s = .next s) ∧
  (∀ (s : State) (v : Word), s.domOn 5 = true → s.sys.mode ≠ .halt →
    ∃ t, exec (.sysRestartWarm .pcie v) s = .next t ∧ exec (.sysRestartCold .pcie v) s = .next t ∧
      s.logged t srcSup 0x1005 3 [(modeCode s.sys.mode).setWidth 8, v.setWidth 8, (v >>> 8).setWidth 8] ∧
      t = { s with hyk := t.hyk })

/-- COLD_START, WARM_START and START_INTO_FOLLOW: when steps 1 to 4 succeed and the partner drives, the module ends in
FOLLOW as a standby that is resynchronising. Otherwise, when steps 5 to 8 succeed, its own claim is asserted; with no
network configured the start is over in RUN where AUTORUN says so and in STOP where not, else step 9 is in progress,
and its end leaves START so. A cold start advances the epoch and clears LOCKSTEP_BROKEN, a warm one keeps both. (R42,
R43, R44, R48, R299, R303, R37) -/
def Obligations.StartsEndInAMode : Prop :=
  (∀ (s : State) (i : StartInputs) (r : StartReq) (u v : State), s.starting = some r → s.inNine = false → r.performed = .cold →
    (s.checkMram i).startFirst r i = .on u → u.dpx.partnerClaim = false → u.startSecond true i = .on v →
    ∃ t, exec (.coldStart i) s = .next t ∧ t.dpx.ownClaim = true ∧ t.sys.epoch = nextEpoch (s.checkMram i).sys.epoch ∧
      (v.hl1.configured = false → v.hl2.configured = false → t.sys.start = none ∧ t.sys.lockstepBroken = false ∧
        t.sys.mode = (if v.autorun r ((s.checkMram i).prog.lastCommit.any (·.inRun)) then .run else .stop)) ∧
      (v.hl1.configured = true ∨ v.hl2.configured = true → t.sys.mode = .start ∧ t.sys.substate = 9 ∧
        t.sys.start = some { r with wasRun := (s.checkMram i).prog.lastCommit.any (·.inRun) })) ∧
  (∀ (s : State) (i : StartInputs) (r : StartReq) (u v : State), s.starting = some r → s.inNine = false → r.performed = .warm →
    (s.checkMram i).startCause i = 0 → (s.checkMram i).startFirst r i = .on u → u.dpx.partnerClaim = false →
    u.startSecond false i = .on v →
    ∃ t, exec (.warmStart i) s = .next t ∧ t.dpx.ownClaim = true ∧ t.sys.epoch = (s.checkMram i).sys.epoch ∧
      (v.hl1.configured = false → v.hl2.configured = false → t.sys.start = none ∧
        t.sys.lockstepBroken = s.sys.lockstepBroken ∧
        t.sys.mode = (if v.autorun r ((s.checkMram i).prog.lastCommit.any (·.inRun)) then .run else .stop)) ∧
      (v.hl1.configured = true ∨ v.hl2.configured = true → t.sys.mode = .start ∧ t.sys.substate = 9 ∧
        t.sys.start = some { r with wasRun := (s.checkMram i).prog.lastCommit.any (·.inRun) })) ∧
  (∀ (s : State) (i : StartInputs) (r : StartReq), s.starting = some r → s.inNine = true → r.performed = .cold →
    ∃ t, exec (.coldStart i) s = .next t ∧ t.sys.start = none ∧ t.sys.lockstepBroken = false ∧
      t.sys.mode = (if s.autorun r r.wasRun then .run else .stop)) ∧
  (∀ (s : State) (i : StartInputs) (r : StartReq), s.starting = some r → s.inNine = true → r.performed = .warm →
    ∃ t, exec (.warmStart i) s = .next t ∧ t.sys.start = none ∧ t.sys.lockstepBroken = s.sys.lockstepBroken ∧
      t.sys.mode = (if s.autorun r r.wasRun then .run else .stop)) ∧
  (∀ (s : State) (i : StartInputs) (r : StartReq) (u : State), s.starting = some r → s.inNine = false →
    s.dpx.partnerClaim = true → (s.checkMram i).startFirst r i = .on u →
    ∃ t, exec (.startIntoFollow i) s = .next t ∧ t.sys.mode = .follow ∧ t.sys.start = none ∧ t.sys.startKind = 3 ∧
      t.dpx.role = 2 ∧ t.dpx.standby = 1 ∧ t.dpx.phase = 1 ∧ t.dpx.ownClaim = u.dpx.ownClaim)

/-- START_STEP_LIMIT after 20 s (warm) or 60 s (cold) before the end of step 8 counts the failure with its operating
time; the next start follows, but the third failed cold start within 10 min latches HALT with cause 0x01.
FAIL_COUNT_EXPIRY drops failures older than 10 min of operating time. (R45, R47) -/
def Obligations.StartLimits : Prop :=
  (∀ (s : State) (r : StartReq), s.starting = some r → s.inNine = false → r.performed = .cold → r.entered + 60000 * countsMs ≤ s.now →
    2 ≤ (recent s.opMs s.sys.coldFails).length →
    ∃ t, exec .startStepLimit s = .next t ∧ t.sys.mode = .halt ∧ t.sys.haltCause = 1 ∧ t.sys.haltLatched = true ∧
      t.sys.coldFails = recent s.opMs s.sys.coldFails ++ [s.opMs]) ∧
  (∀ (s : State) (r : StartReq), s.starting = some r → s.inNine = false → r.performed = .cold → r.entered + 60000 * countsMs ≤ s.now →
    (recent s.opMs s.sys.coldFails).length < 2 →
    ∃ t q, exec .startStepLimit s = .next t ∧ t.sys.mode = .start ∧ t.sys.start = some q ∧ q.requested = .cold ∧
      q.entered = s.now ∧ t.sys.coldFails = recent s.opMs s.sys.coldFails ++ [s.opMs]) ∧
  (∀ (s : State) (r : StartReq), s.starting = some r → s.inNine = false → r.performed = .warm → r.entered + 20000 * countsMs ≤ s.now →
    ∃ t q, exec .startStepLimit s = .next t ∧ t.sys.mode = .start ∧ t.sys.start = some q ∧ q.requested = .warm ∧
      q.entered = s.now ∧ t.sys.warmFails = recent s.opMs s.sys.warmFails ++ [s.opMs]) ∧
  (∀ (s : State), s.pwr.on = true →
    exec (.failCountExpiry true) s = .next { s with sys := { s.sys with coldFails := recent s.opMs s.sys.coldFails } } ∧
    exec (.failCountExpiry false) s = .next { s with sys := { s.sys with warmFails := recent s.opMs s.sys.warmFails } })

/-- SHUTDOWN in RUN with tasks stops them first; outside RUN it enters SERVICE 5 at once, a standby giving up its
role; with an IN_SYNC standby it answers WRONG_MODE. SHUTDOWN_DRAIN_LIMIT, 5 s after SERVICE was entered, ends it:
answered OK, networks silent, PD0 alone, SUBSTATE 6, clean off recorded. (R53, R367, R386) -/
def Obligations.ShutdownGoesOff : Prop :=
  (∀ (s : State) (h : Quad) (o : BistOutcome) (e : JEntry), s.begins h 0x2016 false e → s.activationDue = none → s.inSync = false →
    s.sys.mode = .run → s.present ≠ [] →
    exec (.shutdown h o) s = .next { s.executing h with sys := { s.sys with
      shutJob := some ⟨h, o, s.now⟩, stopJob := some ⟨h, true⟩ } }) ∧
  (∀ (s : State) (h : Quad) (o : BistOutcome) (e : JEntry), s.begins h 0x2016 false e → s.activationDue = none → s.inSync = false →
    s.sys.mode ≠ .run →
    ∃ t, exec (.shutdown h o) s = .next t ∧ t.sys.mode = .service ∧ t.sys.substate = 5 ∧
      t.sys.shutJob = some ⟨h, o, s.now⟩ ∧ t.journal = (s.executing h).journal ∧
      (s.sys.mode = .follow → t.dpx.role = 0 ∧ t.dpx.standby = 0)) ∧
  (∀ (s : State) (h : Quad) (o : BistOutcome) (e : JEntry), s.begins h 0x2016 false e → s.activationDue = none → s.inSync = true →
    ∃ t, exec (.shutdown h o) s = .next t ∧ s.answers t h e.ring stWrongMode [] ∧ t = s.withAnswer t) ∧
  (∀ (s : State) (j : ShutJob) (e : JEntry), s.draining = some j → s.pwr.on = true → j.entered + 5000 * countsMs ≤ s.now →
    s.entry j.h = some e → e.committed = false →
    ∃ t r, exec .shutdownDrainLimit s = .next t ∧ t.answered j.h stOk r ∧ t.sys.substate = 6 ∧ t.sys.shutJob = none ∧
      t.pwr.domains = domainWord [0] ∧ t.hyk.lastOff = 1 ∧ t.hl1.up = false ∧ t.hl2.up = false)

/-- DOORBELL_WRITE by the owner of a ring pair while the mailboxes answer: a value from the present index up to the
consumer index plus the depth becomes CMD_PROD; any other is ignored and sets DOORBELL_ERR. A PCI Express write to a
ring pair of another owner is only recorded (0x2001, reason 4). Nothing else changes. (R58, R63, R64, R434) -/
def Obligations.DoorbellsCoverEntries : Prop :=
  (∀ (s : State) (p : Party) (n : Fin 32) (v : Word), s.mailboxUp = true → ownsRing p n = true →
    (p = .legacy → s.sys.legacyWrite = true) → (p = .service → s.upd.granted = true) →
    exec (.doorbellWrite p n v) s = .next { s with rings := Tbl.upd Ring.reset s.rings n fun r =>
      if (v - r.cmdCons).toNat ≤ r.depth ∧ (r.cmdProd - r.cmdCons).toNat ≤ (v - r.cmdCons).toNat then { r with cmdProd := v }
      else { r with doorbellErr := true } }) ∧
  (∀ (s : State) (n : Fin 32) (v : Word), s.mailboxUp = true → 8 ≤ n.val →
    ∃ t, exec (.doorbellWrite .pcie n v) s = .next t ∧
      s.logged t srcHost 0x2001 3 ([0, 4, 0, 0] ++ leBytes 4 (0x10008 + n.val * 0x800) ++ le 4 v) ∧
      t = { s with hyk := t.hyk })

/-- CPL_CONS_WRITE by the owner: a value from the previous one up to the producer index is taken, the records it
passes are delivered and their finished handles leave the journal; a value beyond the producer index or behind the
previous one is ignored and CONS_ERR set. Other ring pairs stay. While no record waits for a free slot, ring memory
and every other part stay too; waiting records that fit are written. (R65) -/
def Obligations.ConsumerIndexDelivers : Prop :=
  (∀ (s : State) (p : Party) (n : Fin 32) (v : Word), s.mailboxUp = true → ownsRing p n = true →
    (p = .legacy → s.sys.legacyWrite = true) → (p = .service → s.upd.granted = true) →
    (v - (s.ring n).cplCons).toNat ≤ ((s.ring n).cplProd - (s.ring n).cplCons).toNat → (s.ring n).backlog = [] →
    ∃ t, exec (.cplConsWrite p n v) s = .next t ∧ (t.ring n).cplCons = v ∧
      (∀ u, u ∈ (t.ring n).undelivered ↔ u ∈ (s.ring n).undelivered ∧
        ¬ (u.1 - (s.ring n).cplCons).toNat < (v - (s.ring n).cplCons).toNat) ∧
      (∀ e, e ∈ t.journal ↔ e ∈ s.journal ∧ ¬ (e.ring = n.val ∧ e.phase = .doneWritten ∧
        (e.doneAt - (s.ring n).cplCons).toNat < (v - (s.ring n).cplCons).toNat)) ∧
      (∀ k, k ≠ n.val → t.ring k = s.ring k) ∧
      t = { s with rings := t.rings, journal := t.journal, host := { s.host with pba := t.host.pba }, sent := t.sent }) ∧
  (∀ (s : State) (p : Party) (n : Fin 32) (v : Word), s.mailboxUp = true → ownsRing p n = true →
    (p = .legacy → s.sys.legacyWrite = true) → (p = .service → s.upd.granted = true) →
    (v - (s.ring n).cplCons).toNat ≤ ((s.ring n).cplProd - (s.ring n).cplCons).toNat →
    ((s.ring n).cplProd - v).toNat + (s.ring n).backlog.length ≤ (s.ring n).depth →
    ∃ t, exec (.cplConsWrite p n v) s = .next t ∧ (t.ring n).cplCons = v ∧ (t.ring n).backlog = [] ∧
      (t.ring n).cplProd = (s.ring n).cplProd + BitVec.ofNat 32 (s.ring n).backlog.length ∧
      (∀ k, k ≠ n.val → t.ring k = s.ring k)) ∧
  (∀ (s : State) (p : Party) (n : Fin 32) (v : Word), s.mailboxUp = true → ownsRing p n = true →
    (p = .legacy → s.sys.legacyWrite = true) → (p = .service → s.upd.granted = true) →
    ((s.ring n).cplProd - (s.ring n).cplCons).toNat < (v - (s.ring n).cplCons).toNat →
    exec (.cplConsWrite p n v) s =
      .next { s with rings := Tbl.upd Ring.reset s.rings n fun r => { r with consErr := true } })

/-- TAKE_ENTRY passes over entries of cycles that never published, then takes the head of the first ring pair served
that has an entry and room (and no record waiting for a slot); in START it does so from the end of step 8. An entry
that passes the checks is journalled with the next handle of its ring pair, and its ACCEPTED record stands in the next
completion slot; a NOP without FENCE is answered OK at once. A failed check or a failed journal write (logged 0x2003)
writes a REJECTED record and leaves the journal alone. (R30, R59, R60, R61, R66, R68, R69, R39, R88) -/
def Obligations.EntriesAreTakenInOrder : Prop :=
  (∀ (s : State) (o : Bool) (n : Nat) (op : BitVec 16) (c : CmdInfo) (a : Bytes), s.serves n →
    s.inSync = false →
    (s.taking.advance n).check (s.taking.headEntry n) = .ok (op, c, a) → c.cls ≠ .q →
    ∃ t j, exec (.takeEntry true o) s = .next t ∧ t.journal = s.journal ++ [j] ∧
      j.handle = mkHandle n s.sys.epoch (s.ring n).seq ∧ j.opcode = op ∧ j.args = a ∧ j.phase = .accepted ∧
      j.accepted = s.now ∧ (t.ring n).cmdCons = (s.taking.ring n).cmdCons + 1 ∧
      (t.ring n).seq = nextHandleSeq (s.ring n).seq ∧ (t.ring n).cplProd = (s.ring n).cplProd + 1 ∧
      t.mem.ring = s.mem.ring.store ((s.ring n).cplOff (s.ring n).cplProd) (j.acceptedRecord false) ∧
      t = { s.withAnswer t with sys := { s.sys with served := t.sys.served }, hyk := t.hyk }) ∧
  (∀ (s : State) (o : Bool) (n : Nat) (c : CmdInfo) (a : Bytes), s.serves n →
    s.sys.mode ≠ .start → s.inSync = false →
    (s.taking.advance n).check (s.taking.headEntry n) = .ok (0x2000, c, a) →
    (s.taking.headEntry n).flags.getLsbD 0 = false → s.entry (mkHandle n s.sys.epoch (s.ring n).seq) = none →
    ∃ t, exec (.takeEntry true o) s = .next t ∧ t.answered (mkHandle n s.sys.epoch (s.ring n).seq) stOk [] ∧
      t = { s.withAnswer t with sys := { s.sys with served := t.sys.served } }) ∧
  (∀ (s : State) (k o : Bool) (n : Nat) (st : BitVec 16), s.serves n →
    (s.taking.advance n).check (s.taking.headEntry n) = .error st →
    ∃ t, exec (.takeEntry k o) s = .next t ∧ t.journal = s.journal ∧
      t.mem.ring = s.mem.ring.store ((s.ring n).cplOff (s.ring n).cplProd)
        (mkRecord 0 (s.taking.headEntry n).tag (shownStatus (s.taking.headEntry n).v1 st) kindRejected
          (shownResult (s.taking.headEntry n).v1 st (le 4 (s.taking.ring n).cmdCons))) ∧
      t = { s.withAnswer t with sys := { s.sys with served := t.sys.served } }) ∧
  (∀ (s : State) (o : Bool) (n : Nat) (op : BitVec 16) (c : CmdInfo) (a : Bytes), s.serves n →
    (s.taking.advance n).check (s.taking.headEntry n) = .ok (op, c, a) →
    ∃ t, exec (.takeEntry false o) s = .next t ∧ t.journal = s.journal ∧
      s.logged t srcSup 0x2003 4 ([BitVec.ofNat 8 n, 0, 0, 0] ++ le 4 (s.taking.ring n).cmdCons
        ++ le 2 (s.taking.headEntry n).opcode) ∧
      t.mem.ring = s.mem.ring.store ((s.ring n).cplOff (s.ring n).cplProd)
        (mkRecord 0 (s.taking.headEntry n).tag (shownStatus (s.taking.headEntry n).v1 stJournalFailed) kindRejected
          (shownResult (s.taking.headEntry n).v1 stJournalFailed (le 4 (s.taking.ring n).cmdCons)))) ∧
  (∀ (s : State) (n : Nat) (op : BitVec 16) (c : CmdInfo) (a : Bytes), s.serves n →
    s.inSync = true →
    (s.taking.advance n).check (s.taking.headEntry n) = .ok (op, c, a) →
    ∃ t, exec .partnerNoAck s = .next t ∧ t.journal = s.journal ∧ t.dpx.standby = 3 ∧ t.dpx.lags = satInc s.dpx.lags ∧
      t.mem.ring = s.mem.ring.store ((s.ring n).cplOff (s.ring n).cplProd)
        (mkRecord 0 (s.taking.headEntry n).tag (shownStatus (s.taking.headEntry n).v1 stPartnerNoAck) kindRejected
          (shownResult (s.taking.headEntry n).v1 stPartnerNoAck (le 4 (s.taking.ring n).cmdCons))))

/-- NOP answers OK with an empty RESULT, STATUS_GET with SYS_MODE, role, standby state and TBU count (on version 2
also epoch and outstanding count), HANDLE_QUERY with the state of the handle in the journal or zeros; each writes its
answer and nothing else. (R80, R82, R37, R302) -/
def Obligations.QueriesAnswerAtOnce : Prop :=
  (∀ (s : State) (h : Quad) (v : Bool) (e : JEntry), s.begins h 0x2000 v e →
    ∃ t, exec (if v then .v1Nop h else .nop h) s = .next t ∧ s.answers t h e.ring stOk [] ∧ t = s.withAnswer t) ∧
  (∀ (s : State) (h : Quad) (e : JEntry), s.begins h 0x2001 false e →
    ∃ t, exec (.statusGet h) s = .next t ∧ t = s.withAnswer t ∧
      s.answers t h e.ring stOk (le 4 s.sys.modeWord ++ [s.dpx.role.setWidth 8, s.dpx.standby.setWidth 8, 0, 0]
        ++ leBytes 8 s.now ++ leBytes 4 s.sys.epoch.toNat ++ leBytes 4 (s.outstandingAll h))) ∧
  (∀ (s : State) (h : Quad) (e : JEntry), s.begins h 0x2001 true e →
    ∃ t, exec (.statusV1 h) s = .next t ∧ t = s.withAnswer t ∧
      s.answers t h e.ring stOk (le 4 s.sys.modeWord ++ [s.dpx.role.setWidth 8, s.dpx.standby.setWidth 8, 0, 0]
        ++ leBytes 8 s.now)) ∧
  (∀ (s : State) (h : Quad) (e : JEntry), s.begins h 0x2002 false e →
    s.entry (BitVec.ofNat 64 (leAt e.args 0 8)) = none →
    ∃ t, exec (.handleQuery h) s = .next t ∧ s.answers t h e.ring stOk [] ∧ t = s.withAnswer t) ∧
  (∀ (s : State) (h : Quad) (e x : JEntry), s.begins h 0x2002 false e →
    s.entry (BitVec.ofNat 64 (leAt e.args 0 8)) = some x →
    ∃ t, exec (.handleQuery h) s = .next t ∧ t = s.withAnswer t ∧
      s.answers t h e.ring stOk (leBytes 8 x.queryState ++ leBytes 8 x.accepted
        ++ leBytes 2 (if x.committed then (shownStatus x.v1 x.status).toNat else 0)))

/-- A journalled command that may begin while the module is in a mode that its Modes column does not name is answered
with WRONG_MODE, RESULT zeros, and nothing but the answer is written: shown for MODE_RUN, MODE_STOP, SERVICE_ENTER,
SERVICE_LEAVE, CONTAINER_LOAD, ONLINE_CHANGE, FORCE_SET, PERSISTENT_RESET, CONFIG_LOAD, SAFETY_PARAM_CHANGE,
DEBUG_TOKEN and BIST_RUN. (R38, R69, R80) -/
def Obligations.WrongModeChangesNothing : Prop :=
  ∀ (s : State) (h : Quad) (op : BitVec 16) (e : JEntry) (c : CmdInfo) (i : Instr), s.entry h = some e → e.opcode = op →
    e.v1 = false → e.phase = .accepted → s.mayBegin e = true → cmdInfo op = some c → c.inMode s.sys.mode = false →
    (op = 0x2010 ∧ s.activationDue = none ∧ (∃ b, i = .modeRun h b) ∨ op = 0x2011 ∧ s.activationDue = none ∧ i = .modeStop h ∨
      op = 0x2012 ∧ s.activationDue = none ∧ i = .serviceEnter h ∨
      op = 0x2013 ∧ i = .serviceLeave h ∨ op = 0x2020 ∧ (∃ b o l, i = .containerLoad h b o l) ∨
      op = 0x2021 ∧ (∃ b, i = .onlineChange h b) ∨ op = 0x2022 ∧ i = .forceSet h ∨ op = 0x2025 ∧ i = .persistentReset h ∨
      op = 0x2026 ∧ (∃ b, i = .configLoad h b) ∨ op = 0x2030 ∧ (∃ b, i = .safetyParamChange h b) ∨
      op = 0x2052 ∧ (∃ b, i = .debugToken h b) ∨ op = 0x2060 ∧ (∃ o, i = .bistRun h o)) →
    ∃ t, exec i s = .next t ∧ s.answers t h e.ring stWrongMode [] ∧ t = s.withAnswer t

/-- IRQ_TIMER_EXPIRY while the condition of R67 holds: ring pairs 0 to 7 send their MSI-X vector, or set its pending
bit while it is masked; ring pairs 24 to 31 signal the service side; the others have no such line. While the condition
does not hold nothing happens. (R67, R56, R436) -/
def Obligations.RingInterrupts : Prop :=
  (∀ (s : State) (n : Fin 32), s.mailboxUp = true → (s.ring n).irqOn s.now = true → n.val < 8 → s.domOn 5 = true →
    exec (.irqTimerExpiry n) s = .next (if s.host.masked n then
      { s with host := { s.host with pba := s.host.pba ||| (1 <<< n.val) } } else { s with sent := .msix n :: s.sent })) ∧
  (∀ (s : State) (n : Fin 32), s.mailboxUp = true → (s.ring n).irqOn s.now = true → 8 ≤ n.val →
    exec (.irqTimerExpiry n) s = .next (if 24 ≤ n.val then { s with sent := .serviceIrq :: s.sent } else s)) ∧
  (∀ (s : State) (n : Fin 32), (s.ring n).irqOn s.now = false → exec (.irqTimerExpiry n) s = .next s)

/-- CONTAINER_LOAD and PROG_LOAD of a verified container that no limit refuses, into a place that holds none: DONE
with OK, digest and identity, the container in its place and its bytes in flash, forces as they were. CONFIG_LOAD of a
set that passes every check: OK with digest and set identity, the set stored and current. An IN_SYNC standby is sent
the item, and while it has not verified a container nothing else happens. An unreachable buffer, failed verification
or a limit completes CONTAINER_LOAD with BUFFER_FAULT, VERIFY_FAILED or REFUSED and the detail code (REFUSED for
CONFIG_LOAD) and changes nothing but the answer; the buffer rule (0x51) sets REFUSED_CFG as well. (R94, R96, R101,
R113, R115, R248, R401, R402, R303, R139) -/
def Obligations.ContainersAndConfigurationLoad : Prop :=
  (∀ (s : State) (h : Quad) (e : JEntry) (b : SentBuf) (outOk : Bool) (x : Bytes) (c : Container),
    s.begins h 0x2020 false e → s.input e.ring (sub e.args 0 16) b.buf = some x → verified s.saf.items x = some c →
    s.loadRefusal { c.rebase (byteAt e.args 17).toNat with part := c.part } (byteAt e.args 16) (byteAt e.args 17)
      (s.prog.besides c.kind (byteAt e.args 17)) = none →
    (c.kind = 1 → s.dpx.role ≠ 1 ∨ s.dpx.standby = 0 ∨ s.dpx.standby = 2) →
    (s.inSync = true → b.standbyOk = true) →
    s.prog.slot c.kind (if c.kind = 1 then 0 else byteAt e.args 17) = none →
    ∃ t, exec (.containerLoad h b outOk true) s = .next t ∧
      t.answered h stOk (le 32 c.digest ++ le 4 c.id ++ leBytes 2 0 ++ leBytes 2 0) ∧
      t.prog.slot c.kind (if c.kind = 1 then 0 else byteAt e.args 17) =
        some { c.rebase (byteAt e.args 17).toNat with part := if c.kind = 1 then 0 else byteAt e.args 17, fresh := true } ∧
      (c.kind, (if c.kind = 1 then 0 else byteAt e.args 17), x) ∈ t.prog.flash ∧ t.prog.forces = s.prog.forces ∧
      (s.inSync = true → .mirrorItem 0 x ∈ t.sent)) ∧
  (∀ (s : State) (h : Quad) (e : JEntry) (b : SentBuf) (outOk : Bool) (x : Bytes) (c : Container),
    s.begins h 0x2020 true e → s.input e.ring (sub e.args 0 16) b.buf = some x → verified s.saf.items x = some c →
    s.loadRefusal { c.rebase 0 with part := c.part } 0 0 (s.prog.besides c.kind 0) = none → s.prog.slot 0 0 = none →
    (s.inSync = true → b.standbyOk = true) →
    ∃ t, exec (.progLoad h b outOk) s = .next t ∧
      t.answered h stOk (le 32 c.digest ++ le 4 c.id ++ leBytes 2 0 ++ leBytes 2 0) ∧
      t.prog.slot 0 0 = some { c.rebase 0 with part := 0, fresh := true } ∧ (0, 0, x) ∈ t.prog.flash ∧
      t.prog.forces = s.prog.forces) ∧
  (∀ (s : State) (h : Quad) (e : JEntry) (b : SentBuf) (outOk l : Bool), s.begins h 0x2020 false e →
    s.input e.ring (sub e.args 0 16) b.buf = none →
    ∃ t, exec (.containerLoad h b outOk l) s = .next t ∧ s.answers t h e.ring stBufferFault (leBytes 4 0) ∧ t = s.withAnswer t) ∧
  (∀ (s : State) (h : Quad) (e : JEntry) (b : SentBuf) (outOk l : Bool) (x : Bytes), s.begins h 0x2020 false e →
    s.input e.ring (sub e.args 0 16) b.buf = some x → verified s.saf.items x = none →
    ∃ t, exec (.containerLoad h b outOk l) s = .next t ∧ s.answers t h e.ring stVerifyFailed (leBytes 4 0) ∧ t = s.withAnswer t) ∧
  (∀ (s : State) (h : Quad) (e : JEntry) (b : SentBuf) (outOk l : Bool) (x : Bytes) (c : Container) (d : Nat),
    s.begins h 0x2020 false e → s.input e.ring (sub e.args 0 16) b.buf = some x → verified s.saf.items x = some c →
    s.loadRefusal { c.rebase (byteAt e.args 17).toNat with part := c.part } (byteAt e.args 16) (byteAt e.args 17)
      (s.prog.besides c.kind (byteAt e.args 17)) = some d →
    ∃ t, exec (.containerLoad h b outOk l) s = .next t ∧ s.answers t h e.ring stRefused (leBytes 4 d) ∧
      t = { s.withAnswer t with swd := { s.swd with refusedCfg := s.swd.refusedCfg || d == 0x51 } }) ∧
  (∀ (s : State) (h : Quad) (e : JEntry) (b : SentBuf) (outOk l : Bool) (x : Bytes) (c : Container), s.begins h 0x2020 false e →
    s.input e.ring (sub e.args 0 16) b.buf = some x → verified s.saf.items x = some c →
    s.loadRefusal { c.rebase (byteAt e.args 17).toNat with part := c.part } (byteAt e.args 16) (byteAt e.args 17)
      (s.prog.besides c.kind (byteAt e.args 17)) = none → s.inSync = true → b.standbyOk = false →
    exec (.containerLoad h b outOk l) s = .next { s with sent := .mirrorItem 0 x :: s.sent }) ∧
  (∀ (s : State) (h : Quad) (e : JEntry) (b : SentBuf) (x : Bytes) (p : Parsed), s.begins h 0x2026 false e →
    s.input e.ring (sub e.args 0 16) b.buf = some x → parseConfig x = some p → s.configRefusal p = none →
    (s.inSync = true → b.standbyOk = true) →
    ∃ t, exec (.configLoad h b) s = .next t ∧ t.cfg.cur = p.set ∧ t.cfg.stored = some (x.take (leAt x 20 4)) ∧
      t.answered h stOk (le 32 (Config.sha3 (x.take (leAt x 20 4))) ++ le 4 p.set.setId
        ++ leBytes 1 (s.waitingParts p.set)) ∧ t.prog = s.prog ∧ t.sys = s.sys ∧ t.cfg.rings = s.cfg.rings ∧
      (s.inSync = true → .mirrorItem 1 (x.take (leAt x 20 4)) ∈ t.sent)) ∧
  (∀ (s : State) (h : Quad) (e : JEntry) (b : SentBuf) (x : Bytes) (p : Parsed) (d : Nat), s.begins h 0x2026 false e →
    s.input e.ring (sub e.args 0 16) b.buf = some x → parseConfig x = some p → s.configRefusal p = some d →
    ∃ t, exec (.configLoad h b) s = .next t ∧ s.answers t h e.ring stRefused (leBytes 4 d) ∧
      t = { s.withAnswer t with swd := { s.swd with refusedCfg := s.swd.refusedCfg || d == 0x51 } })

/-- ONLINE_CHANGE of a verified build that R108 admits and that drops no force stands in phase 2, the old build
running on, once an IN_SYNC standby has verified the build that it is sent; one that R108 refuses is answered REFUSED
with the code. PRE_COPY_PASS with a residue of 4 MiB or less ends phase 2 (in STOP the switch is next); the eighth
above it refuses the change with 0x48. DRAIN with every task of the partition published begins the switch.
SWITCH_WINDOW puts the new build with the carried values in the old one's place, counts the change and answers OK with
its times. A safety container is refused with 0x41, an identity that is not loaded with 0x42. (R107, R108, R110, R111,
R112) -/
def Obligations.OnlineChangeRunsItsPhases : Prop :=
  (∀ (s : State) (h : Quad) (e : JEntry) (b : SentBuf) (x : Bytes) (c old : Container) (p : Byte), s.begins h 0x2021 false e →
    s.input e.ring (sub e.args 0 16) b.buf = some x → verified s.saf.items x = some c → c.kind ≠ 1 →
    s.targetPart c = some p → s.prog.slot 0 p = some old →
    s.changeRefused { c.rebase p.toNat with part := p, fresh := false } old p = none →
    (forceFate s.prog.forces { c.rebase p.toNat with part := p, fresh := false } old).dropped = [] → (s.inSync = true → b.standbyOk = true) →
    ∃ t o, exec (.onlineChange h b) s = .next t ∧ o.h = h ∧ o.phase = 2 ∧ o.part = p ∧ o.image = x ∧ o.drained = false ∧
      o.next = { c.rebase p.toNat with part := p, fresh := false } ∧
      t.sent = (if s.inSync then .mirrorItem 0 x :: s.sent else s.sent) ∧
      t = { s.executing h with prog := { s.prog with passes := 0, olcPart := p == 1, olc := some o }, sent := t.sent }) ∧
  (∀ (s : State) (h : Quad) (e : JEntry) (b : SentBuf) (x : Bytes) (c old : Container) (p : Byte) (d : Nat),
    s.begins h 0x2021 false e → s.input e.ring (sub e.args 0 16) b.buf = some x → verified s.saf.items x = some c →
    c.kind ≠ 1 → s.targetPart c = some p → s.prog.slot 0 p = some old →
    s.changeRefused { c.rebase p.toNat with part := p, fresh := false } old p = some d →
    ∃ t, exec (.onlineChange h b) s = .next t ∧ s.answers t h e.ring stRefused (leBytes 4 d) ∧
      t = { s.withAnswer t with swd := { s.swd with refusedCfg := s.swd.refusedCfg || d == 0x51 } }) ∧
  (∀ (s : State) (h : Quad) (e : JEntry) (b : SentBuf) (x : Bytes) (c : Container), s.begins h 0x2021 false e →
    s.input e.ring (sub e.args 0 16) b.buf = some x → verified s.saf.items x = some c → c.kind = 1 →
    ∃ t, exec (.onlineChange h b) s = .next t ∧ s.answers t h e.ring stRefused (leBytes 4 0x41) ∧ t = s.withAnswer t) ∧
  (∀ (s : State) (h : Quad) (e : JEntry) (b : SentBuf) (x : Bytes) (c : Container), s.begins h 0x2021 false e →
    s.input e.ring (sub e.args 0 16) b.buf = some x → verified s.saf.items x = some c → c.kind ≠ 1 → s.targetPart c = none →
    ∃ t, exec (.onlineChange h b) s = .next t ∧ s.answers t h e.ring stRefused (leBytes 4 0x42) ∧ t = s.withAnswer t) ∧
  (∀ (s : State) (o : Olc) (k : Nat), s.pwr.on = true → s.prog.olc = some o → o.phase = 2 → k ≤ 4096 →
    exec (.preCopyPass k) s = .next { s with prog := { s.prog with
      passes := s.prog.passes + 1
      olc := some (if s.sys.mode = .run then { o with phase := 3 } else { o with phase := 4, switchAt := s.now }) } }) ∧
  (∀ (s : State) (o : Olc) (k : Nat), s.pwr.on = true → s.prog.olc = some o → o.phase = 2 → 4096 < k →
    (s.prog.passes + 1).toNat < 8 →
    exec (.preCopyPass k) s = .next { s with prog := { s.prog with passes := s.prog.passes + 1 } }) ∧
  (∀ (s : State) (o : Olc) (e : JEntry) (k : Nat), s.pwr.on = true → s.prog.olc = some o → o.phase = 2 → 4096 < k →
    8 ≤ (s.prog.passes + 1).toNat → s.entry o.h = some e → e.committed = false →
    ∃ t, exec (.preCopyPass k) s = .next t ∧ s.answers t o.h e.ring stRefused (leBytes 4 0x48) ∧
      t = { s.withAnswer t with prog := { s.prog with passes := s.prog.passes + 1, olc := none } }) ∧
  (∀ (s : State) (o : Olc), s.pwr.on = true → s.prog.olc = some o → o.phase = 3 →
    s.sys.mode ≠ .run ∨ s.partTasks o.part = [] ∨ (o.drained = true ∧ ∀ n ∈ s.partTasks o.part, (s.task n).running = false) →
    exec .drain s = .next { s with prog := { s.prog with olc := some { o with phase := 4, switchAt := s.now } } }) ∧
  (∀ (s : State) (o : Olc) (e : JEntry) (old c : Container) (l : List (Word × Nat)) (outOk : Bool), s.pwr.on = true →
    s.prog.olc = some o → o.phase = 4 → s.entry o.h = some e → e.committed = false → s.commitMode e = true →
    s.prog.slot 0 o.part = some old → carry o.next old (fun _ => true) = some (c, l) → c.kind ≠ 1 → c.part = o.part →
    (forceFate s.prog.forces c old).dropped = [] → s.prog.forceJob = none → s.sys.stopJob = none →
    ∃ t, exec (.switchWindow true outOk) s = .next t ∧ t.prog.slot 0 o.part = some c ∧ t.prog.olc = none ∧
      t.prog.changes = s.prog.changes + 1 ∧ (0, o.part, o.image) ∈ t.prog.flash ∧
      t.prog.forces = (forceFate s.prog.forces c old).kept ∧
      t.answered o.h stOk (leBytes 8 o.switchAt ++ leBytes 4 (Nat.min 0xFFFFFFFF (2 * (s.now - o.switchAt)))
        ++ leBytes 4 o.carriedKib ++ leBytes 2 (forceFate s.prog.forces c old).carried ++ leBytes 2 0))

/-- FORCE_SET and FORCE_ADDR put the force of a forceable element into the table in its place; FORCE_CLEAR and
UNFORCE_ADDR take out exactly those named. Outside RUN they are answered OK at once with the number of forces; in RUN
they are so answered or wait for the points of R106. An unknown variable or element is NOT_FOUND, a force that R105
refuses REFUSED with its detail code. FORCE_LIST lists what its buffer holds, with the counts of R466; an unreachable
buffer is BUFFER_FAULT. PERSISTENT_RESET makes a commit with the initial values of the persistent variables fall due,
which answers it OK when it is made. (R101, R102, R105, R106, R82, R466) -/
def Obligations.ForcesStandUntilCleared : Prop :=
  (∀ (s : State) (h : Quad) (v : Bool) (e : JEntry) (c : Container) (d : VarDecl), s.begins h 0x2022 v e →
    s.prog.varOf (BitVec.ofNat 32 (leAt e.args 0 4)) = some (c, d) → leAt e.args 4 4 < d.count →
    s.forceRefusal c d (BitVec.ofNat 32 (leAt e.args 4 4)) (byteAt e.args 8).toNat = none →
    ∃ t, exec (if v then .forceAddr h else .forceSet h) s = .next t ∧
      s.forcesTo t h e.ring (putForce ⟨BitVec.ofNat 32 (leAt e.args 0 4), BitVec.ofNat 32 (leAt e.args 4 4), d.outBound,
        sub e.args 16 d.size⟩ s.prog.forces)) ∧
  (∀ (s : State) (h : Quad) (v : Bool) (e : JEntry), s.begins h 0x2022 v e →
    (∀ c d, s.prog.varOf (BitVec.ofNat 32 (leAt e.args 0 4)) = some (c, d) → d.count ≤ leAt e.args 4 4) →
    ∃ t, exec (if v then .forceAddr h else .forceSet h) s = .next t ∧ s.answers t h e.ring stNotFound (leBytes 4 0) ∧
      t = s.withAnswer t) ∧
  (∀ (s : State) (h : Quad) (v : Bool) (e : JEntry) (c : Container) (d : VarDecl) (x : Nat), s.begins h 0x2022 v e →
    s.prog.varOf (BitVec.ofNat 32 (leAt e.args 0 4)) = some (c, d) → leAt e.args 4 4 < d.count →
    s.forceRefusal c d (BitVec.ofNat 32 (leAt e.args 4 4)) (byteAt e.args 8).toNat = some x →
    ∃ t, exec (if v then .forceAddr h else .forceSet h) s = .next t ∧ s.answers t h e.ring stRefused (leBytes 4 x) ∧
      t = s.withAnswer t) ∧
  (∀ (s : State) (h : Quad) (v : Bool) (e : JEntry), s.begins h 0x2023 v e →
    leAt e.args 0 4 = 0xFFFFFFFF ∨ (∃ c d, s.prog.varOf (BitVec.ofNat 32 (leAt e.args 0 4)) = some (c, d) ∧
      (leAt e.args 4 4 = 0xFFFFFFFF ∨ leAt e.args 4 4 < d.count)) →
    ∃ t, exec (if v then .unforceAddr h else .forceClear h) s = .next t ∧
      s.forcesTo t h e.ring (s.prog.forces.filter fun f =>
        !((leAt e.args 0 4 == 0xFFFFFFFF || f.var.toNat == leAt e.args 0 4) &&
          (leAt e.args 4 4 == 0xFFFFFFFF || f.elem.toNat == leAt e.args 4 4)))) ∧
  (∀ (s : State) (h : Quad) (v : Bool) (e : JEntry), s.begins h 0x2023 v e → leAt e.args 0 4 ≠ 0xFFFFFFFF →
    (∀ c d, s.prog.varOf (BitVec.ofNat 32 (leAt e.args 0 4)) = some (c, d) →
      leAt e.args 4 4 ≠ 0xFFFFFFFF ∧ d.count ≤ leAt e.args 4 4) →
    ∃ t, exec (if v then .unforceAddr h else .forceClear h) s = .next t ∧ s.answers t h e.ring stNotFound (leBytes 4 0) ∧
      t = s.withAnswer t) ∧
  (∀ (s : State) (h : Quad) (e : JEntry) (outOk : Bool), s.begins h 0x2024 false e →
    s.outReach e.ring (sub e.args 0 16) outOk = true →
    ∃ t, exec (.forceList h outOk) s = .next t ∧
      t.answered h stOk (leBytes 4 (s.prog.forces.take (descLen (sub e.args 0 16) / 48)).length ++
        leBytes 4 (48 * (s.prog.forces.take (descLen (sub e.args 0 16) / 48)).length) ++ leBytes 4 s.prog.forces.length) ∧
      (8 ≤ e.ring ∧ e.ring < 12 → t.mem.staging = s.mem.staging.store (leAt (sub e.args 0 16) 0 8)
        ((s.prog.forces.take (descLen (sub e.args 0 16) / 48)).flatMap Force.entry)) ∧
      (e.ring < 8 ∨ 12 ≤ e.ring → t.mem.staging = s.mem.staging ∧
        .dma (sub e.args 0 16) ((s.prog.forces.take (descLen (sub e.args 0 16) / 48)).flatMap Force.entry) ∈ t.sent) ∧
      t = { s.withAnswer t with mem := { s.mem with ring := t.mem.ring, staging := t.mem.staging } }) ∧
  (∀ (s : State) (h : Quad) (e : JEntry) (outOk : Bool), s.begins h 0x2024 false e →
    s.outReach e.ring (sub e.args 0 16) outOk = false →
    ∃ t, exec (.forceList h outOk) s = .next t ∧ s.answers t h e.ring stBufferFault (leBytes 4 0) ∧ t = s.withAnswer t) ∧
  (∀ (s : State) (h : Quad) (e : JEntry) (c : Container), s.begins h 0x2025 false e →
    (s.prog.loaded.find? fun c => c.id.toNat == leAt e.args 0 4) = some c →
    exec (.persistentReset h) s = .next { s.executing h with prog := { s.prog with
      due := s.prog.due ++ [⟨[], { Commit.blank with
        vals := (c.vars.filter fun v => v.cls == 2).map fun v => (c.id, v.id, v.initial c.constData) }⟩]
      persistWait := some (h, c.id) } }) ∧
  (∀ (s : State) (h : Quad) (e : JEntry), s.begins h 0x2025 false e →
    (s.prog.loaded.find? fun c => c.id.toNat == leAt e.args 0 4) = none →
    ∃ t, exec (.persistentReset h) s = .next t ∧ s.answers t h e.ring stNotFound (leBytes 4 0) ∧ t = s.withAnswer t) ∧
  (∀ (s : State) (h : Quad) (e : JEntry) (j : CommitJob) (i : Word) (c : Container), s.pwr.on = true →
    s.prog.writing = some j → j.tasks = [] → s.prog.persistWait = some (h, i) → s.entry h = some e → e.committed = false →
    s.commitMode e = true → (s.prog.loaded.find? fun c => c.id == i) = some c →
    ∃ t, exec .commitMade s = .next t ∧ t.answered h stOk (leBytes 4 (c.clsLen 2)) ∧ t.prog.persistWait = none ∧
      t.prog.writing = none ∧ t.prog.commitSeq = s.prog.commitSeq + 1)

/-- SAFETY_PARAM_CHANGE of a set that passes the password and every check, acknowledged by the standby where there is
one IN_SYNC, sends it the set, replaces the items, raises the change number and clears the failure count. The answer
is OK with the new set digest and the sequence of the head entry: outside RUN, and in RUN without task 0, the
constants are written at once and the answer follows when the cells hold their blocks, at once where they already do;
in RUN with task 0 the lanes stay and the answer is held. A set that a standby does not acknowledge is sent and
committed no further. A wrong password or a lockout answers AUTH_FAILED and counts; the fifth begins the lockout. A
failed check answers with its status and changes no item. PASSWORD_LOCKOUT_END lifts the lockout after 15 min of
operating time. (R245, R246, R247, R249, R320) -/
def Obligations.SafetyParametersChangeWithThePassword : Prop :=
  (∀ (s : State) (h : Quad) (e : JEntry) (b : SentBuf) (x : Bytes), s.begins h 0x2030 false e →
    s.input e.ring (sub e.args 0 16) b.buf = some x → s.saf.lockout = none →
    s.saf.passOk (byteAt x 33).toNat (sub x 48 32) = true → s.changeRefusal x = none →
    (s.inSync = true → b.standbyOk = true) →
    ∃ t r, exec (.safetyParamChange h b) s = .next t ∧
      t.saf.items = changedSet s.saf.items (byteAt x 32 == 1) (changeItems x) ∧ t.saf.changeNo = s.saf.changeNo + 1 ∧
      t.saf.fails = 0 ∧ t.saf.lockout = none ∧ r = le 32 (setDigest t.saf.items) ++ le 4 (nextSeq s.hyk.safSeq) ∧
      (s.inSync = true → .mirrorItem 2 x ∈ t.sent) ∧
      (¬ (s.sys.mode = .run ∧ (s.task 0).present = true) → t.constsWritten = true ∧
        (if t.cellsSettled then t.answered h stOk r ∧ t.saf.applying = none
          else t.saf.applying = some (h, padTo 48 r, s.now))) ∧
      (s.sys.mode = .run ∧ (s.task 0).present = true → t.tri = s.tri ∧ t.saf.applying = some (h, padTo 48 r, s.now))) ∧
  (∀ (s : State) (h : Quad) (e : JEntry) (b : SentBuf) (x : Bytes), s.begins h 0x2030 false e →
    s.input e.ring (sub e.args 0 16) b.buf = some x → s.saf.lockout = none →
    s.saf.passOk (byteAt x 33).toNat (sub x 48 32) = true → s.changeRefusal x = none → s.inSync = true →
    b.standbyOk = false →
    exec (.safetyParamChange h b) s = .next
      { s with sent := .mirrorItem 2 x :: s.sent, saf := { s.saf with fails := 0 } }) ∧
  (∀ (s : State) (h : Quad) (e : JEntry) (b : SentBuf) (x : Bytes), s.begins h 0x2030 false e →
    s.input e.ring (sub e.args 0 16) b.buf = some x →
    s.saf.lockout.isSome = true ∨ s.saf.passOk (byteAt x 33).toNat (sub x 48 32) = false →
    ∃ t, exec (.safetyParamChange h b) s = .next t ∧ s.answers t h e.ring stAuthFailed (leBytes 4 0) ∧
      t = { s.withAnswer t with free := t.free, hyk := t.hyk, saf := { s.saf with
        fails := Nat.min 5 (s.saf.fails + 1), changeNo := s.saf.changeNo + 1
        lockout := if s.saf.lockout = none ∧ 4 ≤ s.saf.fails then some s.opMs else s.saf.lockout } }) ∧
  (∀ (s : State) (h : Quad) (e : JEntry) (b : SentBuf) (x : Bytes) (st : BitVec 16) (d : Nat), s.begins h 0x2030 false e →
    s.input e.ring (sub e.args 0 16) b.buf = some x → s.saf.lockout = none →
    s.saf.passOk (byteAt x 33).toNat (sub x 48 32) = true → s.changeRefusal x = some (st, d) →
    ∃ t, exec (.safetyParamChange h b) s = .next t ∧ s.answers t h e.ring st (leBytes 4 d) ∧
      t = { s.withAnswer t with saf := { s.saf with fails := 0 } }) ∧
  (∀ (s : State) (t0 : Nat), s.pwr.on = true → s.saf.lockout = some t0 → t0 + 900000 ≤ s.opMs →
    exec .passwordLockoutEnd s = .next { s with saf := { s.saf with lockout := none, fails := 0 } })

/-- SAFETY_ACK, where no channel of its scope has a latch that only an off-test clears or awaits such a test, answers
OK with the number of latches cleared and those still set. Channels outside its scope stay. In its scope COUPLER_LOST
and CELL_FAULT, and each latch class of a safety output, clear exactly where the mask names the class and its cause is
gone; an output with a latch cleared then waits for command 0. Where a channel has a latch of a tested class, an
off-test is asked for: the channel awaits it and the command is not answered yet. (R201, R212, R233, R234) -/
def Obligations.AcknowledgementClearsOnlyWhatIsGone : Prop :=
  (∀ (s : State) (h : Quad) (e : JEntry), s.begins h 0x2031 false e →
    (∀ c ∈ s.ackScope (byteAt e.args 0).toNat (byteAt e.args 1).toNat, (s.chan c).ackTest = none ∧
      (isSafetyOut (s.chan c).m = true → (s.chan c).latches &&& byteAt e.args 2 &&& testClasses = 0)) →
    ∃ t, exec (.safetyAck h) s = .next t ∧
      s.answers t h e.ring stOk
        (leBytes 2 (s.latchCount (byteAt e.args 2) (s.ackScope (byteAt e.args 0).toNat (byteAt e.args 1).toNat)
          - t.latchCount (byteAt e.args 2) (s.ackScope (byteAt e.args 0).toNat (byteAt e.args 1).toNat))
          ++ leBytes 2 (t.latchCount (byteAt e.args 2) (s.ackScope (byteAt e.args 0).toNat (byteAt e.args 1).toNat))) ∧
      (∀ c, c < 96 → c ∉ s.ackScope (byteAt e.args 0).toNat (byteAt e.args 1).toNat → t.chan c = s.chan c) ∧
      (∀ c ∈ s.ackScope (byteAt e.args 0).toNat (byteAt e.args 1).toNat,
        (t.chan c).couplerLost = ((s.chan c).couplerLost && !((byteAt e.args 2).getLsbD 0 && s.causeGone c 0)) ∧
        (t.chan c).cellFault = ((s.chan c).cellFault && !((byteAt e.args 2).getLsbD 1 && s.causeGone c 1)) ∧
        (isSafetyOut (s.chan c).m = true → (∀ k : Fin 8, (t.chan c).latches.getLsbD k =
          ((s.chan c).latches.getLsbD k && !((byteAt e.args 2).getLsbD k && s.causeGone c k))) ∧
          ((t.chan c).latches ≠ (s.chan c).latches → (t.chan c).needOff = true))) ∧
      t = { s.withAnswer t with fld := t.fld }) ∧
  (∀ (s : State) (h : Quad) (e : JEntry) (c : Nat), s.begins h 0x2031 false e →
    c ∈ s.ackScope (byteAt e.args 0).toNat (byteAt e.args 1).toNat → isSafetyOut (s.chan c).m = true →
    (s.chan c).latches &&& byteAt e.args 2 &&& testClasses ≠ 0 →
    ∃ t n, exec (.safetyAck h) s = .next t ∧ (t.chan c).ackTest = some (h, byteAt e.args 2) ∧ (t.chan c).await = true ∧
      t.fld.ackJob = some (h, byteAt e.args 2, s.ackScope (byteAt e.args 0).toNat (byteAt e.args 1).toNat, n) ∧
      t = { s.executing h with fld := t.fld })

/-- UPDATE_MANIFEST with a valid signature, not below the fused version and for this hardware loads the inactive slot
and answers OK with version, slot and blocks; a lower security version is ROLLBACK. UPDATE_BLOCK whose CRC and digest
match removes its number from the missing ones; one that does not match is VERIFY_FAILED. UPDATE_ARM that no case
refuses arms, is logged (0x7022) and answers with its TBU count; UPDATE_CANCEL clears the arming and answers 1, or 0
when nothing is armed. The active slot is never touched. (R403, R404, R407, R408, R411) -/
def Obligations.UpdatesAreVerified : Prop :=
  (∀ (s : State) (h : Quad) (e : JEntry) (b : Buf) (x : Bytes) (m : FwSlot), s.begins h 0x2040 false e →
    s.input e.ring (sub e.args 0 16) b = some x → signedManifest s.mfg x = some m →
    s.mfg.fused.toNat ≤ m.secVersion.toNat → m.hwIssues.getLsbD 2 = true → s.upd.armed = none →
    ∃ t, exec (.updateManifest h b) s = .next t ∧
      s.answers t h e.ring stOk (leBytes 4 m.secVersion.toNat ++ [if s.upd.activeB then 0 else 1, 0, 0, 0] ++ leBytes 4 m.blocks) ∧
      t.upd.slot (!s.upd.activeB) =
        (if (s.upd.slot (!s.upd.activeB)).state = .valid ∧ (s.upd.slot (!s.upd.activeB)).digest = m.digest
         then s.upd.slot (!s.upd.activeB) else (s.upd.slot (!s.upd.activeB)).reload m) ∧
      t.upd.slot s.upd.activeB = s.upd.slot s.upd.activeB ∧
      t = { s.withAnswer t with upd := { s.upd with slotA := t.upd.slotA, slotB := t.upd.slotB } }) ∧
  (∀ (s : State) (h : Quad) (e : JEntry) (b : Buf) (x : Bytes) (m : FwSlot), s.begins h 0x2040 false e →
    s.input e.ring (sub e.args 0 16) b = some x → signedManifest s.mfg x = some m →
    m.secVersion.toNat < s.mfg.fused.toNat →
    ∃ t, exec (.updateManifest h b) s = .next t ∧ s.answers t h e.ring stRollback (leBytes 4 0) ∧ t = s.withAnswer t) ∧
  (∀ (s : State) (h : Quad) (e : JEntry) (b : Buf) (d : Bytes), s.begins h 0x2041 false e →
    (s.upd.slot (!s.upd.activeB)).state = .loading ∨ (s.upd.slot (!s.upd.activeB)).state = .valid → s.upd.armed = none →
    leAt e.args 16 4 < (s.upd.slot (!s.upd.activeB)).blocks → s.input e.ring (sub e.args 0 16) b = some d →
    (crc32c d).toNat = leAt e.args 20 4 →
    (s.upd.slot (!s.upd.activeB)).digests[leAt e.args 16 4]? = some (Config.sha3 d) →
    ∃ t, exec (.updateBlock h b true) s = .next t ∧
      t.upd.slot (!s.upd.activeB) = (s.upd.slot (!s.upd.activeB)).write (leAt e.args 16 4) true ∧
      (∀ n, n ∈ (t.upd.slot (!s.upd.activeB)).missing ↔
        n ∈ (s.upd.slot (!s.upd.activeB)).missing ∧ n ≠ leAt e.args 16 4) ∧
      s.answers t h e.ring stOk (leBytes 4 (leAt e.args 16 4) ++ leBytes 4 (t.upd.slot (!s.upd.activeB)).missing.length) ∧
      t.upd.slot s.upd.activeB = s.upd.slot s.upd.activeB) ∧
  (∀ (s : State) (h : Quad) (e : JEntry) (b : Buf) (r : Bool) (d : Bytes), s.begins h 0x2041 false e →
    (s.upd.slot (!s.upd.activeB)).state = .loading ∨ (s.upd.slot (!s.upd.activeB)).state = .valid → s.upd.armed = none →
    leAt e.args 16 4 < (s.upd.slot (!s.upd.activeB)).blocks → s.input e.ring (sub e.args 0 16) b = some d →
    (crc32c d).toNat ≠ leAt e.args 20 4 ∨
      (s.upd.slot (!s.upd.activeB)).digests[leAt e.args 16 4]? ≠ some (Config.sha3 d) →
    ∃ t, exec (.updateBlock h b r) s = .next t ∧ s.answers t h e.ring stVerifyFailed (leBytes 4 0) ∧ t = s.withAnswer t) ∧
  (∀ (s : State) (h : Quad) (e : JEntry), s.begins h 0x2042 false e →
    s.armRefusal (leAt e.args 0 8 * 1000000000 + leAt e.args 8 4 : Nat) (byteAt e.args 12 == 1) (byteAt e.args 13) = none →
    ∃ t a, exec (.updateArm h) s = .next t ∧ t.upd = { s.upd with armed := some a, ready := false } ∧
      a.sec.toNat = leAt e.args 0 8 ∧ a.ns.toNat = leAt e.args 8 4 ∧ a.plant = (byteAt e.args 12 == 1) ∧
      a.group = byteAt e.args 13 ∧ a.checked = false ∧
      s.logged t srcSup 0x7022 2 ([1, a.group, 0, 0] ++ leBytes 8 a.count) ∧
      s.answers t h e.ring stOk (leBytes 8 a.count) ∧ t = { s.withAnswer t with hyk := t.hyk, upd := t.upd }) ∧
  (∀ (s : State) (h : Quad) (e : JEntry) (st : BitVec 16) (d : Nat), s.begins h 0x2042 false e →
    s.armRefusal (leAt e.args 0 8 * 1000000000 + leAt e.args 8 4 : Nat) (byteAt e.args 12 == 1) (byteAt e.args 13) = some (st, d) →
    ∃ t, exec (.updateArm h) s = .next t ∧ s.answers t h e.ring st (leBytes 4 d) ∧ t = s.withAnswer t) ∧
  (∀ (s : State) (h : Quad) (e : JEntry) (a : Arming), s.begins h 0x2043 false e → s.upd.armed = some a →
    ∃ t, exec (.updateCancel h) s = .next t ∧ t.upd = { s.upd with armed := none, ready := false } ∧
      t.sys = { s.sys with event := s.sys.event ||| 0x80 } ∧
      s.logged t srcSup 0x7022 3 ([4, a.group, 0, 0] ++ leBytes 8 a.count) ∧ s.answers t h e.ring stOk [1]) ∧
  (∀ (s : State) (h : Quad) (e : JEntry), s.begins h 0x2043 false e → s.upd.armed = none →
    ∃ t, exec (.updateCancel h) s = .next t ∧ s.answers t h e.ring stOk [0] ∧ t = s.withAnswer t)

/-- CHECK_POINT, for an armed group not yet checked, 1 s before the armed time or later: a beacon of the network whose
slot-0 time lies there proceeds when it shows every member ready, and cancels when it does not; so do a group that is
not configured, a network not integrated, and no such beacon 4 cycles later. A cancellation clears the arming, sets
SYS_EVENT.UPDATE and logs it. A beacon before the check point, and CHECK_POINT before it, change nothing.
ACTIVATION_BOUNDARY at the boundary in a mode that activates makes the inactive slot ACTIVE and pending, the former
one VALID, and begins a warm start; otherwise it changes nothing. FUSE_RULE after 24 operating hours on a pending slot
raises the fused version and blows the revocation fuses of its manifest, its own key spared, and logs it. (R406, R409,
R410, R411) -/
def Obligations.ArmedActivationsTakePlaceOrAreCancelled : Prop :=
  (∀ (s : State) (a : Arming) (g : GroupCfg) (m : BitVec 256), s.pwr.on = true → s.upd.armed = some a → a.group ≠ 0 →
    a.checked = false → a.time ≤ s.armedScale a + 1000000000 → s.groupCfg a.group = some g →
    (s.net g.netOf).isIntegrated = true → a.time ≤ s.slotZero a g + 1000000000 → m &&& g.members = g.members →
    exec (.checkPoint (some m)) s = .next { s with upd := { s.upd with armed := some { a with checked := true } } }) ∧
  (∀ (s : State) (a : Arming) (m : Option (BitVec 256)), s.pwr.on = true → s.upd.armed = some a → a.group ≠ 0 →
    a.checked = false → a.time ≤ s.armedScale a + 1000000000 →
    (s.groupCfg a.group = none ∨ ∃ g, s.groupCfg a.group = some g ∧ ((s.net g.netOf).isIntegrated = false ∨
      (m = none ∧ a.time + 4 * (s.net g.netOf).cycleNs ≤ s.armedScale a + 1000000000) ∨
      (∃ x, m = some x ∧ a.time ≤ s.slotZero a g + 1000000000 ∧ x &&& g.members ≠ g.members))) →
    ∃ t, exec (.checkPoint m) s = .next t ∧ s.logged t srcSup 0x7022 3 ([2, a.group, 0, 0] ++ leBytes 8 a.count) ∧
      t = { s.signalling t 7 with hyk := t.hyk, upd := { s.upd with armed := none, ready := false } }) ∧
  (∀ (s : State) (a : Arming) (m : Option (BitVec 256)), s.pwr.on = true → s.upd.armed = some a → a.group ≠ 0 →
    a.checked = false →
    (s.armedScale a + 1000000000 < a.time ∨ ∃ g x, s.groupCfg a.group = some g ∧ (s.net g.netOf).isIntegrated = true ∧
      m = some x ∧ s.slotZero a g + 1000000000 < a.time) →
    exec (.checkPoint m) s = .next s) ∧
  (∀ (s : State) (a : Arming), s.upd.armed = some a → s.activates = true → s.atBoundary a = true →
    ∃ t, exec .activationBoundary s = .next t ∧ t.sys.mode = .start ∧ t.upd.armed = none ∧ t.upd.ready = false ∧
      t.upd.activeB = (!s.upd.activeB) ∧ t.upd.pending = true ∧ (t.upd.slot t.upd.activeB).state = .active ∧
      (t.upd.slot (!t.upd.activeB)).state = .valid ∧ (∃ r, t.sys.start = some r ∧ r.requested = .warm ∧ r.entered = s.now)) ∧
  (∀ s : State, (∀ a, s.upd.armed = some a → s.activates = false ∨ s.atBoundary a = false) →
    exec .activationBoundary s = .next s) ∧
  (∀ (s : State), s.pwr.on = true → s.upd.pending = true → 24 * 3600000 ≤ s.fuseMark.upd.fuseMs →
    ∃ t, exec .fuseRule s = .next t ∧
      t.mfg.fused.toNat = Nat.max s.mfg.fused.toNat (s.upd.slot s.upd.activeB).secVersion.toNat ∧
      (∀ i : Fin 4, t.mfg.revoked.getLsbD i = true ↔ s.mfg.revoked.getLsbD i = true ∨
        ((s.upd.slot s.upd.activeB).revoke.getLsbD i = true ∧ firmwareIx (s.upd.slot s.upd.activeB).keyId ≠ some i)) ∧
      s.logged t srcSup 0x7023 2 [t.mfg.fused, t.mfg.revoked.setWidth 8] ∧
      t = { s with mfg := { s.mfg with fused := t.mfg.fused, revoked := t.mfg.revoked }, hyk := t.hyk
                   upd := { s.upd with pending := false, fuseMs := 0, fuseSince := none } })

/-- IDENTITY_GET with a buffer that is long enough and can be reached writes both certificates, of ring pairs 8 to 11
into the staging area, and answers with their length; a short buffer is BUFFER_FAULT. ATTEST writes statement and
signature and answers with the digest of the statement. DEBUG_TOKEN in SERVICE with SUBSTATE 0x4 opens the scopes of a
valid token and breaks the lockstep where lanes or the boundary scan open; any other is AUTH_FAILED. DEBUG_EXPIRY
closes every scope, LOCKSTEP_BROKEN stays. USB_RECOVERY_IMAGE of the manifest that the inactive slot holds VALID and
bootable makes it ACTIVE, not pending; one whose manifest has no valid signature changes nothing. (R171, R413, R415,
R416, R417, R418) -/
def Obligations.IdentityDebugAndRecovery : Prop :=
  (∀ (s : State) (h : Quad) (e : JEntry), s.begins h 0x2050 false e → 59840 ≤ descLen (sub e.args 0 16) →
    s.outReach e.ring (sub e.args 0 16) true = true →
    ∃ t, exec (.identityGet h true) s = .next t ∧ s.answers t h e.ring stOk (leBytes 4 59840) ∧
      (if 8 ≤ e.ring ∧ e.ring < 12 then t.mem.staging = s.mem.staging.store (leAt (sub e.args 0 16) 0 8) s.certificates
        else .dma (sub e.args 0 16) s.certificates ∈ t.sent ∧ t.mem.staging = s.mem.staging) ∧
      t = { s.withAnswer t with mem := { s.mem with ring := t.mem.ring, staging := t.mem.staging } }) ∧
  (∀ (s : State) (h : Quad) (e : JEntry) (o : Bool), s.begins h 0x2050 false e → descLen (sub e.args 0 16) < 59840 →
    ∃ t, exec (.identityGet h o) s = .next t ∧ s.answers t h e.ring stBufferFault (leBytes 4 0) ∧ t = s.withAnswer t) ∧
  (∀ (s : State) (h : Quad) (e : JEntry), s.begins h 0x2051 false e → s.outReach e.ring (sub e.args 32 16) true = true →
    ∃ t x, exec (.attest h true) s = .next t ∧ x = s.statement (sub e.args 0 32) ∧ s.answers t h e.ring stOk
        (leBytes 8 49856 ++ leBytes 8 s.now ++ le 32 (Config.sha3 x)) ∧
      (if 8 ≤ e.ring ∧ e.ring < 12 then
          t.mem.staging = s.mem.staging.store (leAt (sub e.args 32 16) 0 8) (x ++ padTo 49856 (Config.slhSign x))
        else .dma (sub e.args 32 16) (x ++ padTo 49856 (Config.slhSign x)) ∈ t.sent ∧ t.mem.staging = s.mem.staging) ∧
      t = { s.withAnswer t with mem := { s.mem with ring := t.mem.ring, staging := t.mem.staging } }) ∧
  (∀ (s : State) (h : Quad) (e : JEntry) (b : Buf) (x : Bytes), s.begins h 0x2052 false e → s.sys.substate = 4 →
    s.input e.ring (sub e.args 0 16) b = some x → s.tbu.plantSet = true → s.tokenOk x = true →
    ∃ t, exec (.debugToken h b) s = .next t ∧ s.answers t h e.ring stOk (leBytes 8 (leAt x 32 8)) ∧
      t.upd.scope = s.upd.scope ||| BitVec.ofNat 3 (maskOf [(byteAt x 7).getLsbD 0 || (byteAt x 7).getLsbD 1,
        (byteAt x 7).getLsbD 2, (byteAt x 7).getLsbD 3]) ∧ t.upd.expiry = BitVec.ofNat 64 (leAt x 32 8) ∧
      t.sys = { s.sys with lockstepBroken := s.sys.lockstepBroken || (byteAt x 7).getLsbD 0 || (byteAt x 7).getLsbD 1 ||
        (byteAt x 7).getLsbD 3 }) ∧
  (∀ (s : State) (h : Quad) (e : JEntry) (b : Buf) (x : Bytes), s.begins h 0x2052 false e → s.sys.substate = 4 →
    s.input e.ring (sub e.args 0 16) b = some x → s.tbu.plantSet = true → s.tokenOk x = false →
    ∃ t, exec (.debugToken h b) s = .next t ∧ s.answers t h e.ring stAuthFailed (leBytes 4 0) ∧ t = s.withAnswer t) ∧
  (∀ (s : State) (h : Quad) (e : JEntry) (b : Buf), s.begins h 0x2052 false e → s.sys.substate ≠ 4 →
    ∃ t, exec (.debugToken h b) s = .next t ∧ s.answers t h e.ring stWrongMode (leBytes 4 0) ∧ t = s.withAnswer t) ∧
  (∀ s : State, s.pwr.on = true → s.upd.scope ≠ 0 → (s.upd.expiry.toNat : Int) * 1000000000 ≤ s.plantNow →
    exec .debugExpiry s = .next { s with upd := { s.upd with scope := 0 }, tri := { s.tri with debug := false } }) ∧
  (∀ (s : State) (mf : Bytes) (m : FwSlot), s.pwr.on = true → signedManifest s.mfg mf = some m →
    s.mfg.fused.toNat ≤ m.secVersion.toNat → m.hwIssues.getLsbD 2 = true → s.upd.armed = none →
    (s.upd.slot (!s.upd.activeB)).state = .valid → (s.upd.slot (!s.upd.activeB)).digest = m.digest →
    (s.upd.slot (!s.upd.activeB)).bootable s.mfg true = true →
    ∃ t, exec (.usbRecoveryImage mf []) s = .next t ∧ t.upd.activeB = (!s.upd.activeB) ∧ t.upd.pending = false ∧
      (t.upd.slot t.upd.activeB).state = .active ∧ (t.upd.slot (!t.upd.activeB)).state = .valid ∧ t.upd.recovered = true ∧
      t = { s with upd := t.upd }) ∧
  (∀ (s : State) (mf : Bytes) (bs : List Bytes), signedManifest s.mfg mf = none → exec (.usbRecoveryImage mf bs) s = .next s)

/-- BIST_RUN in SERVICE with SUBSTATE 0x2 within the limits of R422 begins: BST_STATUS.RUNNING, both networks and
Field Link silent, ring memory and Shared SRAM copied. Out of limits the run is skipped with its cause and answered
OK. An active module with a standby refuses with 0xB1; another SUBSTATE is WRONG_MODE. BIST_CONDITION_CHECK within the
limits only measures; with the core voltage outside them it aborts the run, shown as skipped, and Shared SRAM takes
its contents of the copy. BIST_DUE at 720 h, and 24 h after it came last, sets DUE, SYS_EVENT.DUE the first time.
(R422, R424, R425, R426) -/
def Obligations.SelfTestsRunWithinLimits : Prop :=
  (∀ (s : State) (h : Quad) (e : JEntry) (o : BistOutcome), s.begins h 0x2060 false e → s.sys.substate = 2 →
    s.dpx.role ≠ 1 ∨ s.dpx.standby = 0 → s.pwr.bistCause = 0 →
    exec (.bistRun h o) s = .next { s.executing h with
      hl1 := { s.hl1 with up := false }, hl2 := { s.hl2 with up := false }, fld := { s.fld with silent := true }
      mem := { s.mem with saved := some (s.mem.ring, s.mem.sram) }
      bst := { s.bst with running := 3, job := some (h, o) } }) ∧
  (∀ (s : State) (h : Quad) (e : JEntry) (o : BistOutcome), s.begins h 0x2060 false e → s.sys.substate = 2 →
    s.dpx.role ≠ 1 ∨ s.dpx.standby = 0 → s.pwr.bistCause ≠ 0 →
    ∃ t r, exec (.bistRun h o) s = .next t ∧ t.answered h stOk r ∧ t.bst = { s.bst with
        skipped := true, skipCause := s.pwr.bistCause, lastKind := 3, running := 0, job := none } ∧
      s.logged t srcBist 0x7030 3 ([s.pwr.bistCause.setWidth 8, 3] ++ le 2 s.pwr.coreMv ++ le 2 s.pwr.temp)) ∧
  (∀ (s : State) (h : Quad) (e : JEntry) (o : BistOutcome), s.begins h 0x2060 false e → s.sys.substate = 2 →
    s.dpx.role = 1 → s.dpx.standby ≠ 0 →
    ∃ t, exec (.bistRun h o) s = .next t ∧ s.answers t h e.ring stRefused (leBytes 4 0xB1) ∧ t = s.withAnswer t) ∧
  (∀ (s : State) (h : Quad) (e : JEntry) (o : BistOutcome), s.begins h 0x2060 false e → s.sys.substate ≠ 2 →
    ∃ t, exec (.bistRun h o) s = .next t ∧ s.answers t h e.ring stWrongMode (leBytes 4 0) ∧ t = s.withAnswer t) ∧
  (∀ (s : State) (j : Quad × BistOutcome) (mv : BitVec 12) (temp : BitVec 16), s.pwr.on = true → s.bst.job = some j →
    776 ≤ mv.toNat → mv.toNat ≤ 824 → -640 ≤ temp.toInt → temp.toInt ≤ 2000 →
    exec (.bistConditionCheck mv true temp) s = .next { s with pwr := { s.pwr.measure temp with coreMv := mv, pllLocked := true } }) ∧
  (∀ (s : State) (h : Quad) (o : BistOutcome) (mv : BitVec 12) (pll : Bool) (temp : BitVec 16), s.pwr.on = true →
    s.bst.job = some (h, o) → mv.toNat < 776 ∨ 824 < mv.toNat →
    ∃ t, exec (.bistConditionCheck mv pll temp) s = .next t ∧ t.bst.job = none ∧ t.bst.running = 0 ∧ t.bst.skipped = true ∧
      t.bst.skipCause = 1 ∧ t.bst.lastKind = 3 ∧ t.fld.silent = false ∧
      (∀ r w, s.mem.saved = some (r, w) → t.mem.sram = w ∧ t.mem.saved = none)) ∧
  (∀ s : State, s.pwr.on = true → 720 ≤ s.bistHours → s.bst.due = false ∨ s.bst.dueAt + 24 * 3600000 ≤ s.opMs →
    ∃ t, exec .bistDue s = .next t ∧ s.logged t srcBist 0x7032 3 (leBytes 4 (Nat.min 0xFFFF s.bistHours)) ∧
      t = { (if s.bst.due then s else s.signalling t 4) with bst := { s.bst with due := true, dueAt := s.opMs }, hyk := t.hyk })

/-- PTP_SAMPLE while the Service Processor runs: the first one steps plant time by minus its offset and sets
PLANT_SET; a later one within the threshold keeps plant time continuous and the rate within 500 ppm; one beyond it
leaves plant time alone, becomes the pending jump, counts, is logged (0x6002) where the sample before was not refused,
and sets SYS_EVENT.PLANT_JUMP where JUMP_REFUSED was clear. PLANT_JUMP_ACCEPT steps by minus the pending jump, is
logged (0x6003) and answers with the change, NOT_FOUND without one. PTP_MESSAGE shows the state decided;
PLANT_ETHERNET_LINK_CHANGE chooses the port. (R351, R354, R355, R356, R357, R358) -/
def Obligations.PlantTimeIsFedSteppedOrRefused : Prop :=
  (∀ (s : State) (e : Int) (d : Nat), s.stileUp = true → s.tbu.plantSet = false →
    ∃ t, exec (.ptpSample e d) s = .next t ∧ t.plantNow = s.plantNow - e ∧ t.tbu.plantSet = true ∧ t.tbu.plantOfs = e ∧
      t.tbu.jump = none ∧ t.tbu.jumpRefused = false ∧ t = { s with tbu := t.tbu, free := t.free }) ∧
  (∀ (s : State) (e : Int) (d : Nat), s.stileUp = true → s.tbu.plantSet = true → e.natAbs ≤ s.param 0x0130 0 →
    ∃ t, exec (.ptpSample e d) s = .next t ∧ t.plantNow = s.plantNow ∧ t.tbu.plant.r.toInt.natAbs ≤ 549755813 ∧
      t.tbu.plant.base = s.now ∧ t.tbu.plantOfs = e ∧ t.tbu.jump = none ∧ t.tbu.jumpRefused = false ∧
      t.tbu.refusedNow = false ∧ t = { s with tbu := t.tbu, free := t.free }) ∧
  (∀ (s : State) (e : Int) (d : Nat), s.stileUp = true → s.tbu.plantSet = true → s.param 0x0130 0 < e.natAbs →
    ∃ t, exec (.ptpSample e d) s = .next t ∧ t.plantNow = s.plantNow ∧ t.tbu.jump = some e ∧ t.tbu.jumpRefused = true ∧
      t.tbu.refusals = satInc s.tbu.refusals ∧
      t.tbu.refusedNow = true ∧ (s.tbu.refusedNow = false → s.logged t srcTbu 0x6002 3 (le 8 (BitVec.ofInt 64 e))) ∧
      t = { (if s.tbu.jumpRefused then s else s.signalling t 3) with
        tbu := t.tbu, hyk := if s.tbu.refusedNow then s.hyk else t.hyk }) ∧
  (∀ (s : State) (h : Quad) (e : JEntry) (j : Int), s.begins h 0x2070 false e → s.tbu.jump = some j →
    ∃ t, exec (.plantJumpAccept h) s = .next t ∧ t.plantNow = s.plantNow - j ∧ t.tbu.jump = none ∧ t.tbu.jumpRefused = false ∧
      s.logged t srcTbu 0x6003 2 (le 8 (BitVec.ofInt 64 (-j))) ∧ s.answers t h e.ring stOk (le 8 (BitVec.ofInt 64 (-j))) ∧
      t = { s.withAnswer t with tbu := t.tbu, hyk := t.hyk }) ∧
  (∀ (s : State) (h : Quad) (e : JEntry), s.begins h 0x2070 false e → s.tbu.jump = none →
    ∃ t, exec (.plantJumpAccept h) s = .next t ∧ s.answers t h e.ring stNotFound (leBytes 4 0) ∧ t = s.withAnswer t) ∧
  (∀ (s : State) (d : PtpDecision) (k : Option Byte), s.stileUp = true → s.param 0x0131 0 = 1 →
    ∃ t, exec (.ptpMessage d k) s = .next t ∧
      t.tbu = { s.tbu with ptpState := if d = .master ∧ s.param 0x0135 0 = 1 then 1 else ptpCode d } ∧
      (t.sent = s.sent ∨ ∃ b, k = some b ∧ t.sent = .ptp b :: s.sent ∧ d = .master ∧ s.param 0x0135 0 ≠ 1) ∧
      t = { s with tbu := t.tbu, sent := t.sent }) ∧
  (∀ (s : State) (p : Fin 2) (up : Bool), ∃ t, exec (.plantEthernetLinkChange p up) s = .next t ∧
    t.tbu = { s.tbu with eth1Up := if p = 0 then up else s.tbu.eth1Up, eth2Up := if p = 0 then s.tbu.eth2Up else up
                         ptpOn2 := t.ptpPort } ∧ t = { s with tbu := t.tbu })

/-- EVENT_OFFER is counted as raised and written to the next slot of its partition, or dropped and counted when its
bucket is empty; a slot whose write fails twice is skipped with its sequence and counted in BAD_SLOTS. TOKEN_REFILL,
64 ms after the last one, adds a token, at most 16, and writes pending drops as one summary 0x9001 that is not counted
as raised. OP_TIME_SAVE stores the operating time each second. FIREWALL_REFUSAL of an access that no granted window
admits is recorded (0x2002). Nothing else changes. (R385, R386, R391, R392, R393, R394, R15) -/
def Obligations.TheRecorderAccountsForEveryEvent : Prop :=
  (∀ (s : State) (src : Byte) (code : BitVec 16) (v : BitVec 4) (d : Bytes), s.pwr.on = true →
    ∃ t, exec (.eventOffer src code v d 0) s = .next t ∧ s.logged t src code v d ∧
      t = { s with hyk := t.hyk, pwr := if src = srcPower ∧ code = 0x1013 then { s.pwr with crossOvf := true } else s.pwr }) ∧
  (∀ (s : State) (src : Byte) (code : BitVec 16) (v : BitVec 4) (d : Bytes), s.pwr.on = true → limitedCode code = false →
    safetyEntry src code = false →
    ∃ t e, exec (.eventOffer src code v d 1) s = .next t ∧ t.hyk.badSlots = satInc s.hyk.badSlots ∧
      t.hyk.genSeq = nextSeq (nextSeq s.hyk.genSeq) ∧ t.hyk.genNext.toNat = (s.hyk.genNext.toNat + 2) % 28672 ∧
      Tbl.get (fun _ => none) t.hyk.general ((s.hyk.genNext.toNat + 1) % 28672) = some e ∧ e.code = code ∧
      e.seq = t.hyk.genSeq ∧ t.hyk.raised = s.hyk.raised + 1 ∧ t.hyk.written = s.hyk.written + 1) ∧
  (∀ (s : State) (c : BitVec 16) (b : Bucket), s.pwr.on = true → (s.hyk.buckets.find? (·.code == c)) = some b → b.gainedAt + 64 ≤ s.opMs → b.drops = 0 →
    exec (.tokenRefill c) s = .next { s with hyk := { s.hyk with buckets := s.hyk.buckets.map fun x =>
      if x.code = c then { x with tokens := Nat.min 16 (x.tokens + 1), drops := 0, firstDrop := 0, gainedAt := x.gainedAt + 64 } else x } }) ∧
  (∀ (s : State) (c : BitVec 16) (b : Bucket), (s.hyk.buckets.find? (·.code == c)) = some b → s.opMs < b.gainedAt + 64 →
    exec (.tokenRefill c) s = .next s) ∧
  (∀ (s : State) (c : BitVec 16) (b : Bucket), s.pwr.on = true → (s.hyk.buckets.find? (·.code == c)) = some b → b.gainedAt + 64 ≤ s.opMs → b.drops ≠ 0 →
    ∃ t e, exec (.tokenRefill c) s = .next t ∧ t.hyk.raised = s.hyk.raised ∧ t.hyk.written = s.hyk.written ∧
      Tbl.get (fun _ => none) (if safetyEntry srcHyk c then t.hyk.safety else t.hyk.general)
        (if safetyEntry srcHyk c then s.hyk.safNext.toNat else s.hyk.genNext.toNat) = some e ∧
      e.code = 0x9001 ∧ e.source = srcHyk ∧ e.data = le 2 c ++ le 4 b.drops ++ le 6 b.firstDrop ∧
      e.sevFlags.setWidth 4 = b.lastSev ∧ e.sevFlags.getLsbD 5 = true ∧ t = { s with hyk := t.hyk }) ∧
  (∀ s : State, s.pwr.on = true → s.hyk.opSaved + 1000 ≤ s.opMs → exec .opTimeSave s = .next { s with hyk := { s.hyk with opSaved := s.opMs } }) ∧
  (∀ (s : State) (a : Byte) (x : Quad), s.domOn 3 = true → s.windowAdmits a x = false →
    ∃ t, exec (.firewallRefusal a x) s = .next t ∧ s.logged t srcFirewall 0x2002 4 ([a, 0, 0, 0] ++ le 8 x) ∧ t = { s with hyk := t.hyk })

/-- CYCLE_INFO, TIME_GET, COMMIT_INFO give the values of the latch point (of task 0 the captured ones), TBU_READ,
FORCE_INFO and CHANGE_INFO those of the Control Pair; calls that a group may not make return NOT_PERMITTED, bad
operands BAD_ARGUMENT, unknown elements NOT_FOUND. Nothing but the caller's return values changes. A caller whose body
does not run gets nothing. (R103, R104, R112) -/
def Obligations.RuntimeCallsAnswerTheirCaller : Prop :=
  (∀ (s : State) (k : Fin 17), s.calling ⟨k, false⟩ = true → k ≠ 0 →
    exec (.cycleInfo ⟨k, false⟩) s = .next (s.ret ⟨k, false⟩ 0 [res (s.task k).latchTick.toNat, res (s.task k).latchAt,
      res ((s.task k).cur.getD 0).toNat, res (s.task k).overruns.toNat])) ∧
  (∀ s : State, s.calling ⟨0, false⟩ = true →
    exec (.cycleInfo ⟨0, false⟩) s = .next (s.ret ⟨0, false⟩ 0 [res s.tri.xchg.read.tick.toNat, res s.tri.xchg.read.count,
      res s.tri.xchg.read.version.toNat, res s.tri.xchg.read.overruns.toNat])) ∧
  (∀ (s : State) (c : Caller) (q : Quad), s.calling c = true → q.toNat ≤ 1 →
    exec (.timeGet c q) s = .next (s.ret c 0 [BitVec.ofInt 64 (s.timeFor c (q == 1) / 1000000000),
      BitVec.ofInt 64 (s.timeFor c (q == 1) % 1000000000)])) ∧
  (∀ (s : State) (c : Caller) (q : Quad), s.calling c = true → 1 < q.toNat → exec (.timeGet c q) s = .next (s.ret c 4 [])) ∧
  (∀ (s : State) (k : Fin 17), s.calling ⟨k, false⟩ = true →
    exec (.tbuRead ⟨k, false⟩) s = .next (if k = 0 then s.ret ⟨k, false⟩ 3 [] else s.ret ⟨k, false⟩ 0 [res s.now])) ∧
  (∀ (s : State) (k : Fin 17), s.calling ⟨k, false⟩ = true →
    exec (.commitInfo ⟨k, false⟩) s = .next (s.ret ⟨k, false⟩ 0 (if k = 0 then [s.tri.xchg.read.commitSeq, res s.tri.xchg.read.commitLate.toNat]
      else [s.prog.commitSeq, res s.prog.commitLate.toNat]))) ∧
  (∀ (s : State) (k : Fin 17) (v e : Word) (c : Container) (d : VarDecl), s.calling ⟨k, false⟩ = true → k ≠ 0 →
    s.prog.ownerOf v = some c → c.var v = some d → e.toNat < d.count →
    exec (.forceInfo ⟨k, false⟩ v e) s = .next (s.ret ⟨k, false⟩ 0 [if s.prog.forced v e then 1 else 0])) ∧
  (∀ (s : State) (k : Fin 17) (v e : Word), s.calling ⟨k, false⟩ = true → k ≠ 0 → s.prog.ownerOf v = none →
    exec (.forceInfo ⟨k, false⟩ v e) s = .next (s.ret ⟨k, false⟩ 6 [])) ∧
  (∀ (s : State) (k : Fin 17), s.calling ⟨k, false⟩ = true → k ≠ 0 →
    exec (.changeInfo ⟨k, false⟩) s = .next (s.ret ⟨k, false⟩ 0 [res s.prog.changes.toNat,
      if (s.task k).firstAfterChange then 1 else 0])) ∧
  (∀ (s : State) (c : Caller) (i : Instr), s.calling c = false →
    (i = .cycleInfo c ∨ (∃ q, i = .timeGet c q) ∨ i = .tbuRead c ∨ i = .commitInfo c ∨ (∃ v e, i = .forceInfo c v e) ∨
      i = .changeInfo c) → exec i s = .next s) ∧
  (∀ (s : State) (c : Caller) (code : Word) (l : List Quad) (b : Bytes), (s.ret c code l b).task c.task =
      { s.task c.task with ret := ⟨code, l, b⟩ } ∧ ∀ n, n ≠ c.task.val → (s.ret c code l b).task n = s.task n)

/-- CMD_SUBMIT of a standard task places the entry in the next free slot of its ring and returns its index; the
producer index does not move before the publish point; a full ring returns FULL, a foreign ring BAD_ARGUMENT. CPL_NEXT
returns the next record written before the latch point and keeps the consumer index to the publish point, EMPTY
without one. ERR_EVENTS hands over dispatched events. EVENT_LOG writes program-defined codes, others are BAD_ARGUMENT.
FAULT_RAISE and an access that the address map does not allow are recorded and ask for HALT after the publish point.
(R77, R88, R92, R103, R192) -/
def Obligations.ProgramCommandsWaitForThePublishPoint : Prop :=
  (∀ (s : State) (k : Fin 17) (r : Quad) (b : Bytes), s.calling ⟨k, false⟩ = true → k ≠ 0 → 12 ≤ r.toNat → r.toNat < 20 →
    s.hasSlot r.toNat = true →
    ∃ t, exec (.cmdSubmit ⟨k, false⟩ r b) s = .next t ∧ (t.task k).ret = ⟨0, [res (s.nextEntry r.toNat).toNat], []⟩ ∧
      t.mem = { s.mem with ring := s.mem.ring.store ((s.ring r.toNat).cmdOff (s.nextEntry r.toNat)) (padTo 64 b) } ∧
      (t.ring r.toNat).cmdProd = (s.ring r.toNat).cmdProd ∧ (r.toNat, s.nextEntry r.toNat) ∈ (t.task k).doorbells ∧
      (∀ n, n ≠ r.toNat → t.ring n = s.ring n) ∧ (∀ n, n ≠ k.val → t.task n = s.task n) ∧
      t = { s with mem := t.mem, rings := t.rings, tasks := t.tasks }) ∧
  (∀ (s : State) (k : Fin 17) (r : Quad) (b : Bytes), s.calling ⟨k, false⟩ = true → k ≠ 0 → 12 ≤ r.toNat → r.toNat < 20 →
    s.hasSlot r.toNat = false → exec (.cmdSubmit ⟨k, false⟩ r b) s = .next (s.ret ⟨k, false⟩ 1 [])) ∧
  (∀ (s : State) (k : Fin 17) (r : Quad) (b : Bytes), s.calling ⟨k, false⟩ = true → k ≠ 0 → r.toNat < 12 ∨ 20 ≤ r.toNat →
    exec (.cmdSubmit ⟨k, false⟩ r b) s = .next (s.ret ⟨k, false⟩ 4 [])) ∧
  (∀ (s : State) (k : Fin 17) (r : Quad), s.calling ⟨k, false⟩ = true → k ≠ 0 → 12 ≤ r.toNat → r.toNat < 20 →
    1 ≤ (s.readEnd k r.toNat - s.readAt k r.toNat).toNat →
    (s.readEnd k r.toNat - s.readAt k r.toNat).toNat ≤ (s.ring r.toNat).depth →
    ∃ t, exec (.cplNext ⟨k, false⟩ r) s = .next t ∧
      (t.task k).ret = ⟨0, [], s.mem.ring.bytes ((s.ring r.toNat).cplOff (s.readAt k r.toNat)) 64⟩ ∧
      t.readAt k r.toNat = s.readAt k r.toNat + 1 ∧ t = { s with tasks := t.tasks }) ∧
  (∀ (s : State) (k : Fin 17) (r : Quad), s.calling ⟨k, false⟩ = true → groupRing k r.toNat = true →
    s.readEnd k r.toNat = s.readAt k r.toNat → exec (.cplNext ⟨k, false⟩ r) s = .next (s.ret ⟨k, false⟩ 2 [])) ∧
  (∀ (s : State) (k : Fin 17) (n : Nat), s.calling ⟨k, false⟩ = true → (s.task k).dispLost = false →
    ∃ t, exec (.errEvents ⟨k, false⟩ n) s = .next t ∧
      (t.task k).events = (s.task k).events.drop (Nat.min n (s.task k).dispatched) ∧
      (t.task k).ret = ⟨0, [res ((s.task k).events.take (Nat.min n (s.task k).dispatched)).length],
        ((s.task k).events.take (Nat.min n (s.task k).dispatched)).flatMap ErrEvent.bytes⟩ ∧ t = { s with tasks := t.tasks }) ∧
  (∀ (s : State) (k : Fin 17) (code : BitVec 16) (d : Bytes), s.calling ⟨k, false⟩ = true → k ≠ 0 → code.toNat / 4096 = 8 →
    ∃ t v, exec (.eventLog ⟨k, false⟩ code d) s = .next t ∧ s.logged t srcPair code v d ∧
      (t.task k).ret = ⟨if t.hyk.dropped = s.hyk.dropped then 0 else 5, [], []⟩ ∧
      t = { s with hyk := t.hyk, tasks := t.tasks, free := s.free + 1 }) ∧
  (∀ (s : State) (c : Caller) (code : BitVec 16) (d : Bytes), s.calling c = true → code.toNat / 4096 ≠ 8 →
    exec (.eventLog c code d) s = .next (s.ret c 4 [])) ∧
  (∀ (s : State) (k : Fin 17) (d : Bytes), s.calling ⟨k, false⟩ = true → k ≠ 0 →
    ∃ t, exec (.faultRaise ⟨k, false⟩ 1 d) s = .next t ∧ s.logged t srcPair 0x3007 5 (padTo 12 d) ∧
      (t.task k).haltAfter = some 0x08 ∧ (t.task k).ret = ⟨0, [], []⟩ ∧ t = { s with hyk := t.hyk, tasks := t.tasks }) ∧
  (∀ (s : State) (c : Caller) (q : Quad) (d : Bytes), s.calling c = true → c.ini = false → 1 < q.toNat →
    exec (.faultRaise c q d) s = .next (s.ret c 4 [])) ∧
  (∀ (s : State) (k : Fin 17) (a : Byte) (x : Quad), s.domOn 2 = true → 1 ≤ k.val → (s.task k).running = true →
    s.mapAllows k a x = false →
    ∃ t, exec (.programAccessRefused k a x) s = .next t ∧
      s.logged t srcPair 0x3005 5 ([BitVec.ofNat 8 k, a, 0, 0] ++ le 8 x) ∧ (t.task k).haltAfter = some 0x08 ∧
      (∀ n, n ≠ k.val → t.task n = s.task n) ∧ t = { s with hyk := t.hyk, tasks := t.tasks })

/-- When nothing keeps either of two tasks from latching, their latch points on the same TBU count, one after the
other, give both the same version as Current. (R24) -/
def Obligations.SameCountSameVersion : Prop :=
  ∀ (s : State) (a b : Fin 17), a ≠ b → s.latching a → s.latching b →
    ∃ t u v, exec (.latchPoint a) s = .next t ∧ exec (.latchPoint b) t = .next u ∧
      (u.task a).cur = some v ∧ (u.task b).cur = some v

/-- BASE_TICK, when the tick in progress ends, numbers the next by the HL1 cycle or by one more and gives each task
whose period begins its latch point; before, it changes nothing. LATCH_POINT when it falls starts the body on its
version: Current becomes Previous. An overrun of task 0 is HALT with cause 0x05, of a task with policy SKIP it is
counted and its body goes on. PUBLISH_POINT of a standard task moves exactly the bytes it owns from Writing to Sending
and ends its body. RETENTIVE_COMMIT begins the oldest commit due; COMMIT_MADE writes it to the bank not written last
with the next sequence. INIT_TASK_TIMEOUT under MODE_RUN, 5 s after the task could begin, is HALT with cause 0x0D.
(R84, R88, R89, R91, R102, R120, R122, R128) -/
def Obligations.CyclesLatchPublishAndCommit : Prop :=
  (∀ s : State, s.pwr.on = true → s.sys.mode ≠ .halt → s.tickEnds = true →
    ∃ t, exec .baseTick s = .next t ∧ t.sys.baseTick = (if s.hl1.isIntegrated then s.hl1.cycle else s.sys.baseTick + 1) ∧
      t.sys.tickAt = s.now ∧ t.sys.stretch = false ∧ t.sys.mode = s.sys.mode ∧ t.swd = s.swd ∧ t.prog = s.prog ∧
      t.journal = s.journal ∧ t.mem = s.mem ∧
      ∀ (k : Fin 17) (c : Container) (d : TaskDecl), (s.task k).present = true → s.taskOf k = some (c, d) → s.tickUs ≠ 0 →
        t.sys.baseTick.toNat % (d.periodUs / s.tickUs) = 0 → (t.task k).due = some (s.now + d.offsetUs * countsUs)) ∧
  (∀ s : State, s.tickEnds = false → exec .baseTick s = .next s) ∧
  (∀ (s : State) (k : Fin 17), s.latching k →
    ∃ t v, exec (.latchPoint k) s = .next t ∧ (t.task k).cur = some v ∧ (t.task k).running = true ∧ (t.task k).latchAt = s.now ∧
      (t.task k).latchTick = s.sys.baseTick ∧
      (t.task k).prev = (if (s.task k).latched then (s.task k).cur else some v) ∧
      (v = s.swd.version ∨ v = s.swd.version + 1) ∧ t.swd.ins = s.swd.ins ∧ t.swd.sending = s.swd.sending) ∧
  (∀ s : State, s.sys.mode = .run → s.pwr.on = true → s.dpx.decidedAt = none → s.sys.runWait = none →
    (s.task 0).present = true → (s.task 0).stopped = false → (s.task 0).held = false → (s.task 0).running = true →
    (s.task 0).due = some s.now →
    ∃ t, exec (.latchPoint 0) s = .next t ∧ s.halted t 0x05 false) ∧
  (∀ (s : State) (k : Fin 17), k ≠ 0 → s.sys.mode = .run → s.pwr.on = true → s.dpx.decidedAt = none → s.sys.runWait = none →
    s.cpr.recovery = 0 → (s.task k).present = true → (s.task k).stopped = false → (s.task k).held = false →
    (s.task k).running = true → (s.task k).reexec = false → (s.task k).haltPolicy = false → (s.task k).due = some s.now →
    exec (.latchPoint k) s = .next { s with tasks := Tbl.upd (fun _ => Task.reset) s.tasks k fun x =>
      { x with overrun := true, overruns := x.overruns + 1, skipped := x.skipped + 1, due := none } }) ∧
  (∀ (s : State) (k : Fin 17) (b : Body), k ≠ 0 → s.sys.mode = .run → s.pwr.on = true → (s.task k).present = true →
    (s.task k).running = true → (s.task k).held = false → (s.task k).state ≠ 3 → (s.task k).firstAfterChange = false → (s.task k).haltAfter = none →
    s.cpr.recovery = 0 → s.prog.forces = [] → b.writes = [] →
    ∃ t, exec (.publishPoint k b) s = .next t ∧ (t.task k).running = false ∧
      ∀ x i o, (x, i) ∈ s.outSegs → o < x.size →
        byteAt (t.sendingOf i) o = if s.owns k x i o then byteAt (s.writingOf i) o else byteAt (s.sendingOf i) o) ∧
  (∀ (s : State) (j : CommitJob) (l : List CommitJob), s.pwr.on = true → s.prog.writing = none → s.prog.due = j :: l →
    exec .retentiveCommit s = .next { s with prog := { s.prog with
      due := l, writing := some ⟨j.tasks, { j.commit with vals := s.commitVals j.commit.vals }⟩ } }) ∧
  (∀ (s : State) (j : CommitJob), s.pwr.on = true → s.prog.writing = some j → j.tasks ≠ [] ∨ s.prog.persistWait = none →
    ∃ t c, exec .commitMade s = .next t ∧ c.seq = s.prog.commitSeq + 1 ∧ c.vals = j.commit.vals ∧ c.forces = s.prog.forces ∧
      c.inRun = (s.sys.mode == .run) ∧
      t = { s with prog := { s.prog with
        bank0 := if s.prog.last1 then some c else s.prog.bank0, bank1 := if s.prog.last1 then s.prog.bank1 else some c
        last1 := !s.prog.last1, commitSeq := s.prog.commitSeq + 1, writing := none } }) ∧
  (∀ (s : State) (j : InitJob), s.pwr.on = true → s.sys.mode ≠ .start → s.sys.mode ≠ .halt → s.sys.initRun = some j →
    j.since + 5000 * countsMs ≤ s.now → ∃ t, exec .initTaskTimeout s = .next t ∧ s.halted t 0x0D false) ∧
  (∀ (s : State) (j : InitJob), s.sys.mode ≠ .start → s.sys.initRun = some j → s.now < j.since + 5000 * countsMs →
    exec .initTaskTimeout s = .next s)

/-- CHANNEL_TICK, when it is due, numbers the tick and sends every cell a frame with its sequence. SAMPLE_INSTANT of a
cell that sends takes over the supply, filters the recognised level (a level that stood on M + 1 consecutive samples
becomes the filtered level, no other does) and sends its frame; below 12.0 V a cell stops and opens its switches, and
a stopped cell sends nothing. COMMAND_FRAME: an invalid frame changes nothing; a valid one gives sequence and time,
and OUT reaches both switches of an untroubled safety output. UPLINK_FRAME: a valid frame gives its levels, count and
supply and ends the restart mark of its cell, an invalid one holds the values and is counted; a second one is ignored.
UPLINK_DEADLINE, 40 µs after the tick, counts what is missing as invalid. COUPLER_LOST after 8, COUPLER_RECOVERED
after 16 frames, by itself in modes 0x0, 0x1, 0x5 and 0x6 only. CELL_SUPPLY_LOSS opens the switches, CELL_RESTARTED at
14.0 V or above starts the cell afresh, COUNTER_EDGE counts its kind of edge, DISCREPANCY faults an evaluated pair
after D ticks, INPUT_STAGE_TEST, every 256 ticks of the cell, and CELL_FAULT report the stage test. Other channels and
cells are unchanged. (R198, R200, R201, R204, R205, R207, R210, R212, R221) -/
def Obligations.FieldInputsJudgeEachFrame : Prop :=
  (∀ s : State, s.fieldUp = true → s.tickDue = true →
    ∃ t, exec .channelTick s = .next t ∧ t.fld.ticks = s.fld.ticks + 1 ∧ t.fld.lastTick = s.now ∧ t.fld.deadline = false ∧
      ∀ c : Fin 96, ∃ f, .cell c f ∈ t.sent ∧ (byteAt f 2).toNat / 16 = (s.fld.ticks.toNat + 1) % 16) ∧
  (∀ (s : State) (ch : Fin 96) (x : Terminals), (s.cell ch).powered = true → 96 ≤ x.supply.toNat →
    ∃ t f p, exec (.sampleInstant ch x) s = .next t ∧ t.sent = .uplink ch f :: s.sent ∧ t.fld.chans = s.fld.chans ∧
      (t.cell ch).supply = x.supply ∧ (t.cell ch).filt = ((s.cell ch).filterStep p).filt ∧
      (128 ≤ x.supply.toNat → p = level ((s.cell ch).type3 && !isOutputMode (s.cell ch).mode.toNat) x.lowCurrent x.p (freeBit s.free)) ∧
      (byteAt f 1).toNat = 128 + ch ∧ ∀ n, n ≠ ch.val → t.cell n = s.cell n) ∧
  (∀ (s : State) (ch : Fin 96) (x : Terminals), (s.cell ch).powered = false →
    exec (.sampleInstant ch x) s = .next (s.modCell ch fun c => { c with seenSupply := some x.supply })) ∧
  (∀ (s : State) (ch : Fin 96) (x : Terminals), (s.cell ch).powered = true → x.supply.toNat < 96 →
    exec (.sampleInstant ch x) s = .next (s.modCell ch fun c =>
      { c with powered := false, hi := false, lo := false, test := .idle, deferred := false
               seenSupply := some x.supply })) ∧
  (∀ (c : Cell) (l : List Bool) (v : Bool), c.run = 0 →
    ((l ++ [v]).foldl Cell.filterStep c).filt =
      if filterTicks c.filter ≤ l.length ∧ ∀ y ∈ l.drop (l.length - filterTicks c.filter), y = v then v
      else (l.foldl Cell.filterStep c).filt) ∧
  (∀ (s : State) (ch : Fin 96) (f : Bytes), cmdValid ch f = false → exec (.commandFrame ch f) s = .next s) ∧
  (∀ (s : State) (ch : Fin 96) (f : Bytes), cmdValid ch f = true → (s.cell ch).powered = true →
    ∃ t, exec (.commandFrame ch f) s = .next t ∧ (t.cell ch).lastValid = s.now ∧
      (t.cell ch).seq = BitVec.ofNat 4 ((byteAt f 2).toNat / 16) ∧ t.fld.chans = s.fld.chans ∧
      (∀ n, n ≠ ch.val → t.cell n = s.cell n) ∧
      ((byteAt f 2).toNat / 16 ≠ 0 → (byteAt f 2).toNat % 8 = 0 → bitAt f 3 0 = false → (s.cell ch).configured = true →
        isSafetyOut (s.cell ch).mode.toNat = true → (s.cell ch).ownLatch = 0 → (s.cell ch).test = .idle →
        (t.cell ch).hi = bitAt f 2 3 ∧ (t.cell ch).lo = bitAt f 2 3)) ∧
  (∀ (s : State) (ch : Fin 96) (f : Bytes), s.domOn 7 = true → (s.chan ch).judged = false → s.uplinkValid ch f = true →
    ∃ t, exec (.uplinkFrame ch f) s = .next t ∧ (t.chan ch).judged = true ∧ (t.chan ch).validNow = true ∧
      (t.chan ch).filt = bitAt f 2 2 ∧ (t.chan ch).raw = bitAt f 2 3 ∧ (t.chan ch).count = BitVec.ofNat 16 (beAt f 3 2) ∧
      (t.chan ch).supply = byteAt f 6 ∧ (t.chan ch).badRun = 0 ∧ (t.chan ch).goodRun = (s.chan ch).goodRun + 1 ∧
      (t.chan ch).invalid = (s.chan ch).invalid ∧ t.cell ch = { s.cell ch with restarted := false } ∧
      ∀ n, n ≠ ch.val → t.chan n = s.chan n ∧ t.cell n = s.cell n) ∧
  (∀ (s : State) (ch : Fin 96) (f : Bytes), s.domOn 7 = true → (s.chan ch).judged = false → s.uplinkValid ch f = false →
    ∃ t, exec (.uplinkFrame ch f) s = .next t ∧ (t.chan ch).judged = true ∧ (t.chan ch).validNow = false ∧
      (t.chan ch).filt = (s.chan ch).filt ∧ (t.chan ch).raw = (s.chan ch).raw ∧ (t.chan ch).count = (s.chan ch).count ∧
      (t.chan ch).supply = (s.chan ch).supply ∧ (t.chan ch).badRun = (s.chan ch).badRun + 1 ∧ (t.chan ch).goodRun = 0 ∧
      (t.chan ch).invalid = satInc (s.chan ch).invalid ∧ ∀ n, n ≠ ch.val → t.chan n = s.chan n) ∧
  (∀ (s : State) (ch : Fin 96) (f : Bytes), (s.chan ch).judged = true → exec (.uplinkFrame ch f) s = .next s) ∧
  (∀ s : State, s.domOn 7 = true → s.fld.deadline = false → s.fld.lastTick + 40 * countsUs ≤ s.now →
    ∃ t, exec .uplinkDeadline s = .next t ∧ t.fld.deadline = true ∧ t.fld.cells = s.fld.cells ∧
      ∀ c : Fin 96, ((s.chan c).judged = true → t.chan c = s.chan c) ∧
        ((s.chan c).judged = false → (t.chan c).validNow = false ∧ (t.chan c).invalid = satInc (s.chan c).invalid ∧
          (t.chan c).badRun = (s.chan c).badRun + 1 ∧ (t.chan c).filt = (s.chan c).filt)) ∧
  (∀ (s : State) (ch : Fin 96), s.domOn 7 = true →
    ∃ t, exec (.couplerLost ch) s = .next t ∧ (8 ≤ (s.chan ch).badRun → (t.chan ch).couplerLost = true ∧
        (isOutputMode (s.chan ch).m = true → (t.chan ch).latches.getLsbD 0 = true)) ∧
      ((s.chan ch).badRun < 8 → t = s) ∧ ∀ n, n ≠ ch.val → t.chan n = s.chan n) ∧
  (∀ (s : State) (ch : Fin 96), s.domOn 7 = true → 16 ≤ (s.chan ch).goodRun →
    ∃ t, exec (.couplerRecovered ch) s = .next t ∧ (∀ n, n ≠ ch.val → t.chan n = s.chan n) ∧
      ((s.chan ch).m = 0 ∨ (s.chan ch).m = 1 ∨ (s.chan ch).m = 5 ∨ (s.chan ch).m = 6 →
        (t.chan ch).couplerLost = false ∧ (t.chan ch).latches.getLsbD 0 = false) ∧
      ((s.chan ch).m = 2 ∨ (s.chan ch).m = 3 ∨ (s.chan ch).m = 4 ∨ (s.chan ch).m = 7 ∨ (s.chan ch).m = 8 → t = s)) ∧
  (∀ (s : State) (ch : Fin 96), ∃ t, exec (.cellSupplyLoss ch) s = .next t ∧ (t.cell ch).powered = false ∧
      (t.cell ch).hi = false ∧ (t.cell ch).lo = false ∧ t.fld.chans = s.fld.chans ∧ ∀ n, n ≠ ch.val → t.cell n = s.cell n) ∧
  (∀ (s : State) (ch : Fin 96), (s.cell ch).powered = false → (∀ v, (s.cell ch).seenSupply = some v → 112 ≤ v.toNat) →
    ∃ t, exec (.cellRestarted ch) s = .next t ∧ (t.cell ch).powered = true ∧ (t.cell ch).restarted = true ∧
      (t.cell ch).count = 0 ∧ (t.cell ch).run = 0 ∧ (t.cell ch).configured = false ∧ (t.cell ch).hi = false ∧
      (t.cell ch).lo = false ∧ t.fld.chans = s.fld.chans ∧ ∀ n, n ≠ ch.val → t.cell n = s.cell n) ∧
  (∀ (s : State) (ch : Fin 96) (rising short : Bool), (s.cell ch).powered = true → (s.cell ch).mode = 5 →
    ∃ t, exec (.counterEdge ch rising short) s = .next t ∧ (∀ n, n ≠ ch.val → t.cell n = s.cell n) ∧
      (short = false → t.cell ch = { s.cell ch with count := (s.cell ch).count +
        (if (s.cell ch).edge = 2 ∨ ((s.cell ch).edge = 0 ∧ rising = true) ∨ ((s.cell ch).edge = 1 ∧ rising = false) then 1 else 0) }) ∧
      (short = true → (t.cell ch).rate = 2)) ∧
  (∀ (s : State) (p : Fin 48), s.domOn 7 = true → s.isPair p = true → s.pairEvaluated p = true →
    (s.dual p).state = .rising ∨ (s.dual p).state = .falling → (s.dual p).d + 1 ≤ (s.dual p).timer.toNat →
    ∃ t, exec (.discrepancy p) s = .next t ∧ (t.dual p).state = .fault ∧ (t.dual p).discrepancy = true ∧
      (t.dual p).safe = false ∧ t.safeOf (2 * p) = false ∧ t.hyk.raised = s.hyk.raised + 1 ∧ t.fld.chans = s.fld.chans ∧
      ∀ n, n ≠ p.val → t.dual n = s.dual n) ∧
  (∀ (s : State) (ch : Fin 96) (ok : Bool), (s.cell ch).powered = true → (s.cell ch).configured = true →
    2 ≤ (s.cell ch).mode.toNat → (s.cell ch).mode.toNat ≤ 4 → (s.cell ch).stageTicks ≠ 0 → (s.cell ch).stageTicks % 256 = 0 →
    exec (.inputStageTest ch ok) s = .next (s.modCell ch fun c => { c with testFail := !ok, stageTicks := 0 })) ∧
  (∀ (s : State) (ch : Fin 96), s.domOn 7 = true → 2 ≤ (s.chan ch).m → (s.chan ch).m ≤ 4 → 257 ≤ (s.chan ch).failTicks →
    ∃ t, exec (.cellFault ch) s = .next t ∧ (t.chan ch).cellFault = true ∧ t.inputGood ch = false ∧
      t.fld.cells = s.fld.cells ∧ ∀ n, n ≠ ch.val → t.chan n = s.chan n)

/-- TEST_DUE of an untroubled safety output makes its test wait for the slot; with a latch or a group trip it changes
nothing. TEST_PHASE_END, the pulse width after the phase began, opens both switches on a fault of the phase (a short
shows as P at 1 where it must be 0) and otherwise restores the commanded state. OVERLOAD after 4 samples at the limit,
THERMAL_LIMIT at once: a safety output opens and latches event 3, a standard one opens its high side until
OVERLOAD_RECLOSE after one second. SUPPLY_LOW after 16 ticks; CELL_UNDERVOLTAGE_TRIP after 8 samples opens the cell,
event 6; GROUP_UNDERVOLTAGE_TRIP latches UNDERVOLTAGE on every output of the group and on no other channel;
SUPPLY_RECOVERY after 800 good ticks clears it on standard outputs only, with a wait for command 0 without UV_RESTART.
HOLD_TIME_EXPIRED opens safety outputs, and standard ones with keep-off. TEST_ANNOUNCEMENT on the standby counts the
misses of each pulse of a test and reports a pulse missed in two consecutive tests. (R217, R220, R226, R232, R235,
R236, R238) -/
def Obligations.FieldOutputsTestAndTrip : Prop :=
  (∀ (s : State) (ch : Fin 96) (d : Nat), s.fieldUp = true → isSafetyOut (s.chan ch).m = true → (s.chan ch).test = .idle →
    (s.chan ch).latches = 0 → (s.group (groupOf ch)).uvLatch = false → ((s.chan ch).m = 8 → s.sys.mode ≠ .follow) →
    (s.chan ch).due = some d → d ≤ s.now →
    exec (.testDue ch) s = .next (s.modChan ch fun x => { x with await := true })) ∧
  (∀ (s : State) (ch : Fin 96), (s.chan ch).latches ≠ 0 ∨ (s.group (groupOf ch)).uvLatch = true →
    exec (.testDue ch) s = .next s) ∧
  (∀ (s : State) (ch : Fin 96) (x : Terminals) (p m : Bool) (e : BitVec 3), (s.cell ch).powered = true → (s.cell ch).test ≠ .idle →
    (s.cell ch).testAt + (s.cell ch).testUnits * 25 * countsUs ≤ s.now →
    p = level false x.lowCurrent x.p (freeBit s.free) → m = level false x.lowCurrentM x.m (freeBit (s.free + 1)) →
    e = phaseResult (s.cell ch).test p m x →
    ∃ t, exec (.testPhaseEnd ch x) s = .next t ∧ (t.cell ch).test = .idle ∧ t.fld.chans = s.fld.chans ∧
      (e = 2 ∨ e = 3 ∨ e = 4 → (t.cell ch).hi = false ∧ (t.cell ch).lo = false ∧ (t.cell ch).ownLatch = e) ∧
      (e = 1 ∨ e = 5 → (t.cell ch).hi = (s.cell ch).out ∧ (t.cell ch).lo = (s.cell ch).out ∧ (t.cell ch).phaseEvent = e) ∧
      (p = true → (s.cell ch).test = .offL ∨ (s.cell ch).test = .darkH → e = 2) ∧
      ∀ n, n ≠ ch.val → t.cell n = s.cell n) ∧
  (∀ (s : State) (ch : Fin 96), (s.cell ch).powered = true → 4 ≤ (s.cell ch).limitRun →
    ∃ t, exec (.overload ch) s = .next t ∧ t.fld.chans = s.fld.chans ∧ (∀ n, n ≠ ch.val → t.cell n = s.cell n) ∧
      (t.cell ch).limitRun = 0 ∧
      (isSafetyOut (s.cell ch).mode.toNat = true → (s.cell ch).ownLatch = 0 →
        (t.cell ch).hi = false ∧ (t.cell ch).lo = false ∧ (t.cell ch).ownLatch = 3) ∧
      ((s.cell ch).mode = 6 → (t.cell ch).hi = false ∧ (t.cell ch).lo = (s.cell ch).lo ∧ (t.cell ch).reclose = some s.now)) ∧
  (∀ (s : State) (ch : Fin 96), (s.cell ch).powered = true →
    ∃ t, exec (.thermalLimit ch) s = .next t ∧ t.fld.chans = s.fld.chans ∧ (∀ n, n ≠ ch.val → t.cell n = s.cell n) ∧
      (isSafetyOut (s.cell ch).mode.toNat = true → (s.cell ch).ownLatch = 0 →
        (t.cell ch).hi = false ∧ (t.cell ch).lo = false ∧ (t.cell ch).ownLatch = 3) ∧
      ((s.cell ch).mode = 6 → (t.cell ch).hi = false ∧ (t.cell ch).lo = (s.cell ch).lo ∧ (t.cell ch).reclose = some s.now)) ∧
  (∀ (s : State) (ch : Fin 96) (r : Nat), (s.cell ch).powered = true → (s.cell ch).mode = 6 → (s.cell ch).reclose = some r →
    r + 1000 * countsMs ≤ s.now →
    ∃ t, exec (.overloadReclose ch) s = .next t ∧ t.fld.chans = s.fld.chans ∧ (∀ n, n ≠ ch.val → t.cell n = s.cell n) ∧
      (t.cell ch).reclose = none ∧ (t.cell ch).hi = ((s.cell ch).out && (s.cell ch).ownLatch == 0) ∧
      (t.cell ch).lo = (s.cell ch).lo) ∧
  (∀ (s : State) (ch : Fin 96) (r : Nat), (s.cell ch).reclose = some r → s.now < r + 1000 * countsMs →
    exec (.overloadReclose ch) s = .next s) ∧
  (∀ (s : State) (g : Fin 6), s.domOn 7 = true → 16 ≤ (s.group g).lowTicks →
    exec (.supplyLow g) s = .next (s.modGroup g fun x => { x with supplyLow := true })) ∧
  (∀ (s : State) (ch : Fin 96), (s.cell ch).powered = true → 8 ≤ (s.cell ch).uvRun →
    ∃ t, exec (.cellUndervoltageTrip ch) s = .next t ∧ (t.cell ch).hi = false ∧ (t.cell ch).lo = false ∧
      (t.cell ch).ownLatch = 6 ∧ t.fld.chans = s.fld.chans ∧ ∀ n, n ≠ ch.val → t.cell n = s.cell n) ∧
  (∀ (s : State) (g : Fin 6), s.domOn 7 = true → (s.group g).uvLatch = false → 8 ≤ (s.group g).tripTicks ∨ (s.group g).event6 = true →
    ∃ t, exec (.groupUndervoltageTrip g) s = .next t ∧ (t.group g).uvLatch = true ∧
      (t.group g).uvTrips = satInc (s.group g).uvTrips ∧ t.fld.cells = s.fld.cells ∧
      ∀ c : Fin 96, (groupOf c = g.val → isOutputMode (s.chan c).m = true →
          (t.chan c).latches = (s.chan c).latches ||| 0x40 ∧ (t.chan c).test = .idle) ∧
        (groupOf c ≠ g.val ∨ isOutputMode (s.chan c).m = false → t.chan c = s.chan c)) ∧
  (∀ (s : State) (g : Fin 6), s.domOn 7 = true → 800 ≤ (s.group g).okTicks → (s.group g).supplyLow = true ∨ (s.group g).uvLatch = true →
    ∃ t, exec (.supplyRecovery g) s = .next t ∧ (t.group g).uvLatch = false ∧ (t.group g).supplyLow = false ∧
      t.fld.cells = s.fld.cells ∧
      ∀ c : Fin 96, (groupOf c = g.val → (s.chan c).m = 6 → (s.chan c).latches.getLsbD 6 = true →
          (t.chan c).latches = (s.chan c).latches &&& 0xBF ∧ (t.chan c).uvWait = (s.param 0x0110 g == 0)) ∧
        (isSafetyOut (s.chan c).m = true ∨ (s.chan c).latches.getLsbD 6 = false → (t.chan c).latches = (s.chan c).latches) ∧
        (groupOf c ≠ g.val ∨ isSafetyOut (s.chan c).m = true → t.chan c = s.chan c)) ∧
  (∀ (s : State) (ch : Fin 96), (s.cell ch).powered = true → (s.cell ch).configured = true →
    (s.cell ch).lastValid + (s.cell ch).holdMs.toNat * countsMs ≤ s.now →
    ∃ t, exec (.holdTimeExpired ch) s = .next t ∧ (∀ n, n ≠ ch.val → t.cell n = s.cell n) ∧ t.fld.chans = s.fld.chans ∧
      (isSafetyOut (s.cell ch).mode.toNat = true → (s.cell ch).ownLatch = 0 →
        (t.cell ch).hi = false ∧ (t.cell ch).lo = false ∧ (t.cell ch).ownLatch = 7) ∧
      ((s.cell ch).mode = 6 → (t.cell ch).lo = (s.cell ch).lo ∧
        (t.cell ch).hi = ((s.cell ch).hi && !(s.cell ch).keepOff))) ∧
  (∀ (s : State) (ch : Fin 96) (ok second : Bool) (n : Nat), s.domOn 7 = true → s.sys.mode = .follow → (s.chan ch).m = 8 →
    second = ((s.chan ch).annAt != 0 && !(s.chan ch).annSecond && decide (s.now < (s.chan ch).annAt + 24 * countsMs)) →
    n = (if second then (s.chan ch).missSecond else (s.chan ch).missFirst) →
    ∃ t, exec (.testAnnouncement ch ok) s = .next t ∧ (t.chan ch).annAt = s.now ∧ (t.chan ch).annSecond = second ∧
      (if second then (t.chan ch).missSecond else (t.chan ch).missFirst) = (if ok then 0 else n + 1) ∧
      (if second then (t.chan ch).missFirst = (s.chan ch).missFirst else (t.chan ch).missSecond = (s.chan ch).missSecond) ∧
      t.sent = (if ok = false ∧ 1 ≤ n then .dpxReport ch :: s.sent else s.sent) ∧ t.fld.cells = s.fld.cells ∧
      ∀ k, k ≠ ch.val → t.chan k = s.chan k)

/-- EGRESS_EVENT with three equal copies releases them, in the body of task 0 only, a publish request to the tasks
that latch on its count; with one odd copy its lane enters SELF_TEST, its memories lost; without agreement, or with
two lanes that differ, HALT with cause 0x04. LATE_LANE, LANE_EXCEPTION, TCM_ECC_ERROR and SCRUB_PASS take a lane of
three out of the vote with kinds 4, 6, 5 and 8, and are HALT with two. The self-test leads to RESYNC or exclusion, the
copy of a lane in vote, 262144 counts long, and the final pass in its gap to READY, the timeout to exclusion;
TEST_WINDOW counts a good pass, in an unpublished body of task 0 it is an overrun, HALT 0x05; a voter fault is HALT
0x03. The repair timer is recorded at half, nine tenths and expiry, which is HALT 0x09; old readmissions and
exclusions drop out. LOCKSTEP_MISMATCH holds the standard tasks for the self-test, a checker fault or an overfull undo
log is HALT 0x06. CACHE_ECC_ERROR and, every 8 h, DRAM_PATROL_SCRUB count, or are HALT. PAIR_SELF_TEST_COMPLETE goes
on with two lanes or one, CHECKPOINT_RESTORE re-executes the open bodies. (R142, R147, R148, R153, R160, R162, R168,
R169, R177, R179, R181, R255) -/
def Obligations.LanesAreVotedTestedAndRepaired : Prop :=
  (∀ (s : State) (c : EgressCopy), s.voting = true → s.prog.safety.isSome = true → s.tri.allIn = true →
    exec (.egressEvent (some c) (some c) (some c)) s = .next (State.release { s with tri := { s.tri with
      lane0 := s.tri.lane0.present (some c), lane1 := s.tri.lane1.present (some c)
      lane2 := s.tri.lane2.present (some c) } } c)) ∧
  (∀ (s : State) (c : EgressCopy), c.kind = .publish → s.inBody0 = true →
    (s.release c).tri = { s.tri with publishOk := true, expLatest := s.tri.expFilling } ∧
    (∀ k : Fin 17, (s.release c).task k =
      if k ≠ 0 ∧ (s.task k).running = true ∧ (s.task k).latchAt = s.now then
        { s.task k with expHeld := s.tri.expFilling.bytes 0 2048 } else s.task k) ∧
    s.release c = { s with tri := (s.release c).tri, tasks := (s.release c).tasks }) ∧
  (∀ (s : State) (c : EgressCopy), c.kind ≠ .eventLog → s.inBody0 = false → s.release c = s) ∧
  (∀ (s : State) (c : EgressCopy) (d : Option EgressCopy), s.voting = true → s.prog.safety.isSome = true → s.tri.allIn = true →
    d ≠ some c → ∃ t, exec (.egressEvent (some c) (some c) d) s = .next t ∧ (t.tri.lane 2).state = .selfTest ∧
      (t.tri.lane 0).state = .inVote ∧ (t.tri.lane 1).state = .inVote ∧ t.tri.lastLane = 2 ∧ t.sys.mode = s.sys.mode) ∧
  (∀ (s : State) (a b d : EgressCopy), s.voting = true → s.prog.safety.isSome = true → s.pwr.on = true → s.sys.mode ≠ .start →
    s.sys.mode ≠ .halt → a ≠ b → ((s.tri.allIn = true ∧ a ≠ d ∧ b ≠ d) ∨ s.tri.mask .inVote = 3) →
    ∃ t u, exec (.egressEvent (some a) (some b) (some d)) s = .next t ∧ u.mismatches = s.tri.mismatches + 1 ∧ u.lastLane = 3 ∧
      State.halted { s with tri := u } t 0x04 false) ∧
  (∀ (s : State) (l : Fin 3) (i : Instr) (k : BitVec 4), s.voting = true →
    (i = .lateLane l ∧ k = 4) ∨ (i = .laneException l ∧ k = 6) ∨ (i = .tcmEccError l true ∧ k = 5) ∨
      (i = .scrubPass (1 <<< l.val) ∧ k = 8 ∧ 256 ≤ s.tri.scrub) →
    (s.tri.allIn = true → ∃ t, exec i s = .next t ∧ (t.tri.lane l).state = .selfTest ∧ (t.tri.lane l).kind = k ∧ (t.tri.lane l).destroyed = true ∧
      (t.tri.lane l).since = s.now ∧ (∀ n : Fin 3, n ≠ l → t.tri.lane n = s.tri.lane n) ∧
      t.tri.mismatches = s.tri.mismatches + 1 ∧ t.tri.lastKind = k ∧ t.hyk.raised = s.hyk.raised + 1 ∧
      t.sys = s.sys ∧ t.fld = s.fld) ∧
    (s.tri.allIn = false → (s.tri.lane l).state = .inVote → s.pwr.on = true → s.sys.mode ≠ .start → s.sys.mode ≠ .halt →
      ∃ t u, exec i s = .next t ∧ u.mismatches = s.tri.mismatches + 1 ∧ State.halted { s with tri := u } t 0x04 false)) ∧
  (∀ (s : State) (l : Fin 3), s.domOn 1 = true → ∃ t, exec (.tcmEccError l false) s = .next t ∧
    t.tri.lane l = { s.tri.lane l with corrected := satInc (s.tri.lane l).corrected }) ∧
  (∀ (s : State) (l : Fin 3), s.domOn 1 = true → (s.tri.lane l).state = .selfTest → (s.tri.lane l).since + 8 * countsMs ≤ s.now →
    (withinHours 24 s.opMs (s.tri.lane l).transients).length < 2 →
    ∃ t, exec (.partialSelfTestComplete l true) s = .next t ∧ (t.tri.lane l).state = .resync ∧ (t.tri.lane l).since = s.now ∧
      t.hyk.raised = s.hyk.raised + 1) ∧
  (∀ (s : State) (l : Fin 3) (i : Instr), s.domOn 1 = true →
    ((s.tri.lane l).state = .selfTest ∧ (s.tri.lane l).since + 8 * countsMs ≤ s.now ∧ (i = .partialSelfTestComplete l false ∨
      (i = .partialSelfTestComplete l true ∧ 2 ≤ (withinHours 24 s.opMs (s.tri.lane l).transients).length))) ∨
      ((s.tri.lane l).state = .resync ∧ (s.tri.lane l).since + 40 * countsMs ≤ s.now ∧ i = .resyncTimeout l) →
    ∃ t, exec i s = .next t ∧
      (t.tri.lane l).state = (if withinHours 1000 s.opMs (s.tri.lane l).exclusions = [] then .excluded else .permanent) ∧
      (t.tri.lane l).exclusions = withinHours 1000 s.opMs (s.tri.lane l).exclusions ++ [s.opMs] ∧
      t.tri.repairEnd = (if s.tri.repairEnd.isSome then s.tri.repairEnd else some (s.opMs + s.safety 0x15 0 * msHour)) ∧
      t.sys.event.getLsbD 5 = true ∧ t.sys.mode = s.sys.mode) ∧
  (∀ (s : State) (l : Fin 3), s.domOn 1 = true → (s.tri.lane l).state = .resync →
    ((s.tri.lane l).copied = false → (s.tri.lane l).since + 262144 ≤ s.now →
      exec (.backgroundCopyComplete l) s = .next (s.modLane l fun x =>
        { x with tcm := s.tri.source.tcm, region := s.tri.source.region, destroyed := false, copied := true })) ∧
    (s.now < (s.tri.lane l).since + 262144 → exec (.backgroundCopyComplete l) s = .next s) ∧
    ((s.tri.lane l).copied = true → s.inGap = true → exec (.finalPass l true true) s = .next (s.modLane l fun x =>
      { x with tcm := s.tri.source.tcm, region := s.tri.source.region, destroyed := false, ready := true })) ∧
    (∀ a b : Bool, a = false ∨ b = false ∨ s.inGap = false → exec (.finalPass l a b) s = .next s)) ∧
  (∀ s : State, s.domOn 1 = true → s.inBody0 = false →
    exec (.testWindow none false) s = .next { s with tri := { s.tri with passes := s.tri.passes + 1 } }) ∧
  (∀ (s : State) (v : Option VoterFaultKind) (b : Bool), s.domOn 1 = true → s.inBody0 = true → s.pwr.on = true →
    ∃ t, exec (.testWindow v b) s = .next t ∧ s.halted t 0x05 false ∧ (t.task 0).overrun = true) ∧
  (∀ (s : State) (k : VoterFaultKind) (i : Instr), s.domOn 1 = true → s.pwr.on = true → s.sys.mode ≠ .start → s.sys.mode ≠ .halt →
    i = .voterFault k ∨ (i = .testWindow (some k) false ∧ s.inBody0 = false) →
    ∃ t, exec i s = .next t ∧ t.fld.safetyOff = true ∧
      State.halted { s with tri := { s.tri with gateClosed := true, voterFault := true }, fld := { s.fld with safetyOff := true } } t 0x03 false) ∧
  (∀ (s : State) (e : Nat), s.pwr.on = true → s.tri.repairEnd = some e →
    (s.tri.repairStage = 0 → s.tri.repairSpan ≤ 2 * (s.tri.repairSpan - (e - s.opMs)) →
      ∃ t, exec .repairTimerMilestone s = .next t ∧ t.tri = { s.tri with repairStage := 1 } ∧
        s.logged t srcSup 0x5011 3 ([2, s.tri.repairLane, 0, 0] ++ leBytes 4 s.repairRemain)) ∧
    (s.tri.repairStage = 1 → 9 * s.tri.repairSpan ≤ 10 * (s.tri.repairSpan - (e - s.opMs)) →
      ∃ t, exec .repairTimerMilestone s = .next t ∧ t.tri = { s.tri with repairStage := 2 } ∧
        s.logged t srcSup 0x5011 3 ([3, s.tri.repairLane, 0, 0] ++ leBytes 4 s.repairRemain)) ∧
    (e ≤ s.opMs → s.sys.mode ≠ .start → s.sys.mode ≠ .halt →
      ∃ u t, exec .repairTimerExpiry s = .next t ∧ s.logged u srcSup 0x5011 6 ([4, s.tri.repairLane, 0, 0] ++ leBytes 4 s.repairRemain) ∧
        State.halted { s with hyk := u.hyk } t 0x09 false)) ∧
  (∀ (s : State) (l : Fin 3), s.pwr.on = true →
    exec (.transientReadmissionExpiry l) s = .next (s.modLane l fun x => { x with transients := withinHours 24 s.opMs x.transients }) ∧
    exec (.exclusionExpiry true l) s = .next (s.modLane l fun x => { x with exclusions := withinHours 1000 s.opMs x.exclusions }) ∧
    exec (.exclusionExpiry false 0) s = .next { s with cpr := { s.cpr with exclusions0 := withinHours 1000 s.opMs s.cpr.exclusions0 } } ∧
    exec (.exclusionExpiry false 1) s = .next { s with cpr := { s.cpr with exclusions1 := withinHours 1000 s.opMs s.cpr.exclusions1 } }) ∧
  (∀ (s : State) (k : PairKind) (kib : Nat), s.domOn 2 = true → s.cpr.split = false → s.cpr.excluded ||| s.cpr.permanent = 0 →
    s.cpr.recovery = 0 → (k ≠ .checker → kib ≤ 8192 →
      ∃ t, exec (.lockstepMismatch k kib) s = .next t ∧ t.cpr.recovery = 1 ∧ t.cpr.since = s.now ∧
        t.cpr.mismatches = s.cpr.mismatches + 1 ∧ t.cpr.lastKind = pairKindCode k ∧ t.swd = s.swd ∧ t.sys = s.sys ∧
        ∀ n : Fin 17, n ≠ 0 → (s.task n).present = true → (t.task n).held = true ∧ (t.task n).state = 4) ∧
    (k = .checker ∨ 8192 < kib → s.pwr.on = true → s.sys.mode ≠ .start → s.sys.mode ≠ .halt →
      ∃ c h t, exec (.lockstepMismatch k kib) s = .next t ∧ State.halted { s with cpr := c, hyk := h } t 0x06 false)) ∧
  (∀ s : State, exec (.cacheEccError .l2CleanUncorrectable) s = .next s ∧
    (∀ l, exec (.cacheEccError (.l1iParity l)) s = .next s) ∧
    (s.domOn 2 = true →
      exec (.cacheEccError .l2Corrected) s = .next { s with cpr := { s.cpr with l2Corrected := satAdd s.cpr.l2Corrected 1 } } ∧
      (∀ n, s.cpr.patrolAt + 8 * 3600000 * countsMs ≤ s.now → exec (.dramPatrolScrub n false) s = .next
        { s with cpr := { s.cpr with patrolAt := s.now, dramCorrected := satAdd s.cpr.dramCorrected n } }) ∧
      (s.pairMode ≠ 2 → s.pwr.on = true → s.sys.mode ≠ .start → s.sys.mode ≠ .halt →
        (∃ t, exec (.cacheEccError .l2DirtyUncorrectable) s = .next t ∧ s.halted t 0x06 false) ∧
        ∃ t, exec (.cacheEccError .dramUncorrectable) s = .next t ∧ s.halted t 0x06 false))) ∧
  (∀ s : State, s.domOn 2 = true → s.cpr.recovery = 1 → s.cpr.since + 5 * countsMs ≤ s.now →
    (∃ t, exec (.pairSelfTestComplete 3) s = .next t ∧ t.cpr = { s.cpr with recovery := 2, reexecs := satInc s.cpr.reexecs }) ∧
    (∃ t, exec (.pairSelfTestComplete 1) s = .next t ∧ t.cpr.recovery = 2 ∧ t.cpr.excluded = s.cpr.excluded ||| 2 ∧
      t.sys.event.getLsbD 5 = true) ∧
    (∃ t, exec (.pairSelfTestComplete 2) s = .next t ∧ t.cpr.recovery = 2 ∧ t.cpr.excluded = s.cpr.excluded ||| 1 ∧
      t.sys.event.getLsbD 5 = true) ∧
    (s.pwr.on = true → s.sys.mode ≠ .start → s.sys.mode ≠ .halt →
      ∃ h t, exec (.pairSelfTestComplete 0) s = .next t ∧ State.halted { s with hyk := h } t 0x06 false)) ∧
  (∀ s : State, s.domOn 2 = true → s.cpr.recovery = 2 → s.open ≠ [] → (∀ k, k ∈ s.open → (s.task k).held = true) →
    ∃ t, exec .checkpointRestore s = .next t ∧ t.cpr = s.cpr ∧
      ∀ k, k ∈ s.open → (t.task k).held = false ∧ (t.task k).reexec = true ∧ (t.task k).running = true ∧
        (t.task k).doorbells = [] ∧ (t.task k).cur = (s.task k).cur)

/-- ROLE_SWAP without an IN_SYNC standby answers REFUSED 0x81, during an on-line change 0x82; otherwise the drain
begins, unless the standby has a lane out of its checked state (0x83, not visible here: free, log entry 18). At the
boundary the drained active journals its OK with the TBU count and the new role epoch, releases its claim and follows;
the IN_SYNC standby asserts its claim. (R315, R298, R166, R185) -/
def Obligations.SwapDrainsAndChangesRoles : Prop :=
  (∀ (s : State) (h : Quad) (e : JEntry), s.begins h 0x2017 false e → s.inSync = false →
    ∃ t, exec (.roleSwap h) s = .next t ∧ s.answers t h e.ring stRefused (leBytes 4 0x81) ∧ t = s.withAnswer t) ∧
  (∀ (s : State) (h : Quad) (e : JEntry), s.begins h 0x2017 false e → s.inSync = true →
    (s.journal.any fun x => x.opcode == 0x2021 && !x.committed) = true →
    ∃ t, exec (.roleSwap h) s = .next t ∧ s.answers t h e.ring stRefused (leBytes 4 0x82) ∧ t = s.withAnswer t) ∧
  (∀ (s : State) (h : Quad) (e : JEntry), s.begins h 0x2017 false e → s.inSync = true →
    (s.journal.any fun x => x.opcode == 0x2021 && !x.committed) = false →
    ∃ t, exec (.roleSwap h) s = .next t ∧
      ((s.lanesChecked = true ∧ s.answers t h e.ring stRefused (leBytes 4 0x83) ∧
          t = { s.withAnswer t with free := s.free + 1 }) ∨
        t = { s.executing h with free := s.free + 1, dpx := { s.dpx with swap := some (some h), swapDrained := false } })) ∧
  (∀ (s : State) (h : Quad) (e : JEntry), s.pwr.on = true → s.sys.mode = .run ∨ s.sys.mode = .stop →
    s.dpx.swap = some (some h) → s.swapReady = true → s.entry h = some e →
    ∃ t, exec .swapBoundary s = .next t ∧ t.answered h stOk (leBytes 8 s.now ++ [s.dpx.epoch + 1]) ∧
      t.sys.mode = .follow ∧ t.dpx.ownClaim = false ∧ t.dpx.role = 2 ∧ t.dpx.epoch = s.dpx.epoch + 1 ∧
      t.dpx.swaps = s.dpx.swaps + 1 ∧ t.dpx.swap = none) ∧
  (∀ s : State, s.pwr.on = true → s.sys.mode = .follow → s.dpx.standby = 2 →
    ∃ t, exec .swapBoundary s = .next t ∧ s.takesRole t ∧ t.dpx.swaps = s.dpx.swaps + 1)

/-- CLAIM_RELEASED makes the IN_SYNC standby active when no partner is seen or its last heartbeat reported a fault,
HEARTBEAT_LOSS when the claim is already gone: own claim, new role epoch, the mode the partner was in, semaphores
free. A standby that is not eligible stays in FOLLOW and records 0x7002. (R306, R307, R310, R311, R314) -/
def Obligations.StandbyTakesOver : Prop :=
  (∀ s : State, s.pwr.on = true → s.dpx.partnerClaim = true → s.sys.mode = .follow → s.dpx.role = 2 → s.dpx.standby = 2 →
    s.dpx.partnerSeen = false ∨ s.dpx.lastBeat.any (·.faultReport) = true →
    ∃ t, exec .claimReleased s = .next t ∧ s.takesRole t ∧ t.dpx.takeovers = s.dpx.takeovers + 1 ∧
      t.dpx.partnerClaim = false) ∧
  (∀ s : State, s.pwr.on = true → s.dpx.partnerSeen = true → s.dpx.beatAt + 60 * countsUs ≤ s.now → s.sys.mode = .follow →
    s.dpx.role = 2 → s.dpx.standby = 2 → s.dpx.partnerClaim = false →
    ∃ t, exec .heartbeatLoss s = .next t ∧ s.takesRole t ∧ t.dpx.role = 0 ∧ t.dpx.partnerSeen = false) ∧
  (∀ s : State, s.pwr.on = true → s.dpx.partnerClaim = true → s.sys.mode = .follow → s.dpx.standby ≠ 2 →
    ∃ t, exec .claimReleased s = .next t ∧
      s.logged t srcSup 0x7002 5 ([s.dpx.standby.setWidth 8, 0, 0, 0] ++ le 8 s.dpx.lastMirror) ∧
      t = { s with dpx := { s.dpx with partnerClaim := false }, hyk := t.hyk }) ∧
  (∀ s : State, s.pwr.on = true → s.dpx.partnerClaim = true → s.sys.mode ≠ .follow →
    exec .claimReleased s = .next { s with dpx := { s.dpx with partnerClaim := false } })

/-- CLAIM_RECOGNISED by the module at position 1 within 500 µs of its own claim begins a start into FOLLOW; a module
in RUN or STOP without its own claim becomes a standby in FOLLOW, the commands it was executing accepted again;
elsewhere it is only seen. CLAIM_WATCHDOG_EXPIRY releases the claim and changes nothing else. (R298, R299, R300, R38)
-/
def Obligations.ClaimsExclude : Prop :=
  (∀ s : State, s.pwr.on = true → s.dpx.partnerClaim = false → s.dpx.ownClaim = true → s.mfg.slotPos = true →
    s.now ≤ s.dpx.claimAt + 500 * countsUs →
    ∃ t, exec .claimRecognised s = .next t ∧ s.starts t .follow ∧ t.dpx.partnerClaim = true) ∧
  (∀ s : State, s.pwr.on = true → s.dpx.partnerClaim = false → s.dpx.ownClaim = true →
    s.mfg.slotPos = false ∨ s.dpx.claimAt + 500 * countsUs < s.now →
    exec .claimRecognised s = .next { s with dpx := { s.dpx with partnerClaim := true } }) ∧
  (∀ s : State, s.pwr.on = true → s.dpx.partnerClaim = false → s.dpx.ownClaim = false → s.sys.mode = .run ∨ s.sys.mode = .stop →
    s.prog.forceJob = none →
    ∃ t, exec .claimRecognised s = .next t ∧ t.sys.mode = .follow ∧ t.dpx.partnerClaim = true ∧ t.dpx.role = 2 ∧
      t.dpx.standby = 1 ∧ t.dpx.phase = 1 ∧ (∀ n, n ≤ 16 → (t.task n).running = false) ∧
      t.journal = s.journal.map (fun e => if e.phase = .executing then { e with phase := .accepted } else e) ∧
      t = { s with journal := t.journal, sys := t.sys, dpx := t.dpx, tasks := t.tasks, hyk := t.hyk, upd := t.upd, sent := t.sent
                   host := { s.host with pba := t.host.pba } }) ∧
  (∀ s : State, s.pwr.on = true →
    exec .claimWatchdogExpiry s = .next { s with dpx := { s.dpx with
      ownClaim := false, droveAt := if s.dpx.ownClaim then s.opMs else s.dpx.droveAt } })

/-- HEARTBEAT_SEND, 20 µs after the last one, sends one heartbeat on each lane. A HEARTBEAT marks its lane and the
partner; the active with no standby that hears a partner in FOLLOW makes it RESYNC and logs 0x7001. HEARTBEAT_LOSS of
a module without standby leaves it alone. Lane loss and restoration change the lane state alone while another lane is
up. (R301, R302, R303, R390) -/
def Obligations.HeartbeatsShowThePartner : Prop :=
  (∀ s : State, s.domOn 5 = true → s.dpx.beatSent = 0 ∨ s.dpx.beatSent + 20 * countsUs ≤ s.now →
    ∃ m t, exec .heartbeatSend s = .next t ∧ m.mode = modeCode s.sys.mode ∧ m.role = s.dpx.role ∧
      m.faultReport = s.dpx.faultReport ∧ m.dwOff = (!s.dpx.ownClaim && s.dwAllOff) ∧
      t = { s with dpx := { s.dpx with dwOff := m.dwOff, beatSent := s.now }, sent := .heartbeat 1 m :: .heartbeat 0 m :: s.sent }) ∧
  (∀ (s : State) (l : Fin 2) (m : HeartbeatMsg), s.domOn 5 = true → s.sys.mode ≠ .follow → s.dpx.ownClaim = false →
    exec (.heartbeat l m) s = .next { s with dpx := { s.dpx.setLane l true with
      lastBeat := some m, beatAt := s.now, partnerSeen := true } }) ∧
  (∀ (s : State) (l : Fin 2) (m : HeartbeatMsg), s.domOn 5 = true → s.sys.mode ≠ .follow → s.dpx.ownClaim = true →
    m.mode = 4 → m.role = 2 → s.dpx.standby = 0 → s.dpx.incompat = 0 →
    ∃ t, exec (.heartbeat l m) s = .next t ∧ s.logged t srcSup 0x7001 3 ([0, 1, 0, 0] ++ le 8 s.dpx.mseq) ∧
      t = { s.signalling t 1 with hyk := t.hyk, upd := t.upd, dpx := { s.dpx.setLane l true with
        lastBeat := some m, beatAt := s.now, partnerSeen := true, role := 1, standby := 1, phase := 1
        mirrored := [], stileSent := none } }) ∧
  (∀ s : State, s.pwr.on = true → s.dpx.partnerSeen = true → s.dpx.beatAt + 60 * countsUs ≤ s.now → s.sys.mode ≠ .follow →
    s.dpx.standby = 0 →
    ∃ t, exec .heartbeatLoss s = .next t ∧
      t = { s with sys := { s.sys with event := t.sys.event }, upd := t.upd, sent := t.sent
                   host := { s.host with pba := t.host.pba }
                   dpx := { s.dpx with partnerSeen := false, incompat := 0, role := 0 } }) ∧
  (∀ (s : State) (l : Fin 2), (s.dpx.setLane l false).lane0 = true ∨ (s.dpx.setLane l false).lane1 = true ∨ s.dpx.standby ≠ 1 →
    exec (.pairLinkLaneLoss l) s = .next { s with dpx := s.dpx.setLane l false }) ∧
  (∀ (s : State) (l : Fin 2), s.domOn 5 = true →
    exec (.pairLinkLaneRestored l) s = .next { s with dpx := s.dpx.setLane l true })

/-- In FOLLOW a complete CYCLE_MIRROR is acknowledged with its sequence, its forces and the version that its task
latched are taken over and its commit entries are journalled; an incomplete one changes nothing. MIRROR_ACK of the
awaited sequence frees the task and strikes it from the catch-up list, whose end makes the standby IN_SYNC.
MIRROR_STRETCH_LIMIT, once the stretch has reached its limit, makes an IN_SYNC standby LAGGING and counts it, and the
task latches. (R302, R303, R304, R305) -/
def Obligations.MirrorsAreWholeAndAcknowledged : Prop :=
  (∀ (s : State) (m : CycleMirror), m.complete = false → exec (.cycleMirror m) s = .next s) ∧
  (∀ (s : State) (m : CycleMirror), s.domOn 5 = true → s.sys.mode = .follow → s.dpx.swapBack = false → m.complete = true →
    s.dpx.staged = [] →
    ∃ t, exec (.cycleMirror m) s = .next t ∧ t.dpx = { s.dpx with
        lastMirror := m.mseq, lastKib := m.kib, partnerRun := s.dpx.lastBeat.any (·.mode == 3), mirrored := t.dpx.mirrored } ∧
      (t.task m.task).cur = some m.vnum ∧ (∀ n, n ≠ m.task.val → t.task n = s.task n) ∧
      t.prog.forces = m.forces.map (fun (v, e, o, b) => ⟨v, e, o, b⟩) ∧
      (∀ c e, m.commits = [c] → s.entry c.handle = some e →
        t.answered c.handle c.status c.result ∧ ∃ x, t.entry c.handle = some x ∧ x.extended = c.extended) ∧
      t = { s with sent := .mirrorAck m.mseq :: s.sent, dpx := t.dpx, swd := t.swd, prog := t.prog, journal := t.journal
                   tasks := t.tasks, tri := t.tri, cpr := { s.cpr with handCopy := t.cpr.handCopy } }) ∧
  (∀ (s : State) (k : Fin 17) (q : Quad), s.domOn 5 = true → (s.task k).unacked = some q → s.dpx.standby = 2 →
    s.dpx.swapBack = false → (s.task k).mirrorWait = false →
    exec (.mirrorAck k q) s = .next { s with
      tasks := Tbl.upd (fun _ => Task.reset) s.tasks k fun x => { x with unacked := none }
      dpx := { s.dpx with catchUp := s.dpx.catchUp.erase k } }) ∧
  (∀ (s : State) (k : Fin 17) (q : Quad), s.domOn 5 = true → (s.task k).unacked = some q → s.dpx.standby = 3 →
    s.dpx.catchUp.erase k = [] → (s.task k).mirrorWait = false →
    ∃ t, exec (.mirrorAck k q) s = .next t ∧ t.dpx.standby = 2 ∧
      s.logged t srcSup 0x7001 3 ([3, 2, 3, 0] ++ le 8 s.dpx.mseq) ∧ (t.task k).unacked = none) ∧
  (∀ (s : State) (k : Fin 17), s.sys.mode = .run → (s.task k).mirrorWait = true → s.inSync = true →
    (s.task k).heldAt + s.stretchLimit k ≤ s.now →
    ∃ t, exec (.mirrorStretchLimit k) s = .next t ∧ t.dpx.standby = 3 ∧ t.dpx.lags = satInc s.dpx.lags ∧
      (t.task k).mirrorWait = false ∧ (t.task k).running = true)

/-- RESYNC_PHASE_COMPLETE goes from phase 1 (checks passed) through 2 and 3 to 4, and from 4 with every mirror caught
up to IN_SYNC, where a standby without a partner takes the active role; a failed check is shown and ends it.
CATCH_UP_TIMEOUT, 30 s after phase 3 began, goes back to phase 2 and logs 0x7004. EXERCISE_DUE at 720 h and every 24 h
after, each once, logs 0x7003 and signals the first time. (R302, R316, R317, R318) -/
def Obligations.ResyncRunsItsPhases : Prop :=
  (∀ s : State, s.pwr.on = true → s.dpx.phase = 1 →
    exec (.resyncPhaseComplete 0) s = .next { s with dpx := { s.dpx with phase := 2, incompat := 0 } }) ∧
  (∀ (s : State) (c : BitVec 4), s.pwr.on = true → s.dpx.phase = 1 → c ≠ 0 →
    ∃ t, exec (.resyncPhaseComplete c) s = .next t ∧ t.dpx.incompat = c ∧ t.dpx.phase = 0 ∧ t.dpx.standby = 0) ∧
  (∀ (s : State) (c : BitVec 4), s.pwr.on = true → s.dpx.phase = 2 →
    exec (.resyncPhaseComplete c) s = .next { s with dpx := { s.dpx with phase := 3, phaseAt := s.now } }) ∧
  (∀ (s : State) (c : BitVec 4), s.pwr.on = true → s.dpx.phase = 3 →
    exec (.resyncPhaseComplete c) s = .next { s with dpx := { s.dpx with
      phase := 4, catchUp := if s.sys.mode == .follow || s.sys.mode != .run then [] else s.present } }) ∧
  (∀ (s : State) (c : BitVec 4), s.pwr.on = true → s.dpx.phase = 4 → s.dpx.catchUp = [] →
    (s.sys.mode = .follow → s.dpx.partnerClaim = true) →
    ∃ t, exec (.resyncPhaseComplete c) s = .next t ∧ t.dpx.standby = 2 ∧ t.dpx.phase = 0) ∧
  (∀ (s : State) (c : BitVec 4), s.pwr.on = true → s.dpx.phase = 4 → s.dpx.catchUp = [] → s.sys.mode = .follow →
    s.dpx.partnerClaim = false → s.dpx.partnerSeen = false →
    ∃ t, exec (.resyncPhaseComplete c) s = .next t ∧ s.takesRole t) ∧
  (∀ (s : State) (p : Byte) (k : Word), s.pwr.on = true → s.dpx.phase = 3 → s.dpx.phaseAt + 30000 * countsMs ≤ s.now →
    ∃ t, exec (.catchUpTimeout p k) s = .next t ∧ s.logged t srcSup 0x7004 3 ([p, 0, 0, 0] ++ le 4 k) ∧
      t = { s with dpx := { s.dpx with phase := 2 }, hyk := t.hyk }) ∧
  (∀ s : State, s.pwr.on = true → 720 ≤ s.exerciseHours → s.dpx.milestone < 720 + (s.exerciseHours - 720) / 24 * 24 →
    ∃ t, exec .exerciseDue s = .next t ∧ s.logged t srcSup 0x7003 3 (leBytes 4 (Nat.min 0xFFFF s.exerciseHours)) ∧
      t = { (if s.dpx.due then s else s.signalling t 4) with
        dpx := { s.dpx with due := true, milestone := 720 + (s.exerciseHours - 720) / 24 * 24 }, hyk := t.hyk })

/-- MIRRORED_ITEM on a standby in FOLLOW: an acceptance is appended to the journal and acknowledged, the next sequence
of its ring pair follows it; forces, lane states, role epoch, repair time, staging data and the safety parameter set
are taken over, a container or configuration set whose command has not committed waits for its commit; nothing else
changes. Outside FOLLOW it has no effect. (R303, R70, R61, R255) -/
def Obligations.StandbyTakesMirroredItems : Prop :=
  (∀ (s : State) (it : MirrorItem), s.sys.mode ≠ .follow → exec (.mirroredItem it) s = .next s) ∧
  (∀ (s : State) (r : Fin 32) (h : Quad) (g : Word) (op fl : BitVec 16) (a : Bytes) (n : Nat) (i : Word),
    s.domOn 5 = true → s.sys.mode = .follow →
    ∃ t e, exec (.mirroredItem (.acceptance r h g op fl a n i)) s = .next t ∧ t.journal = s.journal ++ [e] ∧ e.handle = h ∧
      e.ring = r.val ∧ e.tag = g ∧ e.opcode = op ∧ e.flags = fl ∧ e.args = a ∧ e.accepted = n ∧ e.phase = .accepted ∧
      (t.ring r).seq = nextHandleSeq (BitVec.ofNat 40 (h.toNat % 2 ^ 40)) ∧
      t = { s with journal := t.journal, rings := t.rings, sent := .itemAck :: s.sent
                   sys := { s.sys with epoch := BitVec.ofNat 19 (h.toNat / 2 ^ 40 % 2 ^ 19) } }) ∧
  (∀ (s : State) (l : List (Word × Word × Bool × Bytes)), s.domOn 5 = true → s.sys.mode = .follow →
    exec (.mirroredItem (.forces l)) s =
      .next { s with prog := { s.prog with forces := l.map fun (v, e, o, b) => ⟨v, e, o, b⟩ } }) ∧
  (∀ (s : State) (l : List (BitVec 3)) (p : BitVec 2), s.domOn 5 = true → s.sys.mode = .follow →
    exec (.mirroredItem (.laneStates l p)) s = .next { s with dpx := { s.dpx with partnerLanes := l, partnerPair := p } }) ∧
  (∀ (s : State) (x : Byte), s.domOn 5 = true → s.sys.mode = .follow →
    exec (.mirroredItem (.roleEpoch x)) s = .next { s with dpx := { s.dpx with epoch := x } }) ∧
  (∀ (s : State) (m : BitVec 16), s.domOn 5 = true → s.sys.mode = .follow →
    exec (.mirroredItem (.repairMinutes m)) s = .next { s with dpx := { s.dpx with partnerRepair := m } }) ∧
  (∀ (s : State) (o : Nat) (v : BitVec 16), s.domOn 5 = true → s.sys.mode = .follow →
    exec (.mirroredItem (.staging o v)) s =
      .next { s with mem := { s.mem with staging := s.mem.staging.store o (le 2 v) } }) ∧
  (∀ (s : State) (l : List (Nat × Quad)), s.domOn 5 = true → s.sys.mode = .follow →
    ∃ t, exec (.mirroredItem (.safetySet l)) s = .next t ∧
      t.saf = { s.saf with items := l.foldl (fun x (i, v) => Tbl.set (fun _ => none) x i (some v)) [] } ∧
      t = { s with saf := t.saf, fld := t.fld, sent := .itemAck :: s.sent }) ∧
  (∀ (s : State) (p : Byte) (b : Bytes), s.domOn 5 = true → s.sys.mode = .follow →
    (s.journal.any fun e => (e.opcode == 0x2020 || e.opcode == 0x2021 || e.opcode == 0x2026) && !e.committed) = true →
    exec (.mirroredItem (.container p b)) s =
      .next { s with dpx := { s.dpx with staged := s.dpx.staged ++ [.container p b] } } ∧
    exec (.mirroredItem (.config b)) s = .next { s with dpx := { s.dpx with staged := s.dpx.staged ++ [.config b] } })

/-- STILE_TRANSFER and REMOTE_XFER to a station: a posted write with a credit is queued with the next write tag and
answered OK at once; a read or non-posted write is queued and waits for its answer. A target guarded by a held
semaphore answers BUSY, outside the schedule NO_ROUTE, on a network that is not integrated REFUSED 0x91, a fenced one
FENCED. A message to a CAN or RS-485 port joins the port's queue. (R322, R323, R326, R329, R330, R331, R337, R342,
R82) -/
def Obligations.TransfersAreRoutedAndAnswered : Prop :=
  (∀ (s : State) (h : Quad) (e : JEntry) (b : Buf) (c : Instr) (v1 : Bool) (n : Net) (d : Bytes),
    (c = .stileTransfer h b ∧ v1 = false ∨ c = .remoteXfer h b ∧ v1 = true) → s.begins h 0x2080 v1 e → s.stileUp = true →
    portNet (byteAt e.args 3).toNat = some n → s.guarded n (leAt e.args 4 4 / 65536 % 256) e.context = false →
    s.inSchedule n (leAt e.args 4 4 / 65536 % 256) = true → (s.net n).isIntegrated = true → (byteAt e.args 2).toNat = 2 →
    (s.ctx e.context).fenced (n == .hl2) (leAt e.args 4 4 / 65536 % 256) = false → (s.ctx e.context).free ≠ 0 →
    s.input e.ring (sub e.args 16 16) b = some d → s.stationFailed n (leAt e.args 4 4 / 65536 % 256) = false →
    ∃ t r, exec c s = .next t ∧ t.stl.reqs = s.stl.reqs ++ [r] ∧ r.op = 3 ∧ r.ctx = e.context ∧ r.hl2 = (n == .hl2) ∧
      r.station = leAt e.args 4 4 / 65536 % 256 ∧ r.tag = (s.ctx e.context).tag ∧ r.addr.toNat = leAt e.args 8 8 ∧ r.data = d ∧
      r.sent = false ∧ t.ctx e.context = { s.ctx e.context with held := (s.ctx e.context).held + 1, tag := nextTag r.tag } ∧
      s.answers t h e.ring stOk (transferResult (descLen (sub e.args 16 16)) r.tag 0) ∧ t = { s.withAnswer t with stl := t.stl }) ∧
  (∀ (s : State) (h : Quad) (e : JEntry) (b : Buf) (c : Instr) (v1 : Bool) (n : Net),
    (c = .stileTransfer h b ∧ v1 = false ∨ c = .remoteXfer h b ∧ v1 = true) → s.begins h 0x2080 v1 e → s.stileUp = true →
    portNet (byteAt e.args 3).toNat = some n → s.guarded n (leAt e.args 4 4 / 65536 % 256) e.context = false →
    s.inSchedule n (leAt e.args 4 4 / 65536 % 256) = true → (s.net n).isIntegrated = true → (byteAt e.args 2).toNat = 0 →
    s.outReach e.ring (sub e.args 16 16) (b != .unreachable) = true →
    s.stationFailed n (leAt e.args 4 4 / 65536 % 256) = false → (∀ q ∈ s.stl.reqs, q.busy = false) →
    ∃ t r, exec c s = .next t ∧ r.op = 1 ∧ r.ctx = e.context ∧ r.station = leAt e.args 4 4 / 65536 % 256 ∧ r.tag = s.stl.txTag ∧
      r.len = descLen (sub e.args 16 16) ∧ r.h = some h ∧ r.sent = false ∧
      t = { s.executing h with stl := { s.stl with reqs := s.stl.reqs ++ [r], txTag := nextTag s.stl.txTag } }) ∧
  (∀ (s : State) (h : Quad) (e : JEntry) (b : Buf) (c : Instr) (v1 : Bool) (n : Net) (st : BitVec 16) (res : Bytes),
    (c = .stileTransfer h b ∧ v1 = false ∨ c = .remoteXfer h b ∧ v1 = true) → s.begins h 0x2080 v1 e → s.stileUp = true →
    portNet (byteAt e.args 3).toNat = some n →
    ((s.guarded n (leAt e.args 4 4 / 65536 % 256) e.context = true ∧ st = stBusy ∧ res = transferResult 0 0 0) ∨
      (s.guarded n (leAt e.args 4 4 / 65536 % 256) e.context = false ∧ s.inSchedule n (leAt e.args 4 4 / 65536 % 256) = false ∧
        st = stNoRoute ∧ res = transferResult 0 0 0) ∨
      (s.guarded n (leAt e.args 4 4 / 65536 % 256) e.context = false ∧ s.inSchedule n (leAt e.args 4 4 / 65536 % 256) = true ∧
        (s.net n).isIntegrated = false ∧ st = stRefused ∧ res = leBytes 4 0x91) ∨
      (s.guarded n (leAt e.args 4 4 / 65536 % 256) e.context = false ∧ s.inSchedule n (leAt e.args 4 4 / 65536 % 256) = true ∧
        (s.net n).isIntegrated = true ∧ (byteAt e.args 2).toNat = 2 ∧
        (s.ctx e.context).fenced (n == .hl2) (leAt e.args 4 4 / 65536 % 256) = true ∧ st = stFenced ∧ res = transferResult 0 0 0)) →
    ∃ t, exec c s = .next t ∧ s.answers t h e.ring st res ∧ t = s.withAnswer t) ∧
  (∀ (s : State) (h : Quad) (e : JEntry) (b : Buf) (c : Instr) (v1 : Bool) (m : Bytes),
    (c = .stileTransfer h b ∧ v1 = false ∨ c = .remoteXfer h b ∧ v1 = true) → s.begins h 0x2080 v1 e → s.stileUp = true →
    (byteAt e.args 3).toNat < 6 → s.input e.ring (sub e.args 16 16) b = some m →
    m.length ≤ s.longestFor (byteAt e.args 3).toNat (BitVec.ofNat 32 (leAt e.args 4 4)) →
    (s.port (byteAt e.args 3).toNat).queue.length < 64 →
    ∃ t x, exec c s = .next t ∧ x = (if (byteAt e.args 3).toNat < 4 ∧ (BitVec.ofNat 32 (leAt e.args 4 4)).getLsbD 30 then fdPad m else m) ∧
      (t.port (byteAt e.args 3).toNat).queue =
        (s.port (byteAt e.args 3).toNat).queue ++ [(BitVec.ofNat 32 (leAt e.args 4 4), x, some h)] ∧
      (∀ p, p ≠ (byteAt e.args 3).toNat → t.port p = s.port p) ∧ t = { s.executing h with stl := t.stl })

/-- REMOTE_ANSWER with status 0 frees a posted write's credit, or completes a read with its data; busy sends a posted
write again; any other status of a posted write fences its target for the context and sets ERR. RESPONSE_LIMIT does
the same to a posted write with cause 4 or 5, ends a read with RETRY and a write with TIMEOUT. READ_TIMEOUT gives a
window load 0xFF bytes and sets ERR. STILE_LOG_ACK frees the entry and lifts the fences nothing holds any more. (R331,
R333, R334, R335, R336, R337, R338, R344) -/
def Obligations.AnswersAndLimitsEndRequests : Prop :=
  (∀ (s : State) (n : Net) (a : Byte) (x : Answer) (r : Req), s.stileUp = true → x.status = 0 → r.op = 3 →
    (s.stl.reqs.find? fun r => r.at x.context.val (n == .hl2) a.toNat && r.tag == x.tag && r.op + 0x80 == x.op && r.onWire) = some r →
    ∃ t, exec (.remoteAnswer n a x) s = .next t ∧ (∀ q, q ∈ t.stl.reqs ↔ q ∈ s.stl.reqs ∧ q ≠ r) ∧
      (s.stl.reqs.count r = 1 → t.ctx r.ctx = { s.ctx r.ctx with held := (s.ctx r.ctx).held - 1 }) ∧ t = { s with stl := t.stl }) ∧
  (∀ (s : State) (n : Net) (a : Byte) (x : Answer) (r : Req) (h : Quad) (e : JEntry), s.stileUp = true → x.status = 0 → r.op = 1 →
    (s.stl.reqs.find? fun r => r.at x.context.val (n == .hl2) a.toNat && r.tag == x.tag && r.op + 0x80 == x.op && r.onWire) = some r →
    r.h = some h → s.entry h = some e → e.committed = false → s.commitMode e = true → handleRing h < 8 ∨ 12 ≤ handleRing h →
    ∃ t, exec (.remoteAnswer n a x) s = .next t ∧ (∀ q, q ∈ t.stl.reqs ↔ q ∈ s.stl.reqs ∧ q ≠ r) ∧
      .dma r.desc (x.data.take r.len) ∈ t.sent ∧ t.answered h stOk (transferResult (Nat.min r.len x.data.length) 0 0) ∧
      t = { s.withAnswer t with stl := t.stl }) ∧
  (∀ (s : State) (n : Net) (a : Byte) (x : Answer) (r : Req), s.stileUp = true → x.status = 3 → r.op = 3 →
    (s.stl.reqs.find? fun r => r.at x.context.val (n == .hl2) a.toNat && r.tag == x.tag && r.op + 0x80 == x.op && r.onWire) = some r →
    ∃ t, exec (.remoteAnswer n a x) s = .next t ∧ { r with sent := false, busy := true } ∈ t.stl.reqs) ∧
  (∀ (s : State) (n : Net) (a : Byte) (x : Answer) (r : Req), s.stileUp = true → x.status ≠ 0 → x.status ≠ 3 → r.op = 3 →
    (s.stl.reqs.find? fun r => r.at x.context.val (n == .hl2) a.toNat && r.tag == x.tag && r.op + 0x80 == x.op && r.onWire) = some r →
    ∃ t, exec (.remoteAnswer n a x) s = .next t ∧ r ∉ t.stl.reqs ∧ (t.ctx r.ctx).err = true ∧
      (t.ctx r.ctx).fenced r.hl2 r.station = true ∧
      (∀ i, s.freePel = some i → ∃ p, t.pel i = some p ∧ p.ctx = r.ctx ∧ p.tag = r.tag ∧ p.addr = r.addr ∧ p.far = x.status ∧
        p.outcome = false ∧ p.cause = (if x.status = 1 then 1 else if x.status = 2 then 2 else 3))) ∧
  (∀ (s : State) (n : Net) (a : Byte) (x : Fin 128) (g : Word) (r : Req), s.stileUp = true → r.op = 3 →
    (s.stl.reqs.find? fun r => r.at x.val (n == .hl2) a.toNat && r.tag == g && r.onWire) = some r →
    (s.net n).isIntegrated = true → s.respLimit n a.toNat ≤ ((s.net n).cycle - r.cycle).toNat →
    ∃ t, exec (.responseLimit n a x g) s = .next t ∧ r ∉ t.stl.reqs ∧ (t.ctx r.ctx).err = true ∧
      (t.ctx r.ctx).fenced r.hl2 r.station = true ∧
      (∀ i, s.freePel = some i → ∃ p, t.pel i = some p ∧ p.cause = (if r.busy then 5 else 4) ∧ p.outcome = true)) ∧
  (∀ (s : State) (n : Net) (a : Byte) (x : Fin 128) (g : Word) (r : Req) (h : Quad) (e : JEntry), s.stileUp = true →
    r.op = 1 ∨ r.op = 2 → r.win = none → r.h = some h → s.entry h = some e → e.committed = false → s.commitMode e = true →
    (s.stl.reqs.find? fun r => r.at x.val (n == .hl2) a.toNat && r.tag == g && r.onWire) = some r →
    (s.net n).isIntegrated = true → s.respLimit n a.toNat ≤ ((s.net n).cycle - r.cycle).toNat →
    ∃ t, exec (.responseLimit n a x g) s = .next t ∧ r ∉ t.stl.reqs ∧
      (if r.op = 1 then t.answered h stRetry (transferResult 0 0 0xFF) else t.answered h stTimeout (leBytes 4 0))) ∧
  (∀ (s : State) (x : Fin 128) (r : Req) (k w c : Nat), s.stileUp = true → r.op = 1 → r.win = some (k, w, c) →
    (s.stl.reqs.find? fun r => r.ctx == x.val && r.op == 1 &&
      match r.win with
      | some (_, _, t) => decide (t + s.readTimeout x * countsMs ≤ s.now)
      | none => false) = some r →
    ∃ t, exec (.readTimeout x) s = .next t ∧ r ∉ t.stl.reqs ∧ (t.task k).loaded = List.replicate r.len 0xFF ∧
      (t.ctx r.ctx).err = true ∧
      s.logged t srcStile 0x7012 3 ([if r.busy then 2 else 1, BitVec.ofNat 8 r.ctx, BitVec.ofNat 8 w, 0] ++ le 8 r.addr)) ∧
  (∀ (s : State) (h : Quad) (e : JEntry) (p : Pel), s.begins h 0x2081 false e → byteAt e.args 2 ≠ 0xFF →
    s.pel (byteAt e.args 2).toNat = some p → p.ctx = e.context →
    ∃ t, exec (.stileLogAck h) s = .next t ∧ t.pel (byteAt e.args 2).toNat = none ∧
      (∀ i, i ≠ (byteAt e.args 2).toNat → t.pel i = s.pel i) ∧ s.answers t h e.ring stOk (leBytes 4 (s.ctx e.context).lost.toNat) ∧
      (∀ f ∈ (t.ctx e.context).fences, f ∈ (s.ctx e.context).lostAt ∨ ∃ i q, t.pel i = some q ∧ q.ctx = e.context ∧ f = (q.hl2, q.station)) ∧
      t = { s.withAnswer t with stl := t.stl }) ∧
  (∀ (s : State) (h : Quad) (e : JEntry), s.begins h 0x2081 false e → byteAt e.args 2 ≠ 0xFF →
    s.pel (byteAt e.args 2).toNat = none →
    ∃ t, exec (.stileLogAck h) s = .next t ∧ s.answers t h e.ring stNotFound (leBytes 4 0) ∧ t = s.withAnswer t)

/-- MESSAGE_RECEIVED without a route is counted; with one, the transformed message joins the destination's queue.
MESSAGE_TRANSMITTED sends the port's next message, on CAN the lowest identifier, and answers its transfer. BUS_OFF
empties the queue of transfers with REMOTE_ERROR; BUS_OFF_RECOVERY works again. A free semaphore is acquired by an
owned context, released by its holder, and taken back with 0x7011 at its hold limit. A window access becomes a request
of its station, outside every window a refused access. SERVICE_WATCHDOG_EXPIRY counts and logs a restart of at most 2
s and ends running transfers with HW_FAULT. (R325, R329, R341, R342, R344, R345, R399) -/
def Obligations.PortsSemaphoresAndWindows : Prop :=
  (∀ (s : State) (p : Fin 10) (i : Word) (m : Bytes), s.stileUp = true → hits p (portIdent p i m) 4 s.cfg.cur.routing = [] →
    exec (.messageReceived p i m) s = .next { s with stl := { s.stl with noRoute := satInc s.stl.noRoute } }) ∧
  (∀ (s : State) (p : Fin 10) (i d : Word) (m x : Bytes) (r : Route), s.stileUp = true →
    hits p (portIdent p i m) 4 s.cfg.cur.routing = [r] → transform r.transform p (portIdent p i m) r.dstId m = some (x, d) → 4 ≤ r.dstPort.toNat → r.dstPort.toNat < 9 →
    x.length ≤ s.longestFor r.dstPort.toNat d → (s.port r.dstPort.toNat).queue.length < 64 →
    ∃ t, exec (.messageReceived p i m) s = .next t ∧
      t.port r.dstPort.toNat = { s.port r.dstPort.toNat with queue := (s.port r.dstPort.toNat).queue ++ [(d, x, none)] } ∧
      (∀ k, k ≠ r.dstPort.toNat → t.port k = s.port k) ∧ t = { s with stl := t.stl }) ∧
  (∀ (s : State) (p : Fin 10) (i : Word) (m : Bytes) (h : Quad) (e : JEntry), s.stileUp = true → p.val < 7 →
    (s.port p).state ≠ 3 → (s.port p).next (decide (p.val < 4)) = some (i, m, some h) → s.entry h = some e →
    e.committed = false → s.commitMode e = true →
    ∃ t, exec (.messageTransmitted p) s = .next t ∧ .message p i m ∈ t.sent ∧ t.answered h stOk (transferResult m.length 0 0) ∧
      (t.port p).queue = (s.port p).queue.erase (i, m, some h) ∧
      (p.val < 4 → ∀ q ∈ (s.port p).queue, i.toNat % 2 ^ 29 ≤ q.1.toNat % 2 ^ 29)) ∧
  (∀ (s : State) (p : Fin 4), s.stileUp = true →
    ∃ t, exec (.busOff p) s = .next t ∧ (t.port p).state = 3 ∧ (t.port p).tec = 0xFF ∧
      (t.port p).queue = (s.port p).queue.filter (fun x => x.2.2.isNone) ∧
      (∀ i m h e, (i, m, some h) ∈ (s.port p).queue → s.entry h = some e → e.committed = false → s.commitMode e = true →
        ∃ far, t.answered h stRemoteError (transferResult 0 0 far)) ∧ (∀ k, k ≠ p.val → t.port k = s.port k)) ∧
  (∀ (s : State) (p : Fin 4), s.stileUp = true → (s.port p).state = 3 →
    ∃ t, exec (.busOffRecovery p) s = .next t ∧ t.port p = { s.port p with state := 1, tec := 0, recErr := 0 } ∧
      (∀ k, k ≠ p.val → t.port k = s.port k) ∧ t = { s with stl := t.stl }) ∧
  (∀ (s : State) (p : Party) (k : Fin 64) (x : Fin 128), s.stileUp = true → s.ownsCtx p x = true →
    (p = .legacy → s.sys.legacyWrite = true) → (p = .part0 ∨ p = .part1 → s.sys.progSem = true) →
    ∃ t, exec (.semaphoreAcquire p k x) s = .next t ∧
      t.sem k = (if (s.sem k).held then s.sem k else ⟨BitVec.ofNat 7 x, true, s.now⟩) ∧
      (∀ j, j ≠ k.val → t.sem j = s.sem j) ∧ t = { s with stl := { s.stl with sems := t.stl.sems } }) ∧
  (∀ (s : State) (p : Party) (k : Fin 64) (x : Fin 128), s.stileUp = true → s.ownsCtx p x = true →
    (p = .legacy → s.sys.legacyWrite = true) → (p = .part0 ∨ p = .part1 → s.sys.progSem = true) →
    ∃ t, exec (.semaphoreRelease p k x) s = .next t ∧
      t.sem k = (if (s.sem k).held = true ∧ (s.sem k).owner.toNat = x.val then { s.sem k with held := false } else s.sem k) ∧
      (∀ j, j ≠ k.val → t.sem j = s.sem j) ∧ t = { s with stl := { s.stl with sems := t.stl.sems } }) ∧
  (∀ (s : State) (k : Fin 64), s.stileUp = true → (s.sem k).held = true → (s.sem k).since + s.holdLimit k * countsMs < s.now →
    ∃ t, exec (.semaphoreHoldLimit k) s = .next t ∧ t.sem k = { s.sem k with held := false } ∧
      s.logged t srcStile 0x7011 3 ([BitVec.ofNat 8 k, (s.sem k).owner.setWidth 8, 0, 0]
        ++ leBytes 4 ((s.now - (s.sem k).since) / countsMs)) ∧
      (∀ j, j ≠ k.val → t.sem j = s.sem j) ∧ t = { s with stl := { s.stl with sems := t.stl.sems }, hyk := t.hyk }) ∧
  (∀ (s : State) (k : Fin 17) (a : Quad) (n : Nat) (w : WindowCfg) (i : Nat), s.windowing k = true →
    s.windowAt (partOfTask k) a n = some (w, i) → s.inSchedule w.netOf w.station = true → (s.net w.netOf).isIntegrated = true →
    s.stationFailed w.netOf w.station = false →
    exec (.remoteWindowLoad k a n) s = .next { s with stl := { s.stl with
      reqs := s.stl.reqs ++ [windowReq s k w i a 1 n []], txTag := nextTag s.stl.txTag } }) ∧
  (∀ (s : State) (k : Fin 17) (a : Quad) (d : Bytes) (w : WindowCfg) (i : Nat), s.windowing k = true →
    s.windowAt (partOfTask k) a d.length = some (w, i) → s.inSchedule w.netOf w.station = true →
    (s.net w.netOf).isIntegrated = true → s.stationFailed w.netOf w.station = false → w.posted = false →
    exec (.remoteWindowStore k a d) s = .next { s with stl := { s.stl with
      reqs := s.stl.reqs ++ [windowReq s k w i a 2 d.length d], txTag := nextTag s.stl.txTag } }) ∧
  (∀ (s : State) (k : Fin 17) (a : Quad) (n : Nat) (d : Bytes), s.windowing k = true →
    (s.windowAt (partOfTask k) a n = none → ∃ t, exec (.remoteWindowLoad k a n) s = .next t ∧
      s.logged t srcPair 0x3005 5 ([BitVec.ofNat 8 k, 0, 0, 0] ++ le 8 a) ∧ (t.task k).haltAfter = some 0x08 ∧
      (∀ j, j ≠ k.val → t.task j = s.task j) ∧ t = { s with hyk := t.hyk, tasks := t.tasks }) ∧
    (s.windowAt (partOfTask k) a d.length = none → ∃ t, exec (.remoteWindowStore k a d) s = .next t ∧
      s.logged t srcPair 0x3005 5 ([BitVec.ofNat 8 k, 1, 0, 0] ++ le 8 a) ∧ (t.task k).haltAfter = some 0x08 ∧
      (∀ j, j ≠ k.val → t.task j = s.task j) ∧ t = { s with hyk := t.hyk, tasks := t.tasks })) ∧
  (∀ s : State, s.stileUp = true →
    ∃ t, exec .serviceWatchdogExpiry s = .next t ∧ t.stl.spRestarts = satInc s.stl.spRestarts ∧
      s.now ≤ t.stl.backAt ∧ t.stl.backAt ≤ s.now + 1000000000 ∧
      (∀ e ∈ s.journal, e.opcode = 0x2080 → e.phase = .executing → s.entry e.handle = some e →
        t.answered e.handle stHwFault (leBytes 4 0)) ∧
      ((∀ r ∈ s.stl.reqs, r.posted = false ∨ r.onWire = false) → s.logged t srcSup 0x7020 4 [1, t.stl.spRestarts]))

/-- NETWORK_CYCLE_START numbers the cycle, takes over a hub role announced, fixes the hub's outputs and sends a
starter's COLDSTART. A BEACON takes a listening node to SYNC and gives an integrated one its reference and hub. The
first valid DATA copy becomes the segment's latest buffer. A frame outside every window is stray. COLDSTART decides
between WAIT and staying by the lower address. CLAIM and a delay request are noted by the hub; an answer gives the
node its D. The first ACYCLIC copy goes to Stile, no other. SLOT_START sends the hub's frame outbound and the granted
node's inbound; the guardian refuses a start off by more than G/4, its prediction no older than 3 cycles.
ACCEPTANCE_WINDOW_END counts one of valid, invalid and empty per channel. (R125, R129, R268, R272, R273, R274, R278,
R280, R281, R291, R294, R307) -/
def Obligations.HeathlineFramesAreJudgedBySlot : Prop :=
  (∀ (s : State) (n : Net), s.netUp n = true → (s.net n).isIntegrated = true →
    ∃ t, exec (.networkCycleStart n) s = .next t ∧ (t.net n).cycle = (s.net n).cycle + 1 ∧ (t.net n).cycleAt = s.now ∧
      ((n = .hl1 ∧ s.dpx.takeHub1 = true) ∨ (n = .hl2 ∧ s.dpx.takeHub2 = true) →
        (t.net n).hub = true ∧ (t.net n).epoch = s.dpx.epoch ∧ (t.net n).hubAddr = (s.net n).addr) ∧
      ((s.net n).hub = true → s.dpx.drives = true →
        ∀ x i, (x, i) ∈ s.outSegs → srcNetOf x.source = some n → t.fixedOf i = s.sendingOf i)) ∧
  (∀ (s : State) (n : Net), s.netUp n = true → (s.net n).state = .coldstart →
    ∃ t, exec (.networkCycleStart n) s = .next t ∧ (t.net n).cycle = 0 ∧
      ∀ p : Fin 4, ∃ f, .frame n p f ∈ t.sent ∧ hType f = 3) ∧
  (∀ (s : State) (n : Net) (p : Fin 4) (at_ : Nat) (f : Bytes), s.netUp n = true → (s.net n).state = .listen →
    (s.net n).hub = false → (s.net n).beaconOk (portB p) f = true → beAt f 16 4 = (s.net n).schedId.toNat → hOut f = true →
    ∃ t, exec (.beaconFrame n p at_ f) s = .next t ∧ (t.net n).state = .sync ∧ (t.net n).cycle = hCycle f ∧
      (t.net n).epoch = hEpoch f ∧ (t.net n).refAddr = hSrc f) ∧
  (∀ (s : State) (n : Net) (p : Fin 4) (at_ : Nat) (f : Bytes) (c : SlotDesc), s.netUp n = true →
    (s.net n).state = .integrated → (s.net n).hub = false → (s.net n).beaconOk (portB p) f = true →
    beAt f 16 4 = (s.net n).schedId.toNat → hOut f = true → hCycle f = (s.net n).cycle → (s.net n).beaconNow = false →
    (if portB p then (s.net n).join.upB else (s.net n).join.upA) = some (secondPort p) →
    (s.net n).slotAt true (portB p) at_ = some c → c.kind = 0 → (s.net n).hasD (portB p) = true → (s.net n).valid c true (portB p) at_ f = true →
    ((s.net n).rxOf c.slot).on (portB p) = 0 →
    ∃ t, exec (.beaconFrame n p at_ f) s = .next t ∧ (t.net n).refAddr = hSrc f ∧ (t.net n).hubAddr = beaconHub f ∧
      ((t.net n).state = .integrated ∨ (t.net n).lossCause = 3)) ∧
  (∀ (s : State) (n : Net) (p : Fin 4) (at_ : Nat) (f : Bytes) (c : SlotDesc) (y : Segment) (i : Nat), s.netUp n = true →
    (s.net n).hub = true → (s.net n).isIntegrated = true → (s.arrive n p at_ f).2 = some (c, false) → hType f = 2 →
    (s.net n).firstCopy c.slot (portB p) = true → s.feeds n c false = true → s.slotSegment n false c.slot = some (y, i) →
    y.station = (hSrc f).toNat → y.size = (hBody f).length →
    ∃ t, exec (.dataFrame n p at_ f) s = .next t ∧ (t.inSeg i).last = padTo y.size (hBody f) ∧ (t.inSeg i).age = 0 ∧
      ((s.inSeg i).subst = false → (t.inSeg i).raw = padTo y.size (hBody f) ∧ (t.inSeg i).valid = true)) ∧
  (∀ (s : State) (n : Net) (p : Fin 4) (at_ : Nat) (f : Bytes) (i : Instr), s.netUp n = true → (s.net n).hub = true →
    (s.net n).isIntegrated = true → (s.net n).join.startPhase = false → (s.net n).chainPort p = true →
    (s.net n).slotAt false (portB p) at_ = none →
    i = .dataFrame n p at_ f ∨ i = .claimFrame n p at_ f ∨ i = .acyclicFrame n p at_ f ∨ i = .delayFrame n p at_ f →
    exec i s = .next (s.modNet n fun x => if portB p then { x with strayB := satInc x.strayB } else { x with strayA := satInc x.strayA })) ∧
  (∀ (s : State) (n : Net) (p : Fin 4) (at_ : Nat) (f : Bytes), s.netUp n = true → hdrOk f = true → crcOk f = true →
    hType f = 3 → byteAt f 1 = (s.net n).netId → hSlot f = 0 → hCycle f = 0 → s.starter n (hSrc f) = true →
    hGen f = (s.net n).gen.toNat → beAt f 16 4 = (s.net n).schedId.toNat → hSrc f ≠ (s.net n).addr →
    ((s.net n).state = .listen ∨ (s.net n).state = .wait ∨
        ((s.net n).state = .coldstart ∧ (hSrc f).toNat < (s.net n).addr.toNat) →
      ∃ t, exec (.coldstartFrame n p at_ f) s = .next t ∧ (t.net n).state = .wait ∧ (t.net n).since = s.now) ∧
    ((s.net n).state = .coldstart → (s.net n).addr.toNat ≤ (hSrc f).toNat →
      ∃ t, exec (.coldstartFrame n p at_ f) s = .next t ∧ t.net n = s.net n)) ∧
  (∀ (s : State) (n : Net) (p : Fin 4) (at_ : Nat) (f : Bytes) (c : SlotDesc) (k : Schedule), s.netUp n = true →
    (s.net n).hub = true → (s.net n).isIntegrated = true → (s.arrive n p at_ f).2 = some (c, false) → hType f = 4 →
    hLen f = 16 → beAt f 16 4 = (s.net n).schedId.toNat → beAt f 20 2 = c.slot → (s.net n).sched = some k →
    (hSrc f).toNat ∉ k.stations → (∀ g, g ∈ (s.net n).grants → g.2.1 ≠ hSrc f) →
    ∃ t m, exec (.claimFrame n p at_ f) s = .next t ∧ (c.slot, hSrc f, m, (s.net n).cycle) ∈ (t.net n).claims ∧
      (∀ m0 c0, (s.net n).claims = [(c.slot, hSrc f, m0, c0)] →
        m = if c0 = (s.net n).cycle then m0 else if c0 + 1 = (s.net n).cycle then m0 + 1 else 1) ∧
      ((∀ k ∈ (s.net n).claims, k.1 ≠ c.slot ∨ k.2.1 ≠ hSrc f) → m = 1)) ∧
  (∀ (s : State) (n : Net) (p : Fin 4) (at_ : Nat) (f : Bytes) (c : SlotDesc), s.netUp n = true →
    (s.net n).hub = true → (s.net n).isIntegrated = true → (s.net n).join.startPhase = false →
    (s.arrive n p at_ f).2 = some (c, false) → c.kind = 6 → byteAt f 16 = 0 → byteAt f 18 = (s.net n).addr →
    ∃ t a, exec (.delayFrame n p at_ f) s = .next t ∧ a ∈ (t.net n).join.asks ∧ a.addr = hSrc f ∧ a.seq = byteAt f 17 ∧
      (if portB p then a.t2b else a.t2a) = some ((s.net n).cycleTime + at_)) ∧
  (∀ (s : State) (n : Net) (p : Fin 4) (at_ : Nat) (f : Bytes) (ta tb : Int) (e : Nat), s.netUp n = true →
    (s.net n).hub = false → (s.net n).state = .sync → (s.net n).delayOk f = true → hOut f = true →
    ((s.net n).join.asked.find? fun r => r.2.2 == byteAt f 17) = some (ta, tb, byteAt f 17) → byteAt f 16 = 1 → byteAt f 18 = (s.net n).addr →
    2 * (e : Int) = (s.net n).cycleTime + at_ - (if portB p then tb else ta) - ((beAt f 28 8 : Int) - (beAt f 20 8 : Int)) % 2 ^ 64 →
    ∃ t, exec (.delayFrame n p at_ f) s = .next t ∧ (t.net n).state = .observe ∧
      (if portB p then (t.net n).dB else (t.net n).dA) = some e) ∧
  (∀ (s : State) (n : Net) (p : Fin 4) (at_ : Nat) (f : Bytes) (c : SlotDesc), s.netUp n = true → (s.net n).hub = true →
    (s.net n).isIntegrated = true → (s.arrive n p at_ f).2 = some (c, false) → c.kind = 4 →
    exec (.acyclicFrame n p at_ f) s = .next (if (s.net n).firstCopy c.slot (portB p) then
      ((s.arrive n p at_ f).1.noteReady n f).acyclicIn n (hSrc f) (hBody f) else (s.arrive n p at_ f).1.noteReady n f)) ∧
  (∀ (s : State) (n : Net) (slot : Fin 4096) (c : SlotDesc) (a b : Int), s.netUp n = true → (s.net n).isIntegrated = true →
    (s.net n).slot slot = some c → (s.net n).state = .reference ∨ (s.net n).noBeacon ≤ 3 →
    ((s.net n).sends c = false → exec (.slotStart n slot a b) s = .next s) ∧
    ((s.net n).sends c = true → (s.net n).hub = true → c.kind = 0 ∨ c.kind = 2 → ∃ t, exec (.slotStart n slot a b) s = .next t ∧
      (4 * a.natAbs ≤ (s.net n).guard → (t.net n).refusedA = (s.net n).refusedA ∧ ∃ f, .frame n 0 f ∈ t.sent ∧
        hType f = (if c.kind = 0 then 1 else 2) ∧ hOut f = true) ∧
      ((s.net n).guard < 4 * a.natAbs → (t.net n).refusedA = satInc (s.net n).refusedA ∧
        (t.net n).refusals.length = (s.net n).refusals.length + (if (s.net n).guard < 4 * b.natAbs then 2 else 1) ∧
        ∀ p f, p < 2 → .frame n p f ∈ t.sent → .frame n p f ∈ s.sent))) ∧
  (∀ (s : State) (n : Net) (slot : Fin 4096) (c : SlotDesc) (q : Nat), s.netUp n = true → (s.net n).isIntegrated = true →
    (s.net n).hub = false → (s.net n).slot slot = some c → c.kind = 3 → (s.net n).own = some slot.val →
    (s.net n).upPort false = [q] → (s.net n).state = .reference ∨ (s.net n).noBeacon ≤ 3 →
    ∃ t f, exec (.slotStart n slot 0 0) s = .next t ∧ .frame n q f ∈ t.sent ∧ hType f = 2 ∧ hOut f = false) ∧
  (∀ (s : State) (n : Net) (slot : Fin 4096) (c : SlotDesc), s.netUp n = true → (s.net n).isIntegrated = true →
    (s.net n).slot slot = some c → (s.net n).expects c = true → ((s.net n).rxOf slot).a ≠ 3 →
    ∃ t, exec (.acceptanceWindowEnd n slot) s = .next t ∧
      (t.net n).counters = Tbl.upd (fun _ => SlotCnt.reset) (s.net n).counters slot (·.count ((s.net n).rxOf slot)) ∧
      ((t.net n).rxOf slot).a = 3)

/-- LISTEN_TIMEOUT after 8 cycles and 1 ms starts COLDSTART with its frames, COLDSTART_WINDOW_END after 8 cycles makes
the starter the reference, WAIT_TIMEOUT and OBSERVE_TIMEOUT after 16 cycles lead back to LISTEN and SYNC, D discarded.
BEACON_LOSS after 4 cycles and GUARDIAN_LIMIT after 8 refusals lead to LISTEN with causes 1 and 2;
HUB_ASSUMES_REFERENCE after 2 cycles. Before its limit a command changes nothing. RING_SPLIT sets the split of its
channel, CLAIM_ABANDONED picks again, GRANT_RELEASED ends grants missed for 256 cycles and no others, LINK_CHANGE
keeps the link state. (R257, R263, R278, R279, R287, R292, R293, R294, R295) -/
def Obligations.HeathlineLimitsChangeTheState : Prop :=
  (∀ (s : State) (n : Net), s.netUp n = true → (s.net n).state = .listen →
    ∃ t, exec (.listenTimeout n) s = .next t ∧
      (s.now < (s.net n).since + (s.net n).cyclesCounts 8 + countsMs → t = s) ∧
      ((s.net n).since + (s.net n).cyclesCounts 8 + countsMs ≤ s.now →
        (t.net n).state = .coldstart ∧ (t.net n).attempt = satInc (s.net n).attempt ∧ (t.net n).cycle = 0 ∧
        (t.net n).since = s.now ∧ ∀ p : Fin 4, ∃ f, .frame n p f ∈ t.sent ∧ hType f = 3)) ∧
  (∀ (s : State) (n : Net), s.netUp n = true → (s.net n).state = .coldstart →
    ∃ t, exec (.coldstartWindowEnd n) s = .next t ∧ (s.now < (s.net n).since + (s.net n).cyclesCounts 8 → t = s) ∧
      ((s.net n).since + (s.net n).cyclesCounts 8 ≤ s.now →
        (t.net n).state = .reference ∧ (t.net n).refAddr = (s.net n).addr ∧ (t.net n).cycle + 1 = 0 ∧ (t.net n).grants = [] ∧
        (t.net n).splitA = false ∧ (t.net n).splitB = false ∧ t.sys.event.getLsbD 6 = true)) ∧
  (∀ (s : State) (n : Net), s.netUp n = true → (s.net n).state = .wait →
    ∃ t, exec (.waitTimeout n) s = .next t ∧ (s.now < (s.net n).since + (s.net n).cyclesCounts 16 → t = s) ∧
      ((s.net n).since + (s.net n).cyclesCounts 16 ≤ s.now → (t.net n).state = .listen ∧ (t.net n).since = s.now)) ∧
  (∀ (s : State) (n : Net), s.netUp n = true → (s.net n).state = .observe →
    ∃ t, exec (.observeTimeout n) s = .next t ∧ (s.now < (s.net n).since + (s.net n).cyclesCounts 16 → t = s) ∧
      ((s.net n).since + (s.net n).cyclesCounts 16 ≤ s.now →
        (t.net n).state = .sync ∧ (t.net n).dA = none ∧ (t.net n).dB = none)) ∧
  (∀ (s : State) (n : Net), s.netUp n = true →
    (s.net n).state = .sync ∨ (s.net n).state = .observe ∨ (s.net n).state = .integrated →
    ∃ t, exec (.beaconLoss n) s = .next t ∧ ((s.net n).noBeacon < 4 → t = s) ∧
      (4 ≤ (s.net n).noBeacon → (t.net n).state = .listen ∧ (t.net n).lossCause = 1 ∧
        (t.net n).losses = satInc (s.net n).losses ∧ (t.net n).dA = (s.net n).dA ∧ (t.net n).dB = (s.net n).dB ∧
        (t.net n).since = s.now ∧ ((s.net n).state = .integrated → t.sys.event.getLsbD 6 = true))) ∧
  (∀ (s : State) (n : Net), s.netUp n = true → (s.net n).hub = true → (s.net n).state = .integrated →
    ∃ t, exec (.hubAssumesReference n) s = .next t ∧ ((s.net n).noBeacon < 2 → t = s) ∧
      (2 ≤ (s.net n).noBeacon → (t.net n).state = .reference ∧ (t.net n).refAddr = (s.net n).addr)) ∧
  (∀ (s : State) (n : Net), s.netUp n = true → (s.net n).isIntegrated = true →
    ∃ t, exec (.guardianLimit n) s = .next t ∧ ((s.net n).refusals.length < 8 → t = s) ∧
      (8 ≤ (s.net n).refusals.length → (t.net n).state = .listen ∧ (t.net n).lossCause = 2 ∧
        (t.net n).leaves = satInc (s.net n).leaves ∧ (t.net n).refusals = [])) ∧
  (∀ (s : State) (n : Net), s.netUp n = true → (s.net n).hub = true → (s.net n).isIntegrated = true → (s.net n).port2 = 2 →
    (2 ≤ (s.net n).ringMissA → exec (.ringSplit n .a) s = .next (s.modNet n fun x => { x with splitA := true })) ∧
    (2 ≤ (s.net n).ringMissB → exec (.ringSplit n .b) s = .next (s.modNet n fun x => { x with splitB := true })) ∧
    ((s.net n).ringMissA < 2 → exec (.ringSplit n .a) s = .next s)) ∧
  (∀ (s : State) (n : Net) (j k : Nat), s.netUp n = true → (s.net n).claim = some (j, k) →
    exec (.claimAbandoned n) s = .next (if 8 ≤ k then s.modNet n fun x => { x with claim := (s.net n).pick.map fun i => (i, 0) } else s)) ∧
  (∀ (s : State) (n : Net) (slot : Fin 4096), s.netUp n = true → (s.net n).hub = true →
    ∃ t, exec (.grantReleased n slot) s = .next t ∧
      ∀ g, g ∈ (t.net n).grants ↔ g ∈ (s.net n).grants ∧ ¬ (g.1 = slot.val ∧ 256 ≤ g.2.2.2)) ∧
  (∀ (s : State) (n : Net) (p : Fin 4) (up m : Bool), s.domOn 4 = true →
    ∃ t, exec (.linkChange n p up m) s = .next t ∧ (∀ q : Fin 4, (t.net n).linkUp.getLsbD q =
        if q = p then up else (s.net n).linkUp.getLsbD q) ∧
      (t.net n).master.getLsbD p = (up && m && (s.net n).gen == 2) ∧ (t.net n).state = (s.net n).state)

/-- A write of SYS_RESTART with KEY 0xA5 in HALT that sets both WARM and COLD begins a cold start; a write in any
other mode has no effect but its record in Hayrick (0x1005). HALT for want of trusted firmware, which restarts through
USB only (R55), is left out. (R52) -/
def Obligations.SysRestartColdWins : Prop :=
  (∀ (s : State) (v : Word), s.domOn 5 = true → s.sys.mode = .halt → s.sys.haltCause ≠ 2 →
    (v >>> 8).setWidth 8 = (0xA5 : Byte) → v.getLsbD 0 = true → v.getLsbD 1 = true →
    ∃ t, exec (.sysRestartCold .pcie v) s = .next t ∧ exec (.sysRestartWarm .pcie v) s = .next t ∧ s.starts t .cold) ∧
  (∀ (s : State) (v : Word), s.domOn 5 = true → s.sys.mode ≠ .halt →
    ∃ t, exec (.sysRestartCold .pcie v) s = .next t ∧ exec (.sysRestartWarm .pcie v) s = .next t ∧
      s.logged t srcSup 0x1005 3 [(modeCode s.sys.mode).setWidth 8, v.setWidth 8, (v >>> 8).setWidth 8] ∧
      t = { s with hyk := t.hyk })

/-- A host write of SYS_EVENT clears the bits it names, one of SYS_EVENT_MASK sets the mask; if an unmasked bit is
then still set, vector 9 is raised again (its message, or its pending bit while masked). Setting a bit raises vector 9
exactly when the unmasked set turns from empty to non-empty. HOSTCFG_LOCK, a host write of SYS_HOSTCFG: while LOCK is
clear every field takes its bit, LOCK included; once LOCK is set the register ignores writes. (R437, R433, R434, R436)
-/
def Obligations.EventBitsMaskAndHostConfiguration : Prop :=
  (∀ (s : State) (v : Word), s.domOn 5 = true →
    let u : State := { s with sys := { s.sys with event := s.sys.event &&& ~~~ v.setWidth 8 } }
    exec (.sysEventClear .pcie v) s = .next (if u.sys.eventsOn = 0 then u else
      if s.host.masked 9 then { u with host := { s.host with pba := s.host.pba ||| (1 <<< 9) } }
      else { u with sent := .msix 9 :: s.sent })) ∧
  (∀ (s : State) (v : Word), s.domOn 5 = true →
    let u : State := { s with sys := { s.sys with eventMask := v.setWidth 8 } }
    exec (.sysEventMaskWrite .pcie v) s = .next (if u.sys.eventsOn = 0 then u else
      if s.host.masked 9 then { u with host := { s.host with pba := s.host.pba ||| (1 <<< 9) } }
      else { u with sent := .msix 9 :: s.sent })) ∧
  (∀ (s : State) (k : Nat), s.domOn 5 = true → s.host.masked 9 = false →
    (s.setEvent k).sent = (if s.sys.eventsOn = 0 ∧ (s.setEvent k).sys.eventsOn ≠ 0 then .msix 9 :: s.sent else s.sent)) ∧
  (∀ (s : State) (v : Word), s.domOn 5 = true →
    exec (.hostcfgLock .pcie v) s = .next (if s.sys.lock then s else { s with sys := { s.sys with
      progSem := v.getLsbD 0, progW1c := v.getLsbD 1, legacyWrite := v.getLsbD 2, lock := v.getLsbD 31 } }))

/-- PIN and PIN_CLEAR written through PCI Express and through the legacy path (LEGACY_WRITE set) give the same state:
the version promoted most recently is pinned, or the pinned one released; SWD_SNAPLOCK and SWD_SNAPVER then read the
same on both paths. (R435) -/
def Obligations.OnePinForBothPaths : Prop :=
  ∀ s : State, s.domOn 5 = true → s.sys.legacyWrite = true → s.sys.mode ≠ .halt → s.sys.substate ≠ 6 →
    (∃ t, exec (.pin .pcie) s = .next t ∧ exec (.pin .legacy) s = .next t ∧ t.swd.pin = true ∧
      t.swd.pinned = (if s.swd.pinned.isSome then s.swd.pinned else if s.swd.promoted then some s.swd.version else none) ∧
      t.reg .pcie 0x1008 = t.reg .legacy 0x1008 ∧ t.reg .pcie 0x100C = t.reg .legacy 0x100C ∧ t = { s with swd := t.swd }) ∧
    (∃ t, exec (.pinClear .pcie) s = .next t ∧ exec (.pinClear .legacy) s = .next t ∧ t.swd.pin = false ∧
      t.swd.pinned = none ∧ t.reg .pcie 0x1008 = t.reg .legacy 0x1008 ∧ t.reg .pcie 0x100C = t.reg .legacy 0x100C ∧
      t = { s with swd := t.swd })

/-- The VARIANT field of SYS_ID reads the variant fixed at manufacture for every party that reads the register, and
every command leaves it, so that no write and no event changes the field. (R4) -/
def Obligations.VariantIsFixed : Prop :=
  (∀ (s : State) (p : Party) (w : Word), s.reg p 0 = some w → (w >>> 20).setWidth 4 = s.mfg.variant.setWidth 4) ∧
  (∀ (s t : State) (c : Instr), exec c s = .next t → t.mfg.variant = s.mfg.variant)

/-- SLOT_COUNTER_CAPTURE keeps the counters of the slot, TBU_CAPTURE the count with both scales, HAYRICK_CAPTURE the
written and dropped counts, each for the party that reads; nothing else changes, and a party without captures changes
nothing. (R274, R349, R432) -/
def Obligations.CapturesFreeze : Prop :=
  (∀ (s : State) (p : Party) (i : Nat), s.lifeline = false → s.partyUp p = true → partyIx p = some i →
    exec (.tbuCapture p) s = .next { s with host := { s.host with
      tbuCap := Tbl.set (fun _ => (0, 0, 0)) s.host.tbuCap i (s.now, s.plantNow, s.netNow) } }) ∧
  (∀ (s : State) (p : Party) (i : Nat), s.lifeline = false → s.partyUp p = true → partyIx p = some i →
    exec (.hayrickCapture p) s = .next { s with host := { s.host with
      hykCap := Tbl.set (fun _ => (0, 0)) s.host.hykCap i (s.hyk.written, s.hyk.dropped) } }) ∧
  (∀ (s : State) (p : Party) (i : Nat) (n : Net) (k : Fin 4096), s.lifeline = false → s.partyUp p = true →
    partyIx p = some i →
    exec (.slotCounterCapture p n k) s = .next { s with host := { s.host with
      slotCap := Tbl.set (fun _ => none) s.host.slotCap (capIx i n) (some (k.val, ((s.net n).cnt k).words)) } })

/-- REGISTER_WRITE of a whole aligned word acts as the register does (shown for SYS_EVENT_MASK and RING_DOORBELL_n); a
narrower one is only recorded (0x2001, reason 2). Bytes enabled in a command ring of the writer are stored, every
other byte of ring memory stays. PCIE_LINK_RESET clears the MSI-X table and pending bits alone. (R58, R431, R434,
R439) -/
def Obligations.RegisterWritesReachTheirFields : Prop :=
  (∀ (s : State) (data : Bytes), s.domOn 5 = true → data.length = 4 →
    exec (.registerWrite .pcie 0x1C 0x0F data) s = exec (.sysEventMaskWrite .pcie (BitVec.ofNat 32 (leNat data))) s) ∧
  (∀ (s : State) (n : Fin 32) (data : Bytes), s.domOn 5 = true → s.lifeline = false → data.length = 4 →
    exec (.registerWrite .pcie (0x10008 + n.val * 0x800) 0x0F data) s =
      exec (.doorbellWrite .pcie n (BitVec.ofNat 32 (leNat data))) s) ∧
  (∀ (s : State) (be : Byte) (data : Bytes), s.domOn 5 = true → be &&& 0x0F ≠ 0x0F →
    ∃ t, exec (.registerWrite .pcie 0x1C be data) s = .next t ∧ t = { s with hyk := t.hyk } ∧
      s.logged t srcHost 0x2001 3 ([0, 2, 0, 0] ++ leBytes 4 0x1C ++ le 4 (BitVec.ofNat 32 (leNat data) : Word))) ∧
  (∀ (s : State) (n : Fin 8) (o : Nat) (be : Byte) (data : Bytes), s.domOn 5 = true → s.mailboxUp = true →
    s.lifeline = false → (s.ring n).enabled = true → (s.ring n).base.toNat * 64 ≤ o →
    o + data.length ≤ (s.ring n).base.toNat * 64 + (s.ring n).depth * 64 → o + data.length ≤ 0x100000 → data.length ≤ 8 →
    ∃ t, exec (.registerWrite .pcie (0x100000 + o) be data) s = .next t ∧
      (∀ k, k < data.length → be.getLsbD k = true → Tbl.get byte0 t.mem.ring (o + k) = byteAt data k) ∧
      (∀ a, (∀ k, k < data.length → be.getLsbD k = true → a ≠ o + k) →
        Tbl.get byte0 t.mem.ring a = Tbl.get byte0 s.mem.ring a) ∧
      t = { s with mem := { s.mem with ring := t.mem.ring } }) ∧
  (∀ s : State, s.domOn 5 = true →
    exec .pcieLinkReset s = .next { s with host := { s.host with msixTable := [], pba := 0 } })

/-- LEGACY_LOW_HALF_READ of a register latches the whole register and drops the write latch; LEGACY_LOW_HALF_WRITE of
a register latches the half and writes nothing; LEGACY_HIGH_HALF_WRITE writes the 32-bit word of the latched low half
(0 when none is latched for it) and its own half, shown for SYS_EVENT_MASK. (R440, R441, R442) -/
def Obligations.LegacyHalvesMakeAWord : Prop :=
  (∀ (s : State) (a : BitVec 24), s.legacyHit a = true → a.toNat % 65536 = 0x1C → s.lifeline = false →
    ∃ t, exec (.legacyLowHalfRead a) s = .next t ∧ t.host.writeLatch = none ∧
      t.host.readLatch = some (a.toNat, s.sys.eventMask.setWidth 32) ∧
      t = { s with host := { s.host with readLatch := t.host.readLatch, writeLatch := none } }) ∧
  (∀ (s : State) (a : BitVec 24) (v : BitVec 16), s.legacyHit a = true → a.toNat % 65536 = 0x1C →
    exec (.legacyLowHalfWrite a v) s =
      .next { s with host := { s.host with readLatch := none, writeLatch := some (a, v) } }) ∧
  (∀ (s : State) (a b : BitVec 24) (lo hi : BitVec 16), s.legacyHit b = true → b.toNat % 65536 = 0x1E →
    s.host.writeLatch = some (a, lo) → a.toNat + 2 = b.toNat →
    exec (.legacyHighHalfWrite b hi) s =
      exec (.sysEventMaskWrite .legacy (hi ++ lo)) { s with host := { s.host with readLatch := none, writeLatch := none } })
end

