-- ==== Sys2Proof/Laws/State.lean ====
section
/-! SUPPORT. What each update of one part of the state leaves alone, and what it writes. -/

namespace Sys2Proof.Machine

@[simp] theorem State.modMfg_pending (s : State) (f : Mfg → Mfg) : (s.modMfg f).pending = s.pending := rfl
@[simp] theorem State.modMfg_free (s : State) (f : Mfg → Mfg) : (s.modMfg f).free = s.free := rfl
@[simp] theorem State.modMfg_sent (s : State) (f : Mfg → Mfg) : (s.modMfg f).sent = s.sent := rfl
@[simp] theorem State.modMfg_mfg (s : State) (f : Mfg → Mfg) : (s.modMfg f).mfg = f s.mfg := rfl
@[simp] theorem State.modMfg_pwr (s : State) (f : Mfg → Mfg) : (s.modMfg f).pwr = s.pwr := rfl
@[simp] theorem State.modMfg_tbu (s : State) (f : Mfg → Mfg) : (s.modMfg f).tbu = s.tbu := rfl
@[simp] theorem State.modMfg_hyk (s : State) (f : Mfg → Mfg) : (s.modMfg f).hyk = s.hyk := rfl
@[simp] theorem State.modMfg_sys (s : State) (f : Mfg → Mfg) : (s.modMfg f).sys = s.sys := rfl
@[simp] theorem State.modMfg_host (s : State) (f : Mfg → Mfg) : (s.modMfg f).host = s.host := rfl
@[simp] theorem State.modMfg_mem (s : State) (f : Mfg → Mfg) : (s.modMfg f).mem = s.mem := rfl
@[simp] theorem State.modMfg_cfg (s : State) (f : Mfg → Mfg) : (s.modMfg f).cfg = s.cfg := rfl
@[simp] theorem State.modMfg_prog (s : State) (f : Mfg → Mfg) : (s.modMfg f).prog = s.prog := rfl
@[simp] theorem State.modMfg_swd (s : State) (f : Mfg → Mfg) : (s.modMfg f).swd = s.swd := rfl
@[simp] theorem State.modMfg_tri (s : State) (f : Mfg → Mfg) : (s.modMfg f).tri = s.tri := rfl
@[simp] theorem State.modMfg_cpr (s : State) (f : Mfg → Mfg) : (s.modMfg f).cpr = s.cpr := rfl
@[simp] theorem State.modMfg_fld (s : State) (f : Mfg → Mfg) : (s.modMfg f).fld = s.fld := rfl
@[simp] theorem State.modMfg_hl1 (s : State) (f : Mfg → Mfg) : (s.modMfg f).hl1 = s.hl1 := rfl
@[simp] theorem State.modMfg_hl2 (s : State) (f : Mfg → Mfg) : (s.modMfg f).hl2 = s.hl2 := rfl
@[simp] theorem State.modMfg_dpx (s : State) (f : Mfg → Mfg) : (s.modMfg f).dpx = s.dpx := rfl
@[simp] theorem State.modMfg_stl (s : State) (f : Mfg → Mfg) : (s.modMfg f).stl = s.stl := rfl
@[simp] theorem State.modMfg_upd (s : State) (f : Mfg → Mfg) : (s.modMfg f).upd = s.upd := rfl
@[simp] theorem State.modMfg_bst (s : State) (f : Mfg → Mfg) : (s.modMfg f).bst = s.bst := rfl
@[simp] theorem State.modMfg_saf (s : State) (f : Mfg → Mfg) : (s.modMfg f).saf = s.saf := rfl
@[simp] theorem State.modMfg_rings (s : State) (f : Mfg → Mfg) : (s.modMfg f).rings = s.rings := rfl
@[simp] theorem State.modMfg_journal (s : State) (f : Mfg → Mfg) : (s.modMfg f).journal = s.journal := rfl
@[simp] theorem State.modMfg_tasks (s : State) (f : Mfg → Mfg) : (s.modMfg f).tasks = s.tasks := rfl
@[simp] theorem State.modPwr_pending (s : State) (f : Pwr → Pwr) : (s.modPwr f).pending = s.pending := rfl
@[simp] theorem State.modPwr_free (s : State) (f : Pwr → Pwr) : (s.modPwr f).free = s.free := rfl
@[simp] theorem State.modPwr_sent (s : State) (f : Pwr → Pwr) : (s.modPwr f).sent = s.sent := rfl
@[simp] theorem State.modPwr_mfg (s : State) (f : Pwr → Pwr) : (s.modPwr f).mfg = s.mfg := rfl
@[simp] theorem State.modPwr_pwr (s : State) (f : Pwr → Pwr) : (s.modPwr f).pwr = f s.pwr := rfl
@[simp] theorem State.modPwr_tbu (s : State) (f : Pwr → Pwr) : (s.modPwr f).tbu = s.tbu := rfl
@[simp] theorem State.modPwr_hyk (s : State) (f : Pwr → Pwr) : (s.modPwr f).hyk = s.hyk := rfl
@[simp] theorem State.modPwr_sys (s : State) (f : Pwr → Pwr) : (s.modPwr f).sys = s.sys := rfl
@[simp] theorem State.modPwr_host (s : State) (f : Pwr → Pwr) : (s.modPwr f).host = s.host := rfl
@[simp] theorem State.modPwr_mem (s : State) (f : Pwr → Pwr) : (s.modPwr f).mem = s.mem := rfl
@[simp] theorem State.modPwr_cfg (s : State) (f : Pwr → Pwr) : (s.modPwr f).cfg = s.cfg := rfl
@[simp] theorem State.modPwr_prog (s : State) (f : Pwr → Pwr) : (s.modPwr f).prog = s.prog := rfl
@[simp] theorem State.modPwr_swd (s : State) (f : Pwr → Pwr) : (s.modPwr f).swd = s.swd := rfl
@[simp] theorem State.modPwr_tri (s : State) (f : Pwr → Pwr) : (s.modPwr f).tri = s.tri := rfl
@[simp] theorem State.modPwr_cpr (s : State) (f : Pwr → Pwr) : (s.modPwr f).cpr = s.cpr := rfl
@[simp] theorem State.modPwr_fld (s : State) (f : Pwr → Pwr) : (s.modPwr f).fld = s.fld := rfl
@[simp] theorem State.modPwr_hl1 (s : State) (f : Pwr → Pwr) : (s.modPwr f).hl1 = s.hl1 := rfl
@[simp] theorem State.modPwr_hl2 (s : State) (f : Pwr → Pwr) : (s.modPwr f).hl2 = s.hl2 := rfl
@[simp] theorem State.modPwr_dpx (s : State) (f : Pwr → Pwr) : (s.modPwr f).dpx = s.dpx := rfl
@[simp] theorem State.modPwr_stl (s : State) (f : Pwr → Pwr) : (s.modPwr f).stl = s.stl := rfl
@[simp] theorem State.modPwr_upd (s : State) (f : Pwr → Pwr) : (s.modPwr f).upd = s.upd := rfl
@[simp] theorem State.modPwr_bst (s : State) (f : Pwr → Pwr) : (s.modPwr f).bst = s.bst := rfl
@[simp] theorem State.modPwr_saf (s : State) (f : Pwr → Pwr) : (s.modPwr f).saf = s.saf := rfl
@[simp] theorem State.modPwr_rings (s : State) (f : Pwr → Pwr) : (s.modPwr f).rings = s.rings := rfl
@[simp] theorem State.modPwr_journal (s : State) (f : Pwr → Pwr) : (s.modPwr f).journal = s.journal := rfl
@[simp] theorem State.modPwr_tasks (s : State) (f : Pwr → Pwr) : (s.modPwr f).tasks = s.tasks := rfl
@[simp] theorem State.modTbu_pending (s : State) (f : Tbu → Tbu) : (s.modTbu f).pending = s.pending := rfl
@[simp] theorem State.modTbu_free (s : State) (f : Tbu → Tbu) : (s.modTbu f).free = s.free := rfl
@[simp] theorem State.modTbu_sent (s : State) (f : Tbu → Tbu) : (s.modTbu f).sent = s.sent := rfl
@[simp] theorem State.modTbu_mfg (s : State) (f : Tbu → Tbu) : (s.modTbu f).mfg = s.mfg := rfl
@[simp] theorem State.modTbu_pwr (s : State) (f : Tbu → Tbu) : (s.modTbu f).pwr = s.pwr := rfl
@[simp] theorem State.modTbu_tbu (s : State) (f : Tbu → Tbu) : (s.modTbu f).tbu = f s.tbu := rfl
@[simp] theorem State.modTbu_hyk (s : State) (f : Tbu → Tbu) : (s.modTbu f).hyk = s.hyk := rfl
@[simp] theorem State.modTbu_sys (s : State) (f : Tbu → Tbu) : (s.modTbu f).sys = s.sys := rfl
@[simp] theorem State.modTbu_host (s : State) (f : Tbu → Tbu) : (s.modTbu f).host = s.host := rfl
@[simp] theorem State.modTbu_mem (s : State) (f : Tbu → Tbu) : (s.modTbu f).mem = s.mem := rfl
@[simp] theorem State.modTbu_cfg (s : State) (f : Tbu → Tbu) : (s.modTbu f).cfg = s.cfg := rfl
@[simp] theorem State.modTbu_prog (s : State) (f : Tbu → Tbu) : (s.modTbu f).prog = s.prog := rfl
@[simp] theorem State.modTbu_swd (s : State) (f : Tbu → Tbu) : (s.modTbu f).swd = s.swd := rfl
@[simp] theorem State.modTbu_tri (s : State) (f : Tbu → Tbu) : (s.modTbu f).tri = s.tri := rfl
@[simp] theorem State.modTbu_cpr (s : State) (f : Tbu → Tbu) : (s.modTbu f).cpr = s.cpr := rfl
@[simp] theorem State.modTbu_fld (s : State) (f : Tbu → Tbu) : (s.modTbu f).fld = s.fld := rfl
@[simp] theorem State.modTbu_hl1 (s : State) (f : Tbu → Tbu) : (s.modTbu f).hl1 = s.hl1 := rfl
@[simp] theorem State.modTbu_hl2 (s : State) (f : Tbu → Tbu) : (s.modTbu f).hl2 = s.hl2 := rfl
@[simp] theorem State.modTbu_dpx (s : State) (f : Tbu → Tbu) : (s.modTbu f).dpx = s.dpx := rfl
@[simp] theorem State.modTbu_stl (s : State) (f : Tbu → Tbu) : (s.modTbu f).stl = s.stl := rfl
@[simp] theorem State.modTbu_upd (s : State) (f : Tbu → Tbu) : (s.modTbu f).upd = s.upd := rfl
@[simp] theorem State.modTbu_bst (s : State) (f : Tbu → Tbu) : (s.modTbu f).bst = s.bst := rfl
@[simp] theorem State.modTbu_saf (s : State) (f : Tbu → Tbu) : (s.modTbu f).saf = s.saf := rfl
@[simp] theorem State.modTbu_rings (s : State) (f : Tbu → Tbu) : (s.modTbu f).rings = s.rings := rfl
@[simp] theorem State.modTbu_journal (s : State) (f : Tbu → Tbu) : (s.modTbu f).journal = s.journal := rfl
@[simp] theorem State.modTbu_tasks (s : State) (f : Tbu → Tbu) : (s.modTbu f).tasks = s.tasks := rfl
@[simp] theorem State.modHyk_pending (s : State) (f : Hyk → Hyk) : (s.modHyk f).pending = s.pending := rfl
@[simp] theorem State.modHyk_free (s : State) (f : Hyk → Hyk) : (s.modHyk f).free = s.free := rfl
@[simp] theorem State.modHyk_sent (s : State) (f : Hyk → Hyk) : (s.modHyk f).sent = s.sent := rfl
@[simp] theorem State.modHyk_mfg (s : State) (f : Hyk → Hyk) : (s.modHyk f).mfg = s.mfg := rfl
@[simp] theorem State.modHyk_pwr (s : State) (f : Hyk → Hyk) : (s.modHyk f).pwr = s.pwr := rfl
@[simp] theorem State.modHyk_tbu (s : State) (f : Hyk → Hyk) : (s.modHyk f).tbu = s.tbu := rfl
@[simp] theorem State.modHyk_hyk (s : State) (f : Hyk → Hyk) : (s.modHyk f).hyk = f s.hyk := rfl
@[simp] theorem State.modHyk_sys (s : State) (f : Hyk → Hyk) : (s.modHyk f).sys = s.sys := rfl
@[simp] theorem State.modHyk_host (s : State) (f : Hyk → Hyk) : (s.modHyk f).host = s.host := rfl
@[simp] theorem State.modHyk_mem (s : State) (f : Hyk → Hyk) : (s.modHyk f).mem = s.mem := rfl
@[simp] theorem State.modHyk_cfg (s : State) (f : Hyk → Hyk) : (s.modHyk f).cfg = s.cfg := rfl
@[simp] theorem State.modHyk_prog (s : State) (f : Hyk → Hyk) : (s.modHyk f).prog = s.prog := rfl
@[simp] theorem State.modHyk_swd (s : State) (f : Hyk → Hyk) : (s.modHyk f).swd = s.swd := rfl
@[simp] theorem State.modHyk_tri (s : State) (f : Hyk → Hyk) : (s.modHyk f).tri = s.tri := rfl
@[simp] theorem State.modHyk_cpr (s : State) (f : Hyk → Hyk) : (s.modHyk f).cpr = s.cpr := rfl
@[simp] theorem State.modHyk_fld (s : State) (f : Hyk → Hyk) : (s.modHyk f).fld = s.fld := rfl
@[simp] theorem State.modHyk_hl1 (s : State) (f : Hyk → Hyk) : (s.modHyk f).hl1 = s.hl1 := rfl
@[simp] theorem State.modHyk_hl2 (s : State) (f : Hyk → Hyk) : (s.modHyk f).hl2 = s.hl2 := rfl
@[simp] theorem State.modHyk_dpx (s : State) (f : Hyk → Hyk) : (s.modHyk f).dpx = s.dpx := rfl
@[simp] theorem State.modHyk_stl (s : State) (f : Hyk → Hyk) : (s.modHyk f).stl = s.stl := rfl
@[simp] theorem State.modHyk_upd (s : State) (f : Hyk → Hyk) : (s.modHyk f).upd = s.upd := rfl
@[simp] theorem State.modHyk_bst (s : State) (f : Hyk → Hyk) : (s.modHyk f).bst = s.bst := rfl
@[simp] theorem State.modHyk_saf (s : State) (f : Hyk → Hyk) : (s.modHyk f).saf = s.saf := rfl
@[simp] theorem State.modHyk_rings (s : State) (f : Hyk → Hyk) : (s.modHyk f).rings = s.rings := rfl
@[simp] theorem State.modHyk_journal (s : State) (f : Hyk → Hyk) : (s.modHyk f).journal = s.journal := rfl
@[simp] theorem State.modHyk_tasks (s : State) (f : Hyk → Hyk) : (s.modHyk f).tasks = s.tasks := rfl
@[simp] theorem State.modSys_pending (s : State) (f : Sys → Sys) : (s.modSys f).pending = s.pending := rfl
@[simp] theorem State.modSys_free (s : State) (f : Sys → Sys) : (s.modSys f).free = s.free := rfl
@[simp] theorem State.modSys_sent (s : State) (f : Sys → Sys) : (s.modSys f).sent = s.sent := rfl
@[simp] theorem State.modSys_mfg (s : State) (f : Sys → Sys) : (s.modSys f).mfg = s.mfg := rfl
@[simp] theorem State.modSys_pwr (s : State) (f : Sys → Sys) : (s.modSys f).pwr = s.pwr := rfl
@[simp] theorem State.modSys_tbu (s : State) (f : Sys → Sys) : (s.modSys f).tbu = s.tbu := rfl
@[simp] theorem State.modSys_hyk (s : State) (f : Sys → Sys) : (s.modSys f).hyk = s.hyk := rfl
@[simp] theorem State.modSys_sys (s : State) (f : Sys → Sys) : (s.modSys f).sys = f s.sys := rfl
@[simp] theorem State.modSys_host (s : State) (f : Sys → Sys) : (s.modSys f).host = s.host := rfl
@[simp] theorem State.modSys_mem (s : State) (f : Sys → Sys) : (s.modSys f).mem = s.mem := rfl
@[simp] theorem State.modSys_cfg (s : State) (f : Sys → Sys) : (s.modSys f).cfg = s.cfg := rfl
@[simp] theorem State.modSys_prog (s : State) (f : Sys → Sys) : (s.modSys f).prog = s.prog := rfl
@[simp] theorem State.modSys_swd (s : State) (f : Sys → Sys) : (s.modSys f).swd = s.swd := rfl
@[simp] theorem State.modSys_tri (s : State) (f : Sys → Sys) : (s.modSys f).tri = s.tri := rfl
@[simp] theorem State.modSys_cpr (s : State) (f : Sys → Sys) : (s.modSys f).cpr = s.cpr := rfl
@[simp] theorem State.modSys_fld (s : State) (f : Sys → Sys) : (s.modSys f).fld = s.fld := rfl
@[simp] theorem State.modSys_hl1 (s : State) (f : Sys → Sys) : (s.modSys f).hl1 = s.hl1 := rfl
@[simp] theorem State.modSys_hl2 (s : State) (f : Sys → Sys) : (s.modSys f).hl2 = s.hl2 := rfl
@[simp] theorem State.modSys_dpx (s : State) (f : Sys → Sys) : (s.modSys f).dpx = s.dpx := rfl
@[simp] theorem State.modSys_stl (s : State) (f : Sys → Sys) : (s.modSys f).stl = s.stl := rfl
@[simp] theorem State.modSys_upd (s : State) (f : Sys → Sys) : (s.modSys f).upd = s.upd := rfl
@[simp] theorem State.modSys_bst (s : State) (f : Sys → Sys) : (s.modSys f).bst = s.bst := rfl
@[simp] theorem State.modSys_saf (s : State) (f : Sys → Sys) : (s.modSys f).saf = s.saf := rfl
@[simp] theorem State.modSys_rings (s : State) (f : Sys → Sys) : (s.modSys f).rings = s.rings := rfl
@[simp] theorem State.modSys_journal (s : State) (f : Sys → Sys) : (s.modSys f).journal = s.journal := rfl
@[simp] theorem State.modSys_tasks (s : State) (f : Sys → Sys) : (s.modSys f).tasks = s.tasks := rfl
@[simp] theorem State.modHost_pending (s : State) (f : HostSide → HostSide) : (s.modHost f).pending = s.pending := rfl
@[simp] theorem State.modHost_free (s : State) (f : HostSide → HostSide) : (s.modHost f).free = s.free := rfl
@[simp] theorem State.modHost_sent (s : State) (f : HostSide → HostSide) : (s.modHost f).sent = s.sent := rfl
@[simp] theorem State.modHost_mfg (s : State) (f : HostSide → HostSide) : (s.modHost f).mfg = s.mfg := rfl
@[simp] theorem State.modHost_pwr (s : State) (f : HostSide → HostSide) : (s.modHost f).pwr = s.pwr := rfl
@[simp] theorem State.modHost_tbu (s : State) (f : HostSide → HostSide) : (s.modHost f).tbu = s.tbu := rfl
@[simp] theorem State.modHost_hyk (s : State) (f : HostSide → HostSide) : (s.modHost f).hyk = s.hyk := rfl
@[simp] theorem State.modHost_sys (s : State) (f : HostSide → HostSide) : (s.modHost f).sys = s.sys := rfl
@[simp] theorem State.modHost_host (s : State) (f : HostSide → HostSide) : (s.modHost f).host = f s.host := rfl
@[simp] theorem State.modHost_mem (s : State) (f : HostSide → HostSide) : (s.modHost f).mem = s.mem := rfl
@[simp] theorem State.modHost_cfg (s : State) (f : HostSide → HostSide) : (s.modHost f).cfg = s.cfg := rfl
@[simp] theorem State.modHost_prog (s : State) (f : HostSide → HostSide) : (s.modHost f).prog = s.prog := rfl
@[simp] theorem State.modHost_swd (s : State) (f : HostSide → HostSide) : (s.modHost f).swd = s.swd := rfl
@[simp] theorem State.modHost_tri (s : State) (f : HostSide → HostSide) : (s.modHost f).tri = s.tri := rfl
@[simp] theorem State.modHost_cpr (s : State) (f : HostSide → HostSide) : (s.modHost f).cpr = s.cpr := rfl
@[simp] theorem State.modHost_fld (s : State) (f : HostSide → HostSide) : (s.modHost f).fld = s.fld := rfl
@[simp] theorem State.modHost_hl1 (s : State) (f : HostSide → HostSide) : (s.modHost f).hl1 = s.hl1 := rfl
@[simp] theorem State.modHost_hl2 (s : State) (f : HostSide → HostSide) : (s.modHost f).hl2 = s.hl2 := rfl
@[simp] theorem State.modHost_dpx (s : State) (f : HostSide → HostSide) : (s.modHost f).dpx = s.dpx := rfl
@[simp] theorem State.modHost_stl (s : State) (f : HostSide → HostSide) : (s.modHost f).stl = s.stl := rfl
@[simp] theorem State.modHost_upd (s : State) (f : HostSide → HostSide) : (s.modHost f).upd = s.upd := rfl
@[simp] theorem State.modHost_bst (s : State) (f : HostSide → HostSide) : (s.modHost f).bst = s.bst := rfl
@[simp] theorem State.modHost_saf (s : State) (f : HostSide → HostSide) : (s.modHost f).saf = s.saf := rfl
@[simp] theorem State.modHost_rings (s : State) (f : HostSide → HostSide) : (s.modHost f).rings = s.rings := rfl
@[simp] theorem State.modHost_journal (s : State) (f : HostSide → HostSide) : (s.modHost f).journal = s.journal := rfl
@[simp] theorem State.modHost_tasks (s : State) (f : HostSide → HostSide) : (s.modHost f).tasks = s.tasks := rfl
@[simp] theorem State.modMem_pending (s : State) (f : Mem → Mem) : (s.modMem f).pending = s.pending := rfl
@[simp] theorem State.modMem_free (s : State) (f : Mem → Mem) : (s.modMem f).free = s.free := rfl
@[simp] theorem State.modMem_sent (s : State) (f : Mem → Mem) : (s.modMem f).sent = s.sent := rfl
@[simp] theorem State.modMem_mfg (s : State) (f : Mem → Mem) : (s.modMem f).mfg = s.mfg := rfl
@[simp] theorem State.modMem_pwr (s : State) (f : Mem → Mem) : (s.modMem f).pwr = s.pwr := rfl
@[simp] theorem State.modMem_tbu (s : State) (f : Mem → Mem) : (s.modMem f).tbu = s.tbu := rfl
@[simp] theorem State.modMem_hyk (s : State) (f : Mem → Mem) : (s.modMem f).hyk = s.hyk := rfl
@[simp] theorem State.modMem_sys (s : State) (f : Mem → Mem) : (s.modMem f).sys = s.sys := rfl
@[simp] theorem State.modMem_host (s : State) (f : Mem → Mem) : (s.modMem f).host = s.host := rfl
@[simp] theorem State.modMem_mem (s : State) (f : Mem → Mem) : (s.modMem f).mem = f s.mem := rfl
@[simp] theorem State.modMem_cfg (s : State) (f : Mem → Mem) : (s.modMem f).cfg = s.cfg := rfl
@[simp] theorem State.modMem_prog (s : State) (f : Mem → Mem) : (s.modMem f).prog = s.prog := rfl
@[simp] theorem State.modMem_swd (s : State) (f : Mem → Mem) : (s.modMem f).swd = s.swd := rfl
@[simp] theorem State.modMem_tri (s : State) (f : Mem → Mem) : (s.modMem f).tri = s.tri := rfl
@[simp] theorem State.modMem_cpr (s : State) (f : Mem → Mem) : (s.modMem f).cpr = s.cpr := rfl
@[simp] theorem State.modMem_fld (s : State) (f : Mem → Mem) : (s.modMem f).fld = s.fld := rfl
@[simp] theorem State.modMem_hl1 (s : State) (f : Mem → Mem) : (s.modMem f).hl1 = s.hl1 := rfl
@[simp] theorem State.modMem_hl2 (s : State) (f : Mem → Mem) : (s.modMem f).hl2 = s.hl2 := rfl
@[simp] theorem State.modMem_dpx (s : State) (f : Mem → Mem) : (s.modMem f).dpx = s.dpx := rfl
@[simp] theorem State.modMem_stl (s : State) (f : Mem → Mem) : (s.modMem f).stl = s.stl := rfl
@[simp] theorem State.modMem_upd (s : State) (f : Mem → Mem) : (s.modMem f).upd = s.upd := rfl
@[simp] theorem State.modMem_bst (s : State) (f : Mem → Mem) : (s.modMem f).bst = s.bst := rfl
@[simp] theorem State.modMem_saf (s : State) (f : Mem → Mem) : (s.modMem f).saf = s.saf := rfl
@[simp] theorem State.modMem_rings (s : State) (f : Mem → Mem) : (s.modMem f).rings = s.rings := rfl
@[simp] theorem State.modMem_journal (s : State) (f : Mem → Mem) : (s.modMem f).journal = s.journal := rfl
@[simp] theorem State.modMem_tasks (s : State) (f : Mem → Mem) : (s.modMem f).tasks = s.tasks := rfl
@[simp] theorem State.modCfg_pending (s : State) (f : Cfg → Cfg) : (s.modCfg f).pending = s.pending := rfl
@[simp] theorem State.modCfg_free (s : State) (f : Cfg → Cfg) : (s.modCfg f).free = s.free := rfl
@[simp] theorem State.modCfg_sent (s : State) (f : Cfg → Cfg) : (s.modCfg f).sent = s.sent := rfl
@[simp] theorem State.modCfg_mfg (s : State) (f : Cfg → Cfg) : (s.modCfg f).mfg = s.mfg := rfl
@[simp] theorem State.modCfg_pwr (s : State) (f : Cfg → Cfg) : (s.modCfg f).pwr = s.pwr := rfl
@[simp] theorem State.modCfg_tbu (s : State) (f : Cfg → Cfg) : (s.modCfg f).tbu = s.tbu := rfl
@[simp] theorem State.modCfg_hyk (s : State) (f : Cfg → Cfg) : (s.modCfg f).hyk = s.hyk := rfl
@[simp] theorem State.modCfg_sys (s : State) (f : Cfg → Cfg) : (s.modCfg f).sys = s.sys := rfl
@[simp] theorem State.modCfg_host (s : State) (f : Cfg → Cfg) : (s.modCfg f).host = s.host := rfl
@[simp] theorem State.modCfg_mem (s : State) (f : Cfg → Cfg) : (s.modCfg f).mem = s.mem := rfl
@[simp] theorem State.modCfg_cfg (s : State) (f : Cfg → Cfg) : (s.modCfg f).cfg = f s.cfg := rfl
@[simp] theorem State.modCfg_prog (s : State) (f : Cfg → Cfg) : (s.modCfg f).prog = s.prog := rfl
@[simp] theorem State.modCfg_swd (s : State) (f : Cfg → Cfg) : (s.modCfg f).swd = s.swd := rfl
@[simp] theorem State.modCfg_tri (s : State) (f : Cfg → Cfg) : (s.modCfg f).tri = s.tri := rfl
@[simp] theorem State.modCfg_cpr (s : State) (f : Cfg → Cfg) : (s.modCfg f).cpr = s.cpr := rfl
@[simp] theorem State.modCfg_fld (s : State) (f : Cfg → Cfg) : (s.modCfg f).fld = s.fld := rfl
@[simp] theorem State.modCfg_hl1 (s : State) (f : Cfg → Cfg) : (s.modCfg f).hl1 = s.hl1 := rfl
@[simp] theorem State.modCfg_hl2 (s : State) (f : Cfg → Cfg) : (s.modCfg f).hl2 = s.hl2 := rfl
@[simp] theorem State.modCfg_dpx (s : State) (f : Cfg → Cfg) : (s.modCfg f).dpx = s.dpx := rfl
@[simp] theorem State.modCfg_stl (s : State) (f : Cfg → Cfg) : (s.modCfg f).stl = s.stl := rfl
@[simp] theorem State.modCfg_upd (s : State) (f : Cfg → Cfg) : (s.modCfg f).upd = s.upd := rfl
@[simp] theorem State.modCfg_bst (s : State) (f : Cfg → Cfg) : (s.modCfg f).bst = s.bst := rfl
@[simp] theorem State.modCfg_saf (s : State) (f : Cfg → Cfg) : (s.modCfg f).saf = s.saf := rfl
@[simp] theorem State.modCfg_rings (s : State) (f : Cfg → Cfg) : (s.modCfg f).rings = s.rings := rfl
@[simp] theorem State.modCfg_journal (s : State) (f : Cfg → Cfg) : (s.modCfg f).journal = s.journal := rfl
@[simp] theorem State.modCfg_tasks (s : State) (f : Cfg → Cfg) : (s.modCfg f).tasks = s.tasks := rfl
@[simp] theorem State.modProg_pending (s : State) (f : Prog → Prog) : (s.modProg f).pending = s.pending := rfl
@[simp] theorem State.modProg_free (s : State) (f : Prog → Prog) : (s.modProg f).free = s.free := rfl
@[simp] theorem State.modProg_sent (s : State) (f : Prog → Prog) : (s.modProg f).sent = s.sent := rfl
@[simp] theorem State.modProg_mfg (s : State) (f : Prog → Prog) : (s.modProg f).mfg = s.mfg := rfl
@[simp] theorem State.modProg_pwr (s : State) (f : Prog → Prog) : (s.modProg f).pwr = s.pwr := rfl
@[simp] theorem State.modProg_tbu (s : State) (f : Prog → Prog) : (s.modProg f).tbu = s.tbu := rfl
@[simp] theorem State.modProg_hyk (s : State) (f : Prog → Prog) : (s.modProg f).hyk = s.hyk := rfl
@[simp] theorem State.modProg_sys (s : State) (f : Prog → Prog) : (s.modProg f).sys = s.sys := rfl
@[simp] theorem State.modProg_host (s : State) (f : Prog → Prog) : (s.modProg f).host = s.host := rfl
@[simp] theorem State.modProg_mem (s : State) (f : Prog → Prog) : (s.modProg f).mem = s.mem := rfl
@[simp] theorem State.modProg_cfg (s : State) (f : Prog → Prog) : (s.modProg f).cfg = s.cfg := rfl
@[simp] theorem State.modProg_prog (s : State) (f : Prog → Prog) : (s.modProg f).prog = f s.prog := rfl
@[simp] theorem State.modProg_swd (s : State) (f : Prog → Prog) : (s.modProg f).swd = s.swd := rfl
@[simp] theorem State.modProg_tri (s : State) (f : Prog → Prog) : (s.modProg f).tri = s.tri := rfl
@[simp] theorem State.modProg_cpr (s : State) (f : Prog → Prog) : (s.modProg f).cpr = s.cpr := rfl
@[simp] theorem State.modProg_fld (s : State) (f : Prog → Prog) : (s.modProg f).fld = s.fld := rfl
@[simp] theorem State.modProg_hl1 (s : State) (f : Prog → Prog) : (s.modProg f).hl1 = s.hl1 := rfl
@[simp] theorem State.modProg_hl2 (s : State) (f : Prog → Prog) : (s.modProg f).hl2 = s.hl2 := rfl
@[simp] theorem State.modProg_dpx (s : State) (f : Prog → Prog) : (s.modProg f).dpx = s.dpx := rfl
@[simp] theorem State.modProg_stl (s : State) (f : Prog → Prog) : (s.modProg f).stl = s.stl := rfl
@[simp] theorem State.modProg_upd (s : State) (f : Prog → Prog) : (s.modProg f).upd = s.upd := rfl
@[simp] theorem State.modProg_bst (s : State) (f : Prog → Prog) : (s.modProg f).bst = s.bst := rfl
@[simp] theorem State.modProg_saf (s : State) (f : Prog → Prog) : (s.modProg f).saf = s.saf := rfl
@[simp] theorem State.modProg_rings (s : State) (f : Prog → Prog) : (s.modProg f).rings = s.rings := rfl
@[simp] theorem State.modProg_journal (s : State) (f : Prog → Prog) : (s.modProg f).journal = s.journal := rfl
@[simp] theorem State.modProg_tasks (s : State) (f : Prog → Prog) : (s.modProg f).tasks = s.tasks := rfl
@[simp] theorem State.modSwd_pending (s : State) (f : Swd → Swd) : (s.modSwd f).pending = s.pending := rfl
@[simp] theorem State.modSwd_free (s : State) (f : Swd → Swd) : (s.modSwd f).free = s.free := rfl
@[simp] theorem State.modSwd_sent (s : State) (f : Swd → Swd) : (s.modSwd f).sent = s.sent := rfl
@[simp] theorem State.modSwd_mfg (s : State) (f : Swd → Swd) : (s.modSwd f).mfg = s.mfg := rfl
@[simp] theorem State.modSwd_pwr (s : State) (f : Swd → Swd) : (s.modSwd f).pwr = s.pwr := rfl
@[simp] theorem State.modSwd_tbu (s : State) (f : Swd → Swd) : (s.modSwd f).tbu = s.tbu := rfl
@[simp] theorem State.modSwd_hyk (s : State) (f : Swd → Swd) : (s.modSwd f).hyk = s.hyk := rfl
@[simp] theorem State.modSwd_sys (s : State) (f : Swd → Swd) : (s.modSwd f).sys = s.sys := rfl
@[simp] theorem State.modSwd_host (s : State) (f : Swd → Swd) : (s.modSwd f).host = s.host := rfl
@[simp] theorem State.modSwd_mem (s : State) (f : Swd → Swd) : (s.modSwd f).mem = s.mem := rfl
@[simp] theorem State.modSwd_cfg (s : State) (f : Swd → Swd) : (s.modSwd f).cfg = s.cfg := rfl
@[simp] theorem State.modSwd_prog (s : State) (f : Swd → Swd) : (s.modSwd f).prog = s.prog := rfl
@[simp] theorem State.modSwd_swd (s : State) (f : Swd → Swd) : (s.modSwd f).swd = f s.swd := rfl
@[simp] theorem State.modSwd_tri (s : State) (f : Swd → Swd) : (s.modSwd f).tri = s.tri := rfl
@[simp] theorem State.modSwd_cpr (s : State) (f : Swd → Swd) : (s.modSwd f).cpr = s.cpr := rfl
@[simp] theorem State.modSwd_fld (s : State) (f : Swd → Swd) : (s.modSwd f).fld = s.fld := rfl
@[simp] theorem State.modSwd_hl1 (s : State) (f : Swd → Swd) : (s.modSwd f).hl1 = s.hl1 := rfl
@[simp] theorem State.modSwd_hl2 (s : State) (f : Swd → Swd) : (s.modSwd f).hl2 = s.hl2 := rfl
@[simp] theorem State.modSwd_dpx (s : State) (f : Swd → Swd) : (s.modSwd f).dpx = s.dpx := rfl
@[simp] theorem State.modSwd_stl (s : State) (f : Swd → Swd) : (s.modSwd f).stl = s.stl := rfl
@[simp] theorem State.modSwd_upd (s : State) (f : Swd → Swd) : (s.modSwd f).upd = s.upd := rfl
@[simp] theorem State.modSwd_bst (s : State) (f : Swd → Swd) : (s.modSwd f).bst = s.bst := rfl
@[simp] theorem State.modSwd_saf (s : State) (f : Swd → Swd) : (s.modSwd f).saf = s.saf := rfl
@[simp] theorem State.modSwd_rings (s : State) (f : Swd → Swd) : (s.modSwd f).rings = s.rings := rfl
@[simp] theorem State.modSwd_journal (s : State) (f : Swd → Swd) : (s.modSwd f).journal = s.journal := rfl
@[simp] theorem State.modSwd_tasks (s : State) (f : Swd → Swd) : (s.modSwd f).tasks = s.tasks := rfl
@[simp] theorem State.modTri_pending (s : State) (f : Tri → Tri) : (s.modTri f).pending = s.pending := rfl
@[simp] theorem State.modTri_free (s : State) (f : Tri → Tri) : (s.modTri f).free = s.free := rfl
@[simp] theorem State.modTri_sent (s : State) (f : Tri → Tri) : (s.modTri f).sent = s.sent := rfl
@[simp] theorem State.modTri_mfg (s : State) (f : Tri → Tri) : (s.modTri f).mfg = s.mfg := rfl
@[simp] theorem State.modTri_pwr (s : State) (f : Tri → Tri) : (s.modTri f).pwr = s.pwr := rfl
@[simp] theorem State.modTri_tbu (s : State) (f : Tri → Tri) : (s.modTri f).tbu = s.tbu := rfl
@[simp] theorem State.modTri_hyk (s : State) (f : Tri → Tri) : (s.modTri f).hyk = s.hyk := rfl
@[simp] theorem State.modTri_sys (s : State) (f : Tri → Tri) : (s.modTri f).sys = s.sys := rfl
@[simp] theorem State.modTri_host (s : State) (f : Tri → Tri) : (s.modTri f).host = s.host := rfl
@[simp] theorem State.modTri_mem (s : State) (f : Tri → Tri) : (s.modTri f).mem = s.mem := rfl
@[simp] theorem State.modTri_cfg (s : State) (f : Tri → Tri) : (s.modTri f).cfg = s.cfg := rfl
@[simp] theorem State.modTri_prog (s : State) (f : Tri → Tri) : (s.modTri f).prog = s.prog := rfl
@[simp] theorem State.modTri_swd (s : State) (f : Tri → Tri) : (s.modTri f).swd = s.swd := rfl
@[simp] theorem State.modTri_tri (s : State) (f : Tri → Tri) : (s.modTri f).tri = f s.tri := rfl
@[simp] theorem State.modTri_cpr (s : State) (f : Tri → Tri) : (s.modTri f).cpr = s.cpr := rfl
@[simp] theorem State.modTri_fld (s : State) (f : Tri → Tri) : (s.modTri f).fld = s.fld := rfl
@[simp] theorem State.modTri_hl1 (s : State) (f : Tri → Tri) : (s.modTri f).hl1 = s.hl1 := rfl
@[simp] theorem State.modTri_hl2 (s : State) (f : Tri → Tri) : (s.modTri f).hl2 = s.hl2 := rfl
@[simp] theorem State.modTri_dpx (s : State) (f : Tri → Tri) : (s.modTri f).dpx = s.dpx := rfl
@[simp] theorem State.modTri_stl (s : State) (f : Tri → Tri) : (s.modTri f).stl = s.stl := rfl
@[simp] theorem State.modTri_upd (s : State) (f : Tri → Tri) : (s.modTri f).upd = s.upd := rfl
@[simp] theorem State.modTri_bst (s : State) (f : Tri → Tri) : (s.modTri f).bst = s.bst := rfl
@[simp] theorem State.modTri_saf (s : State) (f : Tri → Tri) : (s.modTri f).saf = s.saf := rfl
@[simp] theorem State.modTri_rings (s : State) (f : Tri → Tri) : (s.modTri f).rings = s.rings := rfl
@[simp] theorem State.modTri_journal (s : State) (f : Tri → Tri) : (s.modTri f).journal = s.journal := rfl
@[simp] theorem State.modTri_tasks (s : State) (f : Tri → Tri) : (s.modTri f).tasks = s.tasks := rfl
@[simp] theorem State.modCpr_pending (s : State) (f : Cpr → Cpr) : (s.modCpr f).pending = s.pending := rfl
@[simp] theorem State.modCpr_free (s : State) (f : Cpr → Cpr) : (s.modCpr f).free = s.free := rfl
@[simp] theorem State.modCpr_sent (s : State) (f : Cpr → Cpr) : (s.modCpr f).sent = s.sent := rfl
@[simp] theorem State.modCpr_mfg (s : State) (f : Cpr → Cpr) : (s.modCpr f).mfg = s.mfg := rfl
@[simp] theorem State.modCpr_pwr (s : State) (f : Cpr → Cpr) : (s.modCpr f).pwr = s.pwr := rfl
@[simp] theorem State.modCpr_tbu (s : State) (f : Cpr → Cpr) : (s.modCpr f).tbu = s.tbu := rfl
@[simp] theorem State.modCpr_hyk (s : State) (f : Cpr → Cpr) : (s.modCpr f).hyk = s.hyk := rfl
@[simp] theorem State.modCpr_sys (s : State) (f : Cpr → Cpr) : (s.modCpr f).sys = s.sys := rfl
@[simp] theorem State.modCpr_host (s : State) (f : Cpr → Cpr) : (s.modCpr f).host = s.host := rfl
@[simp] theorem State.modCpr_mem (s : State) (f : Cpr → Cpr) : (s.modCpr f).mem = s.mem := rfl
@[simp] theorem State.modCpr_cfg (s : State) (f : Cpr → Cpr) : (s.modCpr f).cfg = s.cfg := rfl
@[simp] theorem State.modCpr_prog (s : State) (f : Cpr → Cpr) : (s.modCpr f).prog = s.prog := rfl
@[simp] theorem State.modCpr_swd (s : State) (f : Cpr → Cpr) : (s.modCpr f).swd = s.swd := rfl
@[simp] theorem State.modCpr_tri (s : State) (f : Cpr → Cpr) : (s.modCpr f).tri = s.tri := rfl
@[simp] theorem State.modCpr_cpr (s : State) (f : Cpr → Cpr) : (s.modCpr f).cpr = f s.cpr := rfl
@[simp] theorem State.modCpr_fld (s : State) (f : Cpr → Cpr) : (s.modCpr f).fld = s.fld := rfl
@[simp] theorem State.modCpr_hl1 (s : State) (f : Cpr → Cpr) : (s.modCpr f).hl1 = s.hl1 := rfl
@[simp] theorem State.modCpr_hl2 (s : State) (f : Cpr → Cpr) : (s.modCpr f).hl2 = s.hl2 := rfl
@[simp] theorem State.modCpr_dpx (s : State) (f : Cpr → Cpr) : (s.modCpr f).dpx = s.dpx := rfl
@[simp] theorem State.modCpr_stl (s : State) (f : Cpr → Cpr) : (s.modCpr f).stl = s.stl := rfl
@[simp] theorem State.modCpr_upd (s : State) (f : Cpr → Cpr) : (s.modCpr f).upd = s.upd := rfl
@[simp] theorem State.modCpr_bst (s : State) (f : Cpr → Cpr) : (s.modCpr f).bst = s.bst := rfl
@[simp] theorem State.modCpr_saf (s : State) (f : Cpr → Cpr) : (s.modCpr f).saf = s.saf := rfl
@[simp] theorem State.modCpr_rings (s : State) (f : Cpr → Cpr) : (s.modCpr f).rings = s.rings := rfl
@[simp] theorem State.modCpr_journal (s : State) (f : Cpr → Cpr) : (s.modCpr f).journal = s.journal := rfl
@[simp] theorem State.modCpr_tasks (s : State) (f : Cpr → Cpr) : (s.modCpr f).tasks = s.tasks := rfl
@[simp] theorem State.modFld_pending (s : State) (f : Fld → Fld) : (s.modFld f).pending = s.pending := rfl
@[simp] theorem State.modFld_free (s : State) (f : Fld → Fld) : (s.modFld f).free = s.free := rfl
@[simp] theorem State.modFld_sent (s : State) (f : Fld → Fld) : (s.modFld f).sent = s.sent := rfl
@[simp] theorem State.modFld_mfg (s : State) (f : Fld → Fld) : (s.modFld f).mfg = s.mfg := rfl
@[simp] theorem State.modFld_pwr (s : State) (f : Fld → Fld) : (s.modFld f).pwr = s.pwr := rfl
@[simp] theorem State.modFld_tbu (s : State) (f : Fld → Fld) : (s.modFld f).tbu = s.tbu := rfl
@[simp] theorem State.modFld_hyk (s : State) (f : Fld → Fld) : (s.modFld f).hyk = s.hyk := rfl
@[simp] theorem State.modFld_sys (s : State) (f : Fld → Fld) : (s.modFld f).sys = s.sys := rfl
@[simp] theorem State.modFld_host (s : State) (f : Fld → Fld) : (s.modFld f).host = s.host := rfl
@[simp] theorem State.modFld_mem (s : State) (f : Fld → Fld) : (s.modFld f).mem = s.mem := rfl
@[simp] theorem State.modFld_cfg (s : State) (f : Fld → Fld) : (s.modFld f).cfg = s.cfg := rfl
@[simp] theorem State.modFld_prog (s : State) (f : Fld → Fld) : (s.modFld f).prog = s.prog := rfl
@[simp] theorem State.modFld_swd (s : State) (f : Fld → Fld) : (s.modFld f).swd = s.swd := rfl
@[simp] theorem State.modFld_tri (s : State) (f : Fld → Fld) : (s.modFld f).tri = s.tri := rfl
@[simp] theorem State.modFld_cpr (s : State) (f : Fld → Fld) : (s.modFld f).cpr = s.cpr := rfl
@[simp] theorem State.modFld_fld (s : State) (f : Fld → Fld) : (s.modFld f).fld = f s.fld := rfl
@[simp] theorem State.modFld_hl1 (s : State) (f : Fld → Fld) : (s.modFld f).hl1 = s.hl1 := rfl
@[simp] theorem State.modFld_hl2 (s : State) (f : Fld → Fld) : (s.modFld f).hl2 = s.hl2 := rfl
@[simp] theorem State.modFld_dpx (s : State) (f : Fld → Fld) : (s.modFld f).dpx = s.dpx := rfl
@[simp] theorem State.modFld_stl (s : State) (f : Fld → Fld) : (s.modFld f).stl = s.stl := rfl
@[simp] theorem State.modFld_upd (s : State) (f : Fld → Fld) : (s.modFld f).upd = s.upd := rfl
@[simp] theorem State.modFld_bst (s : State) (f : Fld → Fld) : (s.modFld f).bst = s.bst := rfl
@[simp] theorem State.modFld_saf (s : State) (f : Fld → Fld) : (s.modFld f).saf = s.saf := rfl
@[simp] theorem State.modFld_rings (s : State) (f : Fld → Fld) : (s.modFld f).rings = s.rings := rfl
@[simp] theorem State.modFld_journal (s : State) (f : Fld → Fld) : (s.modFld f).journal = s.journal := rfl
@[simp] theorem State.modFld_tasks (s : State) (f : Fld → Fld) : (s.modFld f).tasks = s.tasks := rfl
@[simp] theorem State.modHl1_pending (s : State) (f : HlNet → HlNet) : (s.modHl1 f).pending = s.pending := rfl
@[simp] theorem State.modHl1_free (s : State) (f : HlNet → HlNet) : (s.modHl1 f).free = s.free := rfl
@[simp] theorem State.modHl1_sent (s : State) (f : HlNet → HlNet) : (s.modHl1 f).sent = s.sent := rfl
@[simp] theorem State.modHl1_mfg (s : State) (f : HlNet → HlNet) : (s.modHl1 f).mfg = s.mfg := rfl
@[simp] theorem State.modHl1_pwr (s : State) (f : HlNet → HlNet) : (s.modHl1 f).pwr = s.pwr := rfl
@[simp] theorem State.modHl1_tbu (s : State) (f : HlNet → HlNet) : (s.modHl1 f).tbu = s.tbu := rfl
@[simp] theorem State.modHl1_hyk (s : State) (f : HlNet → HlNet) : (s.modHl1 f).hyk = s.hyk := rfl
@[simp] theorem State.modHl1_sys (s : State) (f : HlNet → HlNet) : (s.modHl1 f).sys = s.sys := rfl
@[simp] theorem State.modHl1_host (s : State) (f : HlNet → HlNet) : (s.modHl1 f).host = s.host := rfl
@[simp] theorem State.modHl1_mem (s : State) (f : HlNet → HlNet) : (s.modHl1 f).mem = s.mem := rfl
@[simp] theorem State.modHl1_cfg (s : State) (f : HlNet → HlNet) : (s.modHl1 f).cfg = s.cfg := rfl
@[simp] theorem State.modHl1_prog (s : State) (f : HlNet → HlNet) : (s.modHl1 f).prog = s.prog := rfl
@[simp] theorem State.modHl1_swd (s : State) (f : HlNet → HlNet) : (s.modHl1 f).swd = s.swd := rfl
@[simp] theorem State.modHl1_tri (s : State) (f : HlNet → HlNet) : (s.modHl1 f).tri = s.tri := rfl
@[simp] theorem State.modHl1_cpr (s : State) (f : HlNet → HlNet) : (s.modHl1 f).cpr = s.cpr := rfl
@[simp] theorem State.modHl1_fld (s : State) (f : HlNet → HlNet) : (s.modHl1 f).fld = s.fld := rfl
@[simp] theorem State.modHl1_hl1 (s : State) (f : HlNet → HlNet) : (s.modHl1 f).hl1 = f s.hl1 := rfl
@[simp] theorem State.modHl1_hl2 (s : State) (f : HlNet → HlNet) : (s.modHl1 f).hl2 = s.hl2 := rfl
@[simp] theorem State.modHl1_dpx (s : State) (f : HlNet → HlNet) : (s.modHl1 f).dpx = s.dpx := rfl
@[simp] theorem State.modHl1_stl (s : State) (f : HlNet → HlNet) : (s.modHl1 f).stl = s.stl := rfl
@[simp] theorem State.modHl1_upd (s : State) (f : HlNet → HlNet) : (s.modHl1 f).upd = s.upd := rfl
@[simp] theorem State.modHl1_bst (s : State) (f : HlNet → HlNet) : (s.modHl1 f).bst = s.bst := rfl
@[simp] theorem State.modHl1_saf (s : State) (f : HlNet → HlNet) : (s.modHl1 f).saf = s.saf := rfl
@[simp] theorem State.modHl1_rings (s : State) (f : HlNet → HlNet) : (s.modHl1 f).rings = s.rings := rfl
@[simp] theorem State.modHl1_journal (s : State) (f : HlNet → HlNet) : (s.modHl1 f).journal = s.journal := rfl
@[simp] theorem State.modHl1_tasks (s : State) (f : HlNet → HlNet) : (s.modHl1 f).tasks = s.tasks := rfl
@[simp] theorem State.modHl2_pending (s : State) (f : HlNet → HlNet) : (s.modHl2 f).pending = s.pending := rfl
@[simp] theorem State.modHl2_free (s : State) (f : HlNet → HlNet) : (s.modHl2 f).free = s.free := rfl
@[simp] theorem State.modHl2_sent (s : State) (f : HlNet → HlNet) : (s.modHl2 f).sent = s.sent := rfl
@[simp] theorem State.modHl2_mfg (s : State) (f : HlNet → HlNet) : (s.modHl2 f).mfg = s.mfg := rfl
@[simp] theorem State.modHl2_pwr (s : State) (f : HlNet → HlNet) : (s.modHl2 f).pwr = s.pwr := rfl
@[simp] theorem State.modHl2_tbu (s : State) (f : HlNet → HlNet) : (s.modHl2 f).tbu = s.tbu := rfl
@[simp] theorem State.modHl2_hyk (s : State) (f : HlNet → HlNet) : (s.modHl2 f).hyk = s.hyk := rfl
@[simp] theorem State.modHl2_sys (s : State) (f : HlNet → HlNet) : (s.modHl2 f).sys = s.sys := rfl
@[simp] theorem State.modHl2_host (s : State) (f : HlNet → HlNet) : (s.modHl2 f).host = s.host := rfl
@[simp] theorem State.modHl2_mem (s : State) (f : HlNet → HlNet) : (s.modHl2 f).mem = s.mem := rfl
@[simp] theorem State.modHl2_cfg (s : State) (f : HlNet → HlNet) : (s.modHl2 f).cfg = s.cfg := rfl
@[simp] theorem State.modHl2_prog (s : State) (f : HlNet → HlNet) : (s.modHl2 f).prog = s.prog := rfl
@[simp] theorem State.modHl2_swd (s : State) (f : HlNet → HlNet) : (s.modHl2 f).swd = s.swd := rfl
@[simp] theorem State.modHl2_tri (s : State) (f : HlNet → HlNet) : (s.modHl2 f).tri = s.tri := rfl
@[simp] theorem State.modHl2_cpr (s : State) (f : HlNet → HlNet) : (s.modHl2 f).cpr = s.cpr := rfl
@[simp] theorem State.modHl2_fld (s : State) (f : HlNet → HlNet) : (s.modHl2 f).fld = s.fld := rfl
@[simp] theorem State.modHl2_hl1 (s : State) (f : HlNet → HlNet) : (s.modHl2 f).hl1 = s.hl1 := rfl
@[simp] theorem State.modHl2_hl2 (s : State) (f : HlNet → HlNet) : (s.modHl2 f).hl2 = f s.hl2 := rfl
@[simp] theorem State.modHl2_dpx (s : State) (f : HlNet → HlNet) : (s.modHl2 f).dpx = s.dpx := rfl
@[simp] theorem State.modHl2_stl (s : State) (f : HlNet → HlNet) : (s.modHl2 f).stl = s.stl := rfl
@[simp] theorem State.modHl2_upd (s : State) (f : HlNet → HlNet) : (s.modHl2 f).upd = s.upd := rfl
@[simp] theorem State.modHl2_bst (s : State) (f : HlNet → HlNet) : (s.modHl2 f).bst = s.bst := rfl
@[simp] theorem State.modHl2_saf (s : State) (f : HlNet → HlNet) : (s.modHl2 f).saf = s.saf := rfl
@[simp] theorem State.modHl2_rings (s : State) (f : HlNet → HlNet) : (s.modHl2 f).rings = s.rings := rfl
@[simp] theorem State.modHl2_journal (s : State) (f : HlNet → HlNet) : (s.modHl2 f).journal = s.journal := rfl
@[simp] theorem State.modHl2_tasks (s : State) (f : HlNet → HlNet) : (s.modHl2 f).tasks = s.tasks := rfl
@[simp] theorem State.modDpx_pending (s : State) (f : Dpx → Dpx) : (s.modDpx f).pending = s.pending := rfl
@[simp] theorem State.modDpx_free (s : State) (f : Dpx → Dpx) : (s.modDpx f).free = s.free := rfl
@[simp] theorem State.modDpx_sent (s : State) (f : Dpx → Dpx) : (s.modDpx f).sent = s.sent := rfl
@[simp] theorem State.modDpx_mfg (s : State) (f : Dpx → Dpx) : (s.modDpx f).mfg = s.mfg := rfl
@[simp] theorem State.modDpx_pwr (s : State) (f : Dpx → Dpx) : (s.modDpx f).pwr = s.pwr := rfl
@[simp] theorem State.modDpx_tbu (s : State) (f : Dpx → Dpx) : (s.modDpx f).tbu = s.tbu := rfl
@[simp] theorem State.modDpx_hyk (s : State) (f : Dpx → Dpx) : (s.modDpx f).hyk = s.hyk := rfl
@[simp] theorem State.modDpx_sys (s : State) (f : Dpx → Dpx) : (s.modDpx f).sys = s.sys := rfl
@[simp] theorem State.modDpx_host (s : State) (f : Dpx → Dpx) : (s.modDpx f).host = s.host := rfl
@[simp] theorem State.modDpx_mem (s : State) (f : Dpx → Dpx) : (s.modDpx f).mem = s.mem := rfl
@[simp] theorem State.modDpx_cfg (s : State) (f : Dpx → Dpx) : (s.modDpx f).cfg = s.cfg := rfl
@[simp] theorem State.modDpx_prog (s : State) (f : Dpx → Dpx) : (s.modDpx f).prog = s.prog := rfl
@[simp] theorem State.modDpx_swd (s : State) (f : Dpx → Dpx) : (s.modDpx f).swd = s.swd := rfl
@[simp] theorem State.modDpx_tri (s : State) (f : Dpx → Dpx) : (s.modDpx f).tri = s.tri := rfl
@[simp] theorem State.modDpx_cpr (s : State) (f : Dpx → Dpx) : (s.modDpx f).cpr = s.cpr := rfl
@[simp] theorem State.modDpx_fld (s : State) (f : Dpx → Dpx) : (s.modDpx f).fld = s.fld := rfl
@[simp] theorem State.modDpx_hl1 (s : State) (f : Dpx → Dpx) : (s.modDpx f).hl1 = s.hl1 := rfl
@[simp] theorem State.modDpx_hl2 (s : State) (f : Dpx → Dpx) : (s.modDpx f).hl2 = s.hl2 := rfl
@[simp] theorem State.modDpx_dpx (s : State) (f : Dpx → Dpx) : (s.modDpx f).dpx = f s.dpx := rfl
@[simp] theorem State.modDpx_stl (s : State) (f : Dpx → Dpx) : (s.modDpx f).stl = s.stl := rfl
@[simp] theorem State.modDpx_upd (s : State) (f : Dpx → Dpx) : (s.modDpx f).upd = s.upd := rfl
@[simp] theorem State.modDpx_bst (s : State) (f : Dpx → Dpx) : (s.modDpx f).bst = s.bst := rfl
@[simp] theorem State.modDpx_saf (s : State) (f : Dpx → Dpx) : (s.modDpx f).saf = s.saf := rfl
@[simp] theorem State.modDpx_rings (s : State) (f : Dpx → Dpx) : (s.modDpx f).rings = s.rings := rfl
@[simp] theorem State.modDpx_journal (s : State) (f : Dpx → Dpx) : (s.modDpx f).journal = s.journal := rfl
@[simp] theorem State.modDpx_tasks (s : State) (f : Dpx → Dpx) : (s.modDpx f).tasks = s.tasks := rfl
@[simp] theorem State.modStl_pending (s : State) (f : Stl → Stl) : (s.modStl f).pending = s.pending := rfl
@[simp] theorem State.modStl_free (s : State) (f : Stl → Stl) : (s.modStl f).free = s.free := rfl
@[simp] theorem State.modStl_sent (s : State) (f : Stl → Stl) : (s.modStl f).sent = s.sent := rfl
@[simp] theorem State.modStl_mfg (s : State) (f : Stl → Stl) : (s.modStl f).mfg = s.mfg := rfl
@[simp] theorem State.modStl_pwr (s : State) (f : Stl → Stl) : (s.modStl f).pwr = s.pwr := rfl
@[simp] theorem State.modStl_tbu (s : State) (f : Stl → Stl) : (s.modStl f).tbu = s.tbu := rfl
@[simp] theorem State.modStl_hyk (s : State) (f : Stl → Stl) : (s.modStl f).hyk = s.hyk := rfl
@[simp] theorem State.modStl_sys (s : State) (f : Stl → Stl) : (s.modStl f).sys = s.sys := rfl
@[simp] theorem State.modStl_host (s : State) (f : Stl → Stl) : (s.modStl f).host = s.host := rfl
@[simp] theorem State.modStl_mem (s : State) (f : Stl → Stl) : (s.modStl f).mem = s.mem := rfl
@[simp] theorem State.modStl_cfg (s : State) (f : Stl → Stl) : (s.modStl f).cfg = s.cfg := rfl
@[simp] theorem State.modStl_prog (s : State) (f : Stl → Stl) : (s.modStl f).prog = s.prog := rfl
@[simp] theorem State.modStl_swd (s : State) (f : Stl → Stl) : (s.modStl f).swd = s.swd := rfl
@[simp] theorem State.modStl_tri (s : State) (f : Stl → Stl) : (s.modStl f).tri = s.tri := rfl
@[simp] theorem State.modStl_cpr (s : State) (f : Stl → Stl) : (s.modStl f).cpr = s.cpr := rfl
@[simp] theorem State.modStl_fld (s : State) (f : Stl → Stl) : (s.modStl f).fld = s.fld := rfl
@[simp] theorem State.modStl_hl1 (s : State) (f : Stl → Stl) : (s.modStl f).hl1 = s.hl1 := rfl
@[simp] theorem State.modStl_hl2 (s : State) (f : Stl → Stl) : (s.modStl f).hl2 = s.hl2 := rfl
@[simp] theorem State.modStl_dpx (s : State) (f : Stl → Stl) : (s.modStl f).dpx = s.dpx := rfl
@[simp] theorem State.modStl_stl (s : State) (f : Stl → Stl) : (s.modStl f).stl = f s.stl := rfl
@[simp] theorem State.modStl_upd (s : State) (f : Stl → Stl) : (s.modStl f).upd = s.upd := rfl
@[simp] theorem State.modStl_bst (s : State) (f : Stl → Stl) : (s.modStl f).bst = s.bst := rfl
@[simp] theorem State.modStl_saf (s : State) (f : Stl → Stl) : (s.modStl f).saf = s.saf := rfl
@[simp] theorem State.modStl_rings (s : State) (f : Stl → Stl) : (s.modStl f).rings = s.rings := rfl
@[simp] theorem State.modStl_journal (s : State) (f : Stl → Stl) : (s.modStl f).journal = s.journal := rfl
@[simp] theorem State.modStl_tasks (s : State) (f : Stl → Stl) : (s.modStl f).tasks = s.tasks := rfl
@[simp] theorem State.modUpd_pending (s : State) (f : Upd → Upd) : (s.modUpd f).pending = s.pending := rfl
@[simp] theorem State.modUpd_free (s : State) (f : Upd → Upd) : (s.modUpd f).free = s.free := rfl
@[simp] theorem State.modUpd_sent (s : State) (f : Upd → Upd) : (s.modUpd f).sent = s.sent := rfl
@[simp] theorem State.modUpd_mfg (s : State) (f : Upd → Upd) : (s.modUpd f).mfg = s.mfg := rfl
@[simp] theorem State.modUpd_pwr (s : State) (f : Upd → Upd) : (s.modUpd f).pwr = s.pwr := rfl
@[simp] theorem State.modUpd_tbu (s : State) (f : Upd → Upd) : (s.modUpd f).tbu = s.tbu := rfl
@[simp] theorem State.modUpd_hyk (s : State) (f : Upd → Upd) : (s.modUpd f).hyk = s.hyk := rfl
@[simp] theorem State.modUpd_sys (s : State) (f : Upd → Upd) : (s.modUpd f).sys = s.sys := rfl
@[simp] theorem State.modUpd_host (s : State) (f : Upd → Upd) : (s.modUpd f).host = s.host := rfl
@[simp] theorem State.modUpd_mem (s : State) (f : Upd → Upd) : (s.modUpd f).mem = s.mem := rfl
@[simp] theorem State.modUpd_cfg (s : State) (f : Upd → Upd) : (s.modUpd f).cfg = s.cfg := rfl
@[simp] theorem State.modUpd_prog (s : State) (f : Upd → Upd) : (s.modUpd f).prog = s.prog := rfl
@[simp] theorem State.modUpd_swd (s : State) (f : Upd → Upd) : (s.modUpd f).swd = s.swd := rfl
@[simp] theorem State.modUpd_tri (s : State) (f : Upd → Upd) : (s.modUpd f).tri = s.tri := rfl
@[simp] theorem State.modUpd_cpr (s : State) (f : Upd → Upd) : (s.modUpd f).cpr = s.cpr := rfl
@[simp] theorem State.modUpd_fld (s : State) (f : Upd → Upd) : (s.modUpd f).fld = s.fld := rfl
@[simp] theorem State.modUpd_hl1 (s : State) (f : Upd → Upd) : (s.modUpd f).hl1 = s.hl1 := rfl
@[simp] theorem State.modUpd_hl2 (s : State) (f : Upd → Upd) : (s.modUpd f).hl2 = s.hl2 := rfl
@[simp] theorem State.modUpd_dpx (s : State) (f : Upd → Upd) : (s.modUpd f).dpx = s.dpx := rfl
@[simp] theorem State.modUpd_stl (s : State) (f : Upd → Upd) : (s.modUpd f).stl = s.stl := rfl
@[simp] theorem State.modUpd_upd (s : State) (f : Upd → Upd) : (s.modUpd f).upd = f s.upd := rfl
@[simp] theorem State.modUpd_bst (s : State) (f : Upd → Upd) : (s.modUpd f).bst = s.bst := rfl
@[simp] theorem State.modUpd_saf (s : State) (f : Upd → Upd) : (s.modUpd f).saf = s.saf := rfl
@[simp] theorem State.modUpd_rings (s : State) (f : Upd → Upd) : (s.modUpd f).rings = s.rings := rfl
@[simp] theorem State.modUpd_journal (s : State) (f : Upd → Upd) : (s.modUpd f).journal = s.journal := rfl
@[simp] theorem State.modUpd_tasks (s : State) (f : Upd → Upd) : (s.modUpd f).tasks = s.tasks := rfl
@[simp] theorem State.modBst_pending (s : State) (f : Bst → Bst) : (s.modBst f).pending = s.pending := rfl
@[simp] theorem State.modBst_free (s : State) (f : Bst → Bst) : (s.modBst f).free = s.free := rfl
@[simp] theorem State.modBst_sent (s : State) (f : Bst → Bst) : (s.modBst f).sent = s.sent := rfl
@[simp] theorem State.modBst_mfg (s : State) (f : Bst → Bst) : (s.modBst f).mfg = s.mfg := rfl
@[simp] theorem State.modBst_pwr (s : State) (f : Bst → Bst) : (s.modBst f).pwr = s.pwr := rfl
@[simp] theorem State.modBst_tbu (s : State) (f : Bst → Bst) : (s.modBst f).tbu = s.tbu := rfl
@[simp] theorem State.modBst_hyk (s : State) (f : Bst → Bst) : (s.modBst f).hyk = s.hyk := rfl
@[simp] theorem State.modBst_sys (s : State) (f : Bst → Bst) : (s.modBst f).sys = s.sys := rfl
@[simp] theorem State.modBst_host (s : State) (f : Bst → Bst) : (s.modBst f).host = s.host := rfl
@[simp] theorem State.modBst_mem (s : State) (f : Bst → Bst) : (s.modBst f).mem = s.mem := rfl
@[simp] theorem State.modBst_cfg (s : State) (f : Bst → Bst) : (s.modBst f).cfg = s.cfg := rfl
@[simp] theorem State.modBst_prog (s : State) (f : Bst → Bst) : (s.modBst f).prog = s.prog := rfl
@[simp] theorem State.modBst_swd (s : State) (f : Bst → Bst) : (s.modBst f).swd = s.swd := rfl
@[simp] theorem State.modBst_tri (s : State) (f : Bst → Bst) : (s.modBst f).tri = s.tri := rfl
@[simp] theorem State.modBst_cpr (s : State) (f : Bst → Bst) : (s.modBst f).cpr = s.cpr := rfl
@[simp] theorem State.modBst_fld (s : State) (f : Bst → Bst) : (s.modBst f).fld = s.fld := rfl
@[simp] theorem State.modBst_hl1 (s : State) (f : Bst → Bst) : (s.modBst f).hl1 = s.hl1 := rfl
@[simp] theorem State.modBst_hl2 (s : State) (f : Bst → Bst) : (s.modBst f).hl2 = s.hl2 := rfl
@[simp] theorem State.modBst_dpx (s : State) (f : Bst → Bst) : (s.modBst f).dpx = s.dpx := rfl
@[simp] theorem State.modBst_stl (s : State) (f : Bst → Bst) : (s.modBst f).stl = s.stl := rfl
@[simp] theorem State.modBst_upd (s : State) (f : Bst → Bst) : (s.modBst f).upd = s.upd := rfl
@[simp] theorem State.modBst_bst (s : State) (f : Bst → Bst) : (s.modBst f).bst = f s.bst := rfl
@[simp] theorem State.modBst_saf (s : State) (f : Bst → Bst) : (s.modBst f).saf = s.saf := rfl
@[simp] theorem State.modBst_rings (s : State) (f : Bst → Bst) : (s.modBst f).rings = s.rings := rfl
@[simp] theorem State.modBst_journal (s : State) (f : Bst → Bst) : (s.modBst f).journal = s.journal := rfl
@[simp] theorem State.modBst_tasks (s : State) (f : Bst → Bst) : (s.modBst f).tasks = s.tasks := rfl
@[simp] theorem State.modSaf_pending (s : State) (f : Saf → Saf) : (s.modSaf f).pending = s.pending := rfl
@[simp] theorem State.modSaf_free (s : State) (f : Saf → Saf) : (s.modSaf f).free = s.free := rfl
@[simp] theorem State.modSaf_sent (s : State) (f : Saf → Saf) : (s.modSaf f).sent = s.sent := rfl
@[simp] theorem State.modSaf_mfg (s : State) (f : Saf → Saf) : (s.modSaf f).mfg = s.mfg := rfl
@[simp] theorem State.modSaf_pwr (s : State) (f : Saf → Saf) : (s.modSaf f).pwr = s.pwr := rfl
@[simp] theorem State.modSaf_tbu (s : State) (f : Saf → Saf) : (s.modSaf f).tbu = s.tbu := rfl
@[simp] theorem State.modSaf_hyk (s : State) (f : Saf → Saf) : (s.modSaf f).hyk = s.hyk := rfl
@[simp] theorem State.modSaf_sys (s : State) (f : Saf → Saf) : (s.modSaf f).sys = s.sys := rfl
@[simp] theorem State.modSaf_host (s : State) (f : Saf → Saf) : (s.modSaf f).host = s.host := rfl
@[simp] theorem State.modSaf_mem (s : State) (f : Saf → Saf) : (s.modSaf f).mem = s.mem := rfl
@[simp] theorem State.modSaf_cfg (s : State) (f : Saf → Saf) : (s.modSaf f).cfg = s.cfg := rfl
@[simp] theorem State.modSaf_prog (s : State) (f : Saf → Saf) : (s.modSaf f).prog = s.prog := rfl
@[simp] theorem State.modSaf_swd (s : State) (f : Saf → Saf) : (s.modSaf f).swd = s.swd := rfl
@[simp] theorem State.modSaf_tri (s : State) (f : Saf → Saf) : (s.modSaf f).tri = s.tri := rfl
@[simp] theorem State.modSaf_cpr (s : State) (f : Saf → Saf) : (s.modSaf f).cpr = s.cpr := rfl
@[simp] theorem State.modSaf_fld (s : State) (f : Saf → Saf) : (s.modSaf f).fld = s.fld := rfl
@[simp] theorem State.modSaf_hl1 (s : State) (f : Saf → Saf) : (s.modSaf f).hl1 = s.hl1 := rfl
@[simp] theorem State.modSaf_hl2 (s : State) (f : Saf → Saf) : (s.modSaf f).hl2 = s.hl2 := rfl
@[simp] theorem State.modSaf_dpx (s : State) (f : Saf → Saf) : (s.modSaf f).dpx = s.dpx := rfl
@[simp] theorem State.modSaf_stl (s : State) (f : Saf → Saf) : (s.modSaf f).stl = s.stl := rfl
@[simp] theorem State.modSaf_upd (s : State) (f : Saf → Saf) : (s.modSaf f).upd = s.upd := rfl
@[simp] theorem State.modSaf_bst (s : State) (f : Saf → Saf) : (s.modSaf f).bst = s.bst := rfl
@[simp] theorem State.modSaf_saf (s : State) (f : Saf → Saf) : (s.modSaf f).saf = f s.saf := rfl
@[simp] theorem State.modSaf_rings (s : State) (f : Saf → Saf) : (s.modSaf f).rings = s.rings := rfl
@[simp] theorem State.modSaf_journal (s : State) (f : Saf → Saf) : (s.modSaf f).journal = s.journal := rfl
@[simp] theorem State.modSaf_tasks (s : State) (f : Saf → Saf) : (s.modSaf f).tasks = s.tasks := rfl
@[simp] theorem State.modPending_pending (s : State) (f : List Instr → List Instr) : (s.modPending f).pending = f s.pending := rfl
@[simp] theorem State.modPending_free (s : State) (f : List Instr → List Instr) : (s.modPending f).free = s.free := rfl
@[simp] theorem State.modPending_sent (s : State) (f : List Instr → List Instr) : (s.modPending f).sent = s.sent := rfl
@[simp] theorem State.modPending_mfg (s : State) (f : List Instr → List Instr) : (s.modPending f).mfg = s.mfg := rfl
@[simp] theorem State.modPending_pwr (s : State) (f : List Instr → List Instr) : (s.modPending f).pwr = s.pwr := rfl
@[simp] theorem State.modPending_tbu (s : State) (f : List Instr → List Instr) : (s.modPending f).tbu = s.tbu := rfl
@[simp] theorem State.modPending_hyk (s : State) (f : List Instr → List Instr) : (s.modPending f).hyk = s.hyk := rfl
@[simp] theorem State.modPending_sys (s : State) (f : List Instr → List Instr) : (s.modPending f).sys = s.sys := rfl
@[simp] theorem State.modPending_host (s : State) (f : List Instr → List Instr) : (s.modPending f).host = s.host := rfl
@[simp] theorem State.modPending_mem (s : State) (f : List Instr → List Instr) : (s.modPending f).mem = s.mem := rfl
@[simp] theorem State.modPending_cfg (s : State) (f : List Instr → List Instr) : (s.modPending f).cfg = s.cfg := rfl
@[simp] theorem State.modPending_prog (s : State) (f : List Instr → List Instr) : (s.modPending f).prog = s.prog := rfl
@[simp] theorem State.modPending_swd (s : State) (f : List Instr → List Instr) : (s.modPending f).swd = s.swd := rfl
@[simp] theorem State.modPending_tri (s : State) (f : List Instr → List Instr) : (s.modPending f).tri = s.tri := rfl
@[simp] theorem State.modPending_cpr (s : State) (f : List Instr → List Instr) : (s.modPending f).cpr = s.cpr := rfl
@[simp] theorem State.modPending_fld (s : State) (f : List Instr → List Instr) : (s.modPending f).fld = s.fld := rfl
@[simp] theorem State.modPending_hl1 (s : State) (f : List Instr → List Instr) : (s.modPending f).hl1 = s.hl1 := rfl
@[simp] theorem State.modPending_hl2 (s : State) (f : List Instr → List Instr) : (s.modPending f).hl2 = s.hl2 := rfl
@[simp] theorem State.modPending_dpx (s : State) (f : List Instr → List Instr) : (s.modPending f).dpx = s.dpx := rfl
@[simp] theorem State.modPending_stl (s : State) (f : List Instr → List Instr) : (s.modPending f).stl = s.stl := rfl
@[simp] theorem State.modPending_upd (s : State) (f : List Instr → List Instr) : (s.modPending f).upd = s.upd := rfl
@[simp] theorem State.modPending_bst (s : State) (f : List Instr → List Instr) : (s.modPending f).bst = s.bst := rfl
@[simp] theorem State.modPending_saf (s : State) (f : List Instr → List Instr) : (s.modPending f).saf = s.saf := rfl
@[simp] theorem State.modPending_rings (s : State) (f : List Instr → List Instr) : (s.modPending f).rings = s.rings := rfl
@[simp] theorem State.modPending_journal (s : State) (f : List Instr → List Instr) : (s.modPending f).journal = s.journal := rfl
@[simp] theorem State.modPending_tasks (s : State) (f : List Instr → List Instr) : (s.modPending f).tasks = s.tasks := rfl
@[simp] theorem State.modJournal_pending (s : State) (f : List JEntry → List JEntry) : (s.modJournal f).pending = s.pending := rfl
@[simp] theorem State.modJournal_free (s : State) (f : List JEntry → List JEntry) : (s.modJournal f).free = s.free := rfl
@[simp] theorem State.modJournal_sent (s : State) (f : List JEntry → List JEntry) : (s.modJournal f).sent = s.sent := rfl
@[simp] theorem State.modJournal_mfg (s : State) (f : List JEntry → List JEntry) : (s.modJournal f).mfg = s.mfg := rfl
@[simp] theorem State.modJournal_pwr (s : State) (f : List JEntry → List JEntry) : (s.modJournal f).pwr = s.pwr := rfl
@[simp] theorem State.modJournal_tbu (s : State) (f : List JEntry → List JEntry) : (s.modJournal f).tbu = s.tbu := rfl
@[simp] theorem State.modJournal_hyk (s : State) (f : List JEntry → List JEntry) : (s.modJournal f).hyk = s.hyk := rfl
@[simp] theorem State.modJournal_sys (s : State) (f : List JEntry → List JEntry) : (s.modJournal f).sys = s.sys := rfl
@[simp] theorem State.modJournal_host (s : State) (f : List JEntry → List JEntry) : (s.modJournal f).host = s.host := rfl
@[simp] theorem State.modJournal_mem (s : State) (f : List JEntry → List JEntry) : (s.modJournal f).mem = s.mem := rfl
@[simp] theorem State.modJournal_cfg (s : State) (f : List JEntry → List JEntry) : (s.modJournal f).cfg = s.cfg := rfl
@[simp] theorem State.modJournal_prog (s : State) (f : List JEntry → List JEntry) : (s.modJournal f).prog = s.prog := rfl
@[simp] theorem State.modJournal_swd (s : State) (f : List JEntry → List JEntry) : (s.modJournal f).swd = s.swd := rfl
@[simp] theorem State.modJournal_tri (s : State) (f : List JEntry → List JEntry) : (s.modJournal f).tri = s.tri := rfl
@[simp] theorem State.modJournal_cpr (s : State) (f : List JEntry → List JEntry) : (s.modJournal f).cpr = s.cpr := rfl
@[simp] theorem State.modJournal_fld (s : State) (f : List JEntry → List JEntry) : (s.modJournal f).fld = s.fld := rfl
@[simp] theorem State.modJournal_hl1 (s : State) (f : List JEntry → List JEntry) : (s.modJournal f).hl1 = s.hl1 := rfl
@[simp] theorem State.modJournal_hl2 (s : State) (f : List JEntry → List JEntry) : (s.modJournal f).hl2 = s.hl2 := rfl
@[simp] theorem State.modJournal_dpx (s : State) (f : List JEntry → List JEntry) : (s.modJournal f).dpx = s.dpx := rfl
@[simp] theorem State.modJournal_stl (s : State) (f : List JEntry → List JEntry) : (s.modJournal f).stl = s.stl := rfl
@[simp] theorem State.modJournal_upd (s : State) (f : List JEntry → List JEntry) : (s.modJournal f).upd = s.upd := rfl
@[simp] theorem State.modJournal_bst (s : State) (f : List JEntry → List JEntry) : (s.modJournal f).bst = s.bst := rfl
@[simp] theorem State.modJournal_saf (s : State) (f : List JEntry → List JEntry) : (s.modJournal f).saf = s.saf := rfl
@[simp] theorem State.modJournal_rings (s : State) (f : List JEntry → List JEntry) : (s.modJournal f).rings = s.rings := rfl
@[simp] theorem State.modJournal_journal (s : State) (f : List JEntry → List JEntry) : (s.modJournal f).journal = f s.journal := rfl
@[simp] theorem State.modJournal_tasks (s : State) (f : List JEntry → List JEntry) : (s.modJournal f).tasks = s.tasks := rfl
@[simp] theorem State.modRings_pending (s : State) (f : Tbl Ring → Tbl Ring) : (s.modRings f).pending = s.pending := rfl
@[simp] theorem State.modRings_free (s : State) (f : Tbl Ring → Tbl Ring) : (s.modRings f).free = s.free := rfl
@[simp] theorem State.modRings_sent (s : State) (f : Tbl Ring → Tbl Ring) : (s.modRings f).sent = s.sent := rfl
@[simp] theorem State.modRings_mfg (s : State) (f : Tbl Ring → Tbl Ring) : (s.modRings f).mfg = s.mfg := rfl
@[simp] theorem State.modRings_pwr (s : State) (f : Tbl Ring → Tbl Ring) : (s.modRings f).pwr = s.pwr := rfl
@[simp] theorem State.modRings_tbu (s : State) (f : Tbl Ring → Tbl Ring) : (s.modRings f).tbu = s.tbu := rfl
@[simp] theorem State.modRings_hyk (s : State) (f : Tbl Ring → Tbl Ring) : (s.modRings f).hyk = s.hyk := rfl
@[simp] theorem State.modRings_sys (s : State) (f : Tbl Ring → Tbl Ring) : (s.modRings f).sys = s.sys := rfl
@[simp] theorem State.modRings_host (s : State) (f : Tbl Ring → Tbl Ring) : (s.modRings f).host = s.host := rfl
@[simp] theorem State.modRings_mem (s : State) (f : Tbl Ring → Tbl Ring) : (s.modRings f).mem = s.mem := rfl
@[simp] theorem State.modRings_cfg (s : State) (f : Tbl Ring → Tbl Ring) : (s.modRings f).cfg = s.cfg := rfl
@[simp] theorem State.modRings_prog (s : State) (f : Tbl Ring → Tbl Ring) : (s.modRings f).prog = s.prog := rfl
@[simp] theorem State.modRings_swd (s : State) (f : Tbl Ring → Tbl Ring) : (s.modRings f).swd = s.swd := rfl
@[simp] theorem State.modRings_tri (s : State) (f : Tbl Ring → Tbl Ring) : (s.modRings f).tri = s.tri := rfl
@[simp] theorem State.modRings_cpr (s : State) (f : Tbl Ring → Tbl Ring) : (s.modRings f).cpr = s.cpr := rfl
@[simp] theorem State.modRings_fld (s : State) (f : Tbl Ring → Tbl Ring) : (s.modRings f).fld = s.fld := rfl
@[simp] theorem State.modRings_hl1 (s : State) (f : Tbl Ring → Tbl Ring) : (s.modRings f).hl1 = s.hl1 := rfl
@[simp] theorem State.modRings_hl2 (s : State) (f : Tbl Ring → Tbl Ring) : (s.modRings f).hl2 = s.hl2 := rfl
@[simp] theorem State.modRings_dpx (s : State) (f : Tbl Ring → Tbl Ring) : (s.modRings f).dpx = s.dpx := rfl
@[simp] theorem State.modRings_stl (s : State) (f : Tbl Ring → Tbl Ring) : (s.modRings f).stl = s.stl := rfl
@[simp] theorem State.modRings_upd (s : State) (f : Tbl Ring → Tbl Ring) : (s.modRings f).upd = s.upd := rfl
@[simp] theorem State.modRings_bst (s : State) (f : Tbl Ring → Tbl Ring) : (s.modRings f).bst = s.bst := rfl
@[simp] theorem State.modRings_saf (s : State) (f : Tbl Ring → Tbl Ring) : (s.modRings f).saf = s.saf := rfl
@[simp] theorem State.modRings_rings (s : State) (f : Tbl Ring → Tbl Ring) : (s.modRings f).rings = f s.rings := rfl
@[simp] theorem State.modRings_journal (s : State) (f : Tbl Ring → Tbl Ring) : (s.modRings f).journal = s.journal := rfl
@[simp] theorem State.modRings_tasks (s : State) (f : Tbl Ring → Tbl Ring) : (s.modRings f).tasks = s.tasks := rfl
@[simp] theorem State.modTasks_pending (s : State) (f : Tbl Task → Tbl Task) : (s.modTasks f).pending = s.pending := rfl
@[simp] theorem State.modTasks_free (s : State) (f : Tbl Task → Tbl Task) : (s.modTasks f).free = s.free := rfl
@[simp] theorem State.modTasks_sent (s : State) (f : Tbl Task → Tbl Task) : (s.modTasks f).sent = s.sent := rfl
@[simp] theorem State.modTasks_mfg (s : State) (f : Tbl Task → Tbl Task) : (s.modTasks f).mfg = s.mfg := rfl
@[simp] theorem State.modTasks_pwr (s : State) (f : Tbl Task → Tbl Task) : (s.modTasks f).pwr = s.pwr := rfl
@[simp] theorem State.modTasks_tbu (s : State) (f : Tbl Task → Tbl Task) : (s.modTasks f).tbu = s.tbu := rfl
@[simp] theorem State.modTasks_hyk (s : State) (f : Tbl Task → Tbl Task) : (s.modTasks f).hyk = s.hyk := rfl
@[simp] theorem State.modTasks_sys (s : State) (f : Tbl Task → Tbl Task) : (s.modTasks f).sys = s.sys := rfl
@[simp] theorem State.modTasks_host (s : State) (f : Tbl Task → Tbl Task) : (s.modTasks f).host = s.host := rfl
@[simp] theorem State.modTasks_mem (s : State) (f : Tbl Task → Tbl Task) : (s.modTasks f).mem = s.mem := rfl
@[simp] theorem State.modTasks_cfg (s : State) (f : Tbl Task → Tbl Task) : (s.modTasks f).cfg = s.cfg := rfl
@[simp] theorem State.modTasks_prog (s : State) (f : Tbl Task → Tbl Task) : (s.modTasks f).prog = s.prog := rfl
@[simp] theorem State.modTasks_swd (s : State) (f : Tbl Task → Tbl Task) : (s.modTasks f).swd = s.swd := rfl
@[simp] theorem State.modTasks_tri (s : State) (f : Tbl Task → Tbl Task) : (s.modTasks f).tri = s.tri := rfl
@[simp] theorem State.modTasks_cpr (s : State) (f : Tbl Task → Tbl Task) : (s.modTasks f).cpr = s.cpr := rfl
@[simp] theorem State.modTasks_fld (s : State) (f : Tbl Task → Tbl Task) : (s.modTasks f).fld = s.fld := rfl
@[simp] theorem State.modTasks_hl1 (s : State) (f : Tbl Task → Tbl Task) : (s.modTasks f).hl1 = s.hl1 := rfl
@[simp] theorem State.modTasks_hl2 (s : State) (f : Tbl Task → Tbl Task) : (s.modTasks f).hl2 = s.hl2 := rfl
@[simp] theorem State.modTasks_dpx (s : State) (f : Tbl Task → Tbl Task) : (s.modTasks f).dpx = s.dpx := rfl
@[simp] theorem State.modTasks_stl (s : State) (f : Tbl Task → Tbl Task) : (s.modTasks f).stl = s.stl := rfl
@[simp] theorem State.modTasks_upd (s : State) (f : Tbl Task → Tbl Task) : (s.modTasks f).upd = s.upd := rfl
@[simp] theorem State.modTasks_bst (s : State) (f : Tbl Task → Tbl Task) : (s.modTasks f).bst = s.bst := rfl
@[simp] theorem State.modTasks_saf (s : State) (f : Tbl Task → Tbl Task) : (s.modTasks f).saf = s.saf := rfl
@[simp] theorem State.modTasks_rings (s : State) (f : Tbl Task → Tbl Task) : (s.modTasks f).rings = s.rings := rfl
@[simp] theorem State.modTasks_journal (s : State) (f : Tbl Task → Tbl Task) : (s.modTasks f).journal = s.journal := rfl
@[simp] theorem State.modTasks_tasks (s : State) (f : Tbl Task → Tbl Task) : (s.modTasks f).tasks = f s.tasks := rfl
@[simp] theorem State.modRing_pending (s : State) (n : Nat) (f : Ring → Ring) : (s.modRing n f).pending = s.pending := rfl
@[simp] theorem State.modRing_free (s : State) (n : Nat) (f : Ring → Ring) : (s.modRing n f).free = s.free := rfl
@[simp] theorem State.modRing_sent (s : State) (n : Nat) (f : Ring → Ring) : (s.modRing n f).sent = s.sent := rfl
@[simp] theorem State.modRing_mfg (s : State) (n : Nat) (f : Ring → Ring) : (s.modRing n f).mfg = s.mfg := rfl
@[simp] theorem State.modRing_pwr (s : State) (n : Nat) (f : Ring → Ring) : (s.modRing n f).pwr = s.pwr := rfl
@[simp] theorem State.modRing_tbu (s : State) (n : Nat) (f : Ring → Ring) : (s.modRing n f).tbu = s.tbu := rfl
@[simp] theorem State.modRing_hyk (s : State) (n : Nat) (f : Ring → Ring) : (s.modRing n f).hyk = s.hyk := rfl
@[simp] theorem State.modRing_sys (s : State) (n : Nat) (f : Ring → Ring) : (s.modRing n f).sys = s.sys := rfl
@[simp] theorem State.modRing_host (s : State) (n : Nat) (f : Ring → Ring) : (s.modRing n f).host = s.host := rfl
@[simp] theorem State.modRing_mem (s : State) (n : Nat) (f : Ring → Ring) : (s.modRing n f).mem = s.mem := rfl
@[simp] theorem State.modRing_cfg (s : State) (n : Nat) (f : Ring → Ring) : (s.modRing n f).cfg = s.cfg := rfl
@[simp] theorem State.modRing_prog (s : State) (n : Nat) (f : Ring → Ring) : (s.modRing n f).prog = s.prog := rfl
@[simp] theorem State.modRing_swd (s : State) (n : Nat) (f : Ring → Ring) : (s.modRing n f).swd = s.swd := rfl
@[simp] theorem State.modRing_tri (s : State) (n : Nat) (f : Ring → Ring) : (s.modRing n f).tri = s.tri := rfl
@[simp] theorem State.modRing_cpr (s : State) (n : Nat) (f : Ring → Ring) : (s.modRing n f).cpr = s.cpr := rfl
@[simp] theorem State.modRing_fld (s : State) (n : Nat) (f : Ring → Ring) : (s.modRing n f).fld = s.fld := rfl
@[simp] theorem State.modRing_hl1 (s : State) (n : Nat) (f : Ring → Ring) : (s.modRing n f).hl1 = s.hl1 := rfl
@[simp] theorem State.modRing_hl2 (s : State) (n : Nat) (f : Ring → Ring) : (s.modRing n f).hl2 = s.hl2 := rfl
@[simp] theorem State.modRing_dpx (s : State) (n : Nat) (f : Ring → Ring) : (s.modRing n f).dpx = s.dpx := rfl
@[simp] theorem State.modRing_stl (s : State) (n : Nat) (f : Ring → Ring) : (s.modRing n f).stl = s.stl := rfl
@[simp] theorem State.modRing_upd (s : State) (n : Nat) (f : Ring → Ring) : (s.modRing n f).upd = s.upd := rfl
@[simp] theorem State.modRing_bst (s : State) (n : Nat) (f : Ring → Ring) : (s.modRing n f).bst = s.bst := rfl
@[simp] theorem State.modRing_saf (s : State) (n : Nat) (f : Ring → Ring) : (s.modRing n f).saf = s.saf := rfl
@[simp] theorem State.modRing_rings (s : State) (n : Nat) (f : Ring → Ring) : (s.modRing n f).rings = Tbl.upd Ring.reset s.rings n f := rfl
@[simp] theorem State.modRing_journal (s : State) (n : Nat) (f : Ring → Ring) : (s.modRing n f).journal = s.journal := rfl
@[simp] theorem State.modRing_tasks (s : State) (n : Nat) (f : Ring → Ring) : (s.modRing n f).tasks = s.tasks := rfl
@[simp] theorem State.modTask_pending (s : State) (n : Nat) (f : Task → Task) : (s.modTask n f).pending = s.pending := rfl
@[simp] theorem State.modTask_free (s : State) (n : Nat) (f : Task → Task) : (s.modTask n f).free = s.free := rfl
@[simp] theorem State.modTask_sent (s : State) (n : Nat) (f : Task → Task) : (s.modTask n f).sent = s.sent := rfl
@[simp] theorem State.modTask_mfg (s : State) (n : Nat) (f : Task → Task) : (s.modTask n f).mfg = s.mfg := rfl
@[simp] theorem State.modTask_pwr (s : State) (n : Nat) (f : Task → Task) : (s.modTask n f).pwr = s.pwr := rfl
@[simp] theorem State.modTask_tbu (s : State) (n : Nat) (f : Task → Task) : (s.modTask n f).tbu = s.tbu := rfl
@[simp] theorem State.modTask_hyk (s : State) (n : Nat) (f : Task → Task) : (s.modTask n f).hyk = s.hyk := rfl
@[simp] theorem State.modTask_sys (s : State) (n : Nat) (f : Task → Task) : (s.modTask n f).sys = s.sys := rfl
@[simp] theorem State.modTask_host (s : State) (n : Nat) (f : Task → Task) : (s.modTask n f).host = s.host := rfl
@[simp] theorem State.modTask_mem (s : State) (n : Nat) (f : Task → Task) : (s.modTask n f).mem = s.mem := rfl
@[simp] theorem State.modTask_cfg (s : State) (n : Nat) (f : Task → Task) : (s.modTask n f).cfg = s.cfg := rfl
@[simp] theorem State.modTask_prog (s : State) (n : Nat) (f : Task → Task) : (s.modTask n f).prog = s.prog := rfl
@[simp] theorem State.modTask_swd (s : State) (n : Nat) (f : Task → Task) : (s.modTask n f).swd = s.swd := rfl
@[simp] theorem State.modTask_tri (s : State) (n : Nat) (f : Task → Task) : (s.modTask n f).tri = s.tri := rfl
@[simp] theorem State.modTask_cpr (s : State) (n : Nat) (f : Task → Task) : (s.modTask n f).cpr = s.cpr := rfl
@[simp] theorem State.modTask_fld (s : State) (n : Nat) (f : Task → Task) : (s.modTask n f).fld = s.fld := rfl
@[simp] theorem State.modTask_hl1 (s : State) (n : Nat) (f : Task → Task) : (s.modTask n f).hl1 = s.hl1 := rfl
@[simp] theorem State.modTask_hl2 (s : State) (n : Nat) (f : Task → Task) : (s.modTask n f).hl2 = s.hl2 := rfl
@[simp] theorem State.modTask_dpx (s : State) (n : Nat) (f : Task → Task) : (s.modTask n f).dpx = s.dpx := rfl
@[simp] theorem State.modTask_stl (s : State) (n : Nat) (f : Task → Task) : (s.modTask n f).stl = s.stl := rfl
@[simp] theorem State.modTask_upd (s : State) (n : Nat) (f : Task → Task) : (s.modTask n f).upd = s.upd := rfl
@[simp] theorem State.modTask_bst (s : State) (n : Nat) (f : Task → Task) : (s.modTask n f).bst = s.bst := rfl
@[simp] theorem State.modTask_saf (s : State) (n : Nat) (f : Task → Task) : (s.modTask n f).saf = s.saf := rfl
@[simp] theorem State.modTask_rings (s : State) (n : Nat) (f : Task → Task) : (s.modTask n f).rings = s.rings := rfl
@[simp] theorem State.modTask_journal (s : State) (n : Nat) (f : Task → Task) : (s.modTask n f).journal = s.journal := rfl
@[simp] theorem State.modTask_tasks (s : State) (n : Nat) (f : Task → Task) : (s.modTask n f).tasks = Tbl.upd (fun _ => Task.reset) s.tasks n f := rfl
@[simp] theorem State.emit_pending (s : State) (o : Output) : (s.emit o).pending = s.pending := rfl
@[simp] theorem State.emit_free (s : State) (o : Output) : (s.emit o).free = s.free := rfl
@[simp] theorem State.emit_sent (s : State) (o : Output) : (s.emit o).sent = o :: s.sent := rfl
@[simp] theorem State.emit_mfg (s : State) (o : Output) : (s.emit o).mfg = s.mfg := rfl
@[simp] theorem State.emit_pwr (s : State) (o : Output) : (s.emit o).pwr = s.pwr := rfl
@[simp] theorem State.emit_tbu (s : State) (o : Output) : (s.emit o).tbu = s.tbu := rfl
@[simp] theorem State.emit_hyk (s : State) (o : Output) : (s.emit o).hyk = s.hyk := rfl
@[simp] theorem State.emit_sys (s : State) (o : Output) : (s.emit o).sys = s.sys := rfl
@[simp] theorem State.emit_host (s : State) (o : Output) : (s.emit o).host = s.host := rfl
@[simp] theorem State.emit_mem (s : State) (o : Output) : (s.emit o).mem = s.mem := rfl
@[simp] theorem State.emit_cfg (s : State) (o : Output) : (s.emit o).cfg = s.cfg := rfl
@[simp] theorem State.emit_prog (s : State) (o : Output) : (s.emit o).prog = s.prog := rfl
@[simp] theorem State.emit_swd (s : State) (o : Output) : (s.emit o).swd = s.swd := rfl
@[simp] theorem State.emit_tri (s : State) (o : Output) : (s.emit o).tri = s.tri := rfl
@[simp] theorem State.emit_cpr (s : State) (o : Output) : (s.emit o).cpr = s.cpr := rfl
@[simp] theorem State.emit_fld (s : State) (o : Output) : (s.emit o).fld = s.fld := rfl
@[simp] theorem State.emit_hl1 (s : State) (o : Output) : (s.emit o).hl1 = s.hl1 := rfl
@[simp] theorem State.emit_hl2 (s : State) (o : Output) : (s.emit o).hl2 = s.hl2 := rfl
@[simp] theorem State.emit_dpx (s : State) (o : Output) : (s.emit o).dpx = s.dpx := rfl
@[simp] theorem State.emit_stl (s : State) (o : Output) : (s.emit o).stl = s.stl := rfl
@[simp] theorem State.emit_upd (s : State) (o : Output) : (s.emit o).upd = s.upd := rfl
@[simp] theorem State.emit_bst (s : State) (o : Output) : (s.emit o).bst = s.bst := rfl
@[simp] theorem State.emit_saf (s : State) (o : Output) : (s.emit o).saf = s.saf := rfl
@[simp] theorem State.emit_rings (s : State) (o : Output) : (s.emit o).rings = s.rings := rfl
@[simp] theorem State.emit_journal (s : State) (o : Output) : (s.emit o).journal = s.journal := rfl
@[simp] theorem State.emit_tasks (s : State) (o : Output) : (s.emit o).tasks = s.tasks := rfl
@[simp] theorem State.bump_pending (s : State) : (s.bump).pending = s.pending := rfl
@[simp] theorem State.bump_free (s : State) : (s.bump).free = s.free + 1 := rfl
@[simp] theorem State.bump_sent (s : State) : (s.bump).sent = s.sent := rfl
@[simp] theorem State.bump_mfg (s : State) : (s.bump).mfg = s.mfg := rfl
@[simp] theorem State.bump_pwr (s : State) : (s.bump).pwr = s.pwr := rfl
@[simp] theorem State.bump_tbu (s : State) : (s.bump).tbu = s.tbu := rfl
@[simp] theorem State.bump_hyk (s : State) : (s.bump).hyk = s.hyk := rfl
@[simp] theorem State.bump_sys (s : State) : (s.bump).sys = s.sys := rfl
@[simp] theorem State.bump_host (s : State) : (s.bump).host = s.host := rfl
@[simp] theorem State.bump_mem (s : State) : (s.bump).mem = s.mem := rfl
@[simp] theorem State.bump_cfg (s : State) : (s.bump).cfg = s.cfg := rfl
@[simp] theorem State.bump_prog (s : State) : (s.bump).prog = s.prog := rfl
@[simp] theorem State.bump_swd (s : State) : (s.bump).swd = s.swd := rfl
@[simp] theorem State.bump_tri (s : State) : (s.bump).tri = s.tri := rfl
@[simp] theorem State.bump_cpr (s : State) : (s.bump).cpr = s.cpr := rfl
@[simp] theorem State.bump_fld (s : State) : (s.bump).fld = s.fld := rfl
@[simp] theorem State.bump_hl1 (s : State) : (s.bump).hl1 = s.hl1 := rfl
@[simp] theorem State.bump_hl2 (s : State) : (s.bump).hl2 = s.hl2 := rfl
@[simp] theorem State.bump_dpx (s : State) : (s.bump).dpx = s.dpx := rfl
@[simp] theorem State.bump_stl (s : State) : (s.bump).stl = s.stl := rfl
@[simp] theorem State.bump_upd (s : State) : (s.bump).upd = s.upd := rfl
@[simp] theorem State.bump_bst (s : State) : (s.bump).bst = s.bst := rfl
@[simp] theorem State.bump_saf (s : State) : (s.bump).saf = s.saf := rfl
@[simp] theorem State.bump_rings (s : State) : (s.bump).rings = s.rings := rfl
@[simp] theorem State.bump_journal (s : State) : (s.bump).journal = s.journal := rfl
@[simp] theorem State.bump_tasks (s : State) : (s.bump).tasks = s.tasks := rfl

end Sys2Proof.Machine
end

