-- ==== Sys2Proof/Laws/Tables.lean ====
section
/-! SUPPORT. Tables: what is read after a write, and that every operation keeps the canonical form. -/

namespace Sys2Proof

variable {α : Type}

/-! ## Reading after writing -/

@[simp] theorem Tbl.get_nil (d : Nat → α) (i : Nat) : Tbl.get d [] i = d i := rfl

theorem Tbl.get_erase (d : Nat → α) (t : Tbl α) (i k : Nat) :
    Tbl.get d (Tbl.erase t i) k = if k = i then d k else Tbl.get d t k := by
  induction t with
  | nil => simp [Tbl.erase]
  | cons x t ih =>
    obtain ⟨j, a⟩ := x
    simp only [Tbl.erase]
    by_cases h : j = i <;> by_cases h' : j = k <;> by_cases h'' : k = i <;> simp_all [Tbl.get]

theorem Tbl.get_ins (d : Nat → α) (t : Tbl α) (i k : Nat) (a : α) :
    Tbl.get d (Tbl.ins t i a) k = if k = i then a else Tbl.get d t k := by
  induction t with
  | nil =>
    simp only [Tbl.ins, Tbl.get]
    by_cases h : i = k
    · simp [h]
    · have h' : k ≠ i := fun e => h e.symm
      simp [h, h']
  | cons x t ih =>
    obtain ⟨j, b⟩ := x
    simp only [Tbl.ins]
    split
    · simp only [Tbl.get]
      by_cases h : i = k
      · simp [h]
      · have h' : k ≠ i := fun e => h e.symm
        simp [h, h']
    · split
      · subst_vars
        simp only [Tbl.get]
        by_cases h : j = k
        · simp [h]
        · have h' : k ≠ j := fun e => h e.symm
          simp [h, h']
      · simp only [Tbl.get, ih]
        by_cases h : j = k <;> by_cases h' : k = i <;> simp_all

/-- A read after a write: the value written, or what stood there. -/
theorem Tbl.get_set [DecidableEq α] (d : Nat → α) (t : Tbl α) (i k : Nat) (a : α) :
    Tbl.get d (Tbl.set d t i a) k = if k = i then a else Tbl.get d t k := by
  unfold Tbl.set
  split
  · rename_i h
    rw [Tbl.get_erase]
    by_cases hk : k = i
    · subst hk; simp [h]
    · simp [hk]
  · exact Tbl.get_ins d t i k a

@[simp] theorem Tbl.get_set_eq [DecidableEq α] (d : Nat → α) (t : Tbl α) (i : Nat) (a : α) :
    Tbl.get d (Tbl.set d t i a) i = a := by simp [Tbl.get_set]

theorem Tbl.get_set_ne [DecidableEq α] (d : Nat → α) (t : Tbl α) (i k : Nat) (a : α) (h : k ≠ i) :
    Tbl.get d (Tbl.set d t i a) k = Tbl.get d t k := by simp [Tbl.get_set, h]

theorem Tbl.get_upd [DecidableEq α] (d : Nat → α) (t : Tbl α) (i k : Nat) (f : α → α) :
    Tbl.get d (Tbl.upd d t i f) k = if k = i then f (Tbl.get d t i) else Tbl.get d t k := Tbl.get_set ..

@[simp] theorem Tbl.get_upd_eq [DecidableEq α] (d : Nat → α) (t : Tbl α) (i : Nat) (f : α → α) :
    Tbl.get d (Tbl.upd d t i f) i = f (Tbl.get d t i) := by simp [Tbl.get_upd]

theorem Tbl.get_upd_ne [DecidableEq α] (d : Nat → α) (t : Tbl α) (i k : Nat) (f : α → α) (h : k ≠ i) :
    Tbl.get d (Tbl.upd d t i f) k = Tbl.get d t k := by simp [Tbl.get_upd, h]

/-- `updAll` over a list of distinct indices changes each once, and no other. -/
theorem Tbl.get_updAll [DecidableEq α] (d : Nat → α) (f : Nat → α → α) (is : List Nat) (t : Tbl α) (k : Nat)
    (h : is.Nodup) :
    Tbl.get d (Tbl.updAll d f is t) k = if k ∈ is then f k (Tbl.get d t k) else Tbl.get d t k := by
  unfold Tbl.updAll
  induction is generalizing t with
  | nil => simp
  | cons i is ih =>
    obtain ⟨hi, hs⟩ := List.nodup_cons.mp h
    simp only [List.foldl_cons, ih _ hs, Tbl.get_upd, List.mem_cons]
    by_cases h1 : k ∈ is <;> by_cases h2 : k = i <;> simp_all

/-! ## The canonical form -/

theorem Tbl.wfFrom_le [DecidableEq α] (d : Nat → α) (t : Tbl α) (m n : Nat) (h : m ≤ n)
    (w : Tbl.wfFrom d n t = true) : Tbl.wfFrom d m t = true := by
  cases t with
  | nil => rfl
  | cons x t =>
    obtain ⟨j, a⟩ := x
    simp only [Tbl.wfFrom, Bool.and_eq_true, decide_eq_true_eq] at w ⊢
    exact ⟨⟨by omega, w.1.2⟩, w.2⟩

theorem Tbl.wfFrom_erase [DecidableEq α] (d : Nat → α) (t : Tbl α) (i n : Nat)
    (w : Tbl.wfFrom d n t = true) : Tbl.wfFrom d n (Tbl.erase t i) = true := by
  induction t generalizing n with
  | nil => rfl
  | cons x t ih =>
    obtain ⟨j, a⟩ := x
    simp only [Tbl.wfFrom, Bool.and_eq_true, decide_eq_true_eq] at w
    simp only [Tbl.erase]
    split
    · exact Tbl.wfFrom_le d _ _ _ (by omega) (ih _ w.2)
    · simp only [Tbl.wfFrom, Bool.and_eq_true, decide_eq_true_eq]
      exact ⟨w.1, ih _ w.2⟩

theorem Tbl.wfFrom_ins [DecidableEq α] (d : Nat → α) (t : Tbl α) (i n : Nat) (a : α) (h : n ≤ i) (ha : a ≠ d i)
    (w : Tbl.wfFrom d n t = true) : Tbl.wfFrom d n (Tbl.ins t i a) = true := by
  induction t generalizing n with
  | nil => simp [Tbl.ins, Tbl.wfFrom, h, ha]
  | cons x t ih =>
    obtain ⟨j, b⟩ := x
    simp only [Tbl.wfFrom, Bool.and_eq_true, decide_eq_true_eq] at w
    simp only [Tbl.ins]
    split
    · simp only [Tbl.wfFrom, Bool.and_eq_true, decide_eq_true_eq]
      exact ⟨⟨h, ha⟩, ⟨by omega, w.1.2⟩, w.2⟩
    · split
      · subst_vars
        simp only [Tbl.wfFrom, Bool.and_eq_true, decide_eq_true_eq]
        exact ⟨⟨h, ha⟩, w.2⟩
      · simp only [Tbl.wfFrom, Bool.and_eq_true, decide_eq_true_eq]
        exact ⟨w.1, ih _ (by omega) w.2⟩

/-- A write keeps the canonical form. -/
theorem Tbl.wf_set [DecidableEq α] (d : Nat → α) (t : Tbl α) (i : Nat) (a : α) (w : Tbl.wf d t = true) :
    Tbl.wf d (Tbl.set d t i a) = true := by
  unfold Tbl.wf Tbl.set at *
  split
  · exact Tbl.wfFrom_erase d t i 0 w
  · rename_i h
    exact Tbl.wfFrom_ins d t i 0 a (Nat.zero_le _) h w

theorem Tbl.wf_upd [DecidableEq α] (d : Nat → α) (t : Tbl α) (i : Nat) (f : α → α) (w : Tbl.wf d t = true) :
    Tbl.wf d (Tbl.upd d t i f) = true := Tbl.wf_set d t i _ w

theorem Tbl.wf_updAll [DecidableEq α] (d : Nat → α) (f : Nat → α → α) (is : List Nat) (t : Tbl α)
    (w : Tbl.wf d t = true) : Tbl.wf d (Tbl.updAll d f is t) = true := by
  unfold Tbl.updAll
  induction is generalizing t with
  | nil => exact w
  | cons i is ih => exact ih _ (Tbl.wf_upd d t i _ w)

@[simp] theorem Tbl.wf_nil [DecidableEq α] (d : Nat → α) : Tbl.wf d [] = true := rfl

/-! ## Byte memories -/

/-- Storing a byte string: each of its bytes at its address, every other byte as before. -/
theorem Tbl.get_store (t : Tbl Byte) (a : Nat) (bs : Bytes) (k : Nat) :
    Tbl.get byte0 (Tbl.store t a bs) k =
      if a ≤ k ∧ k < a + bs.length then bs.getD (k - a) 0 else Tbl.get byte0 t k := by
  induction bs generalizing t a with
  | nil =>
    have h : ¬ (a ≤ k ∧ k < a + ([] : Bytes).length) := by simp only [List.length_nil]; omega
    rw [if_neg h]; rfl
  | cons b bs ih =>
    simp only [Tbl.store, ih, Tbl.get_set, List.length_cons]
    by_cases h : a = k
    · subst h
      have h1 : ¬ (a + 1 ≤ a ∧ a < a + 1 + bs.length) := by omega
      rw [if_neg h1]; simp
    · have hk : k ≠ a := fun e => h e.symm
      by_cases h2 : a + 1 ≤ k ∧ k < a + 1 + bs.length
      · have h3 : a ≤ k ∧ k < a + (bs.length + 1) := by omega
        have h4 : k - a = (k - (a + 1)) + 1 := by omega
        simp [h2, h3, h4]
      · have h3 : ¬ (a ≤ k ∧ k < a + (bs.length + 1)) := by omega
        rw [if_neg h2, if_neg h3, if_neg hk]

/-- Storing keeps the canonical form. -/
theorem Tbl.wf_store (t : Tbl Byte) (a : Nat) (bs : Bytes) (w : Tbl.wf byte0 t = true) :
    Tbl.wf byte0 (Tbl.store t a bs) = true := by
  induction bs generalizing t a with
  | nil => exact w
  | cons b bs ih => exact ih _ _ (Tbl.wf_set byte0 t a b w)

/-- Setting bytes one after the other keeps the canonical form. -/
theorem Tbl.wf_sets (t : Tbl Byte) (l : List (Nat × Byte)) (w : Tbl.wf byte0 t = true) :
    Tbl.wf byte0 (l.foldl (fun t x => Tbl.set byte0 t x.1 x.2) t) = true := by
  induction l generalizing t with
  | nil => exact w
  | cons x l ih => exact ih _ (Tbl.wf_set byte0 t x.1 x.2 w)

end Sys2Proof
end

