-- ==== Sys2Proof/Laws/Frames.lean ====
section
/-! SUPPORT. What each shared operation leaves alone: a simp lemma per part of the state. -/

namespace Sys2Proof.Machine

/-- A fold keeps what each of its steps keeps. -/
theorem foldl_keeps {β γ : Type} (p : State → γ) (f : State → β → State) (h : ∀ s x, p (f s x) = p s) (l : List β)
    (s : State) : p (l.foldl f s) = p s := by
  induction l generalizing s with
  | nil => rfl
  | cons x l ih => simp only [List.foldl_cons, ih, h]

@[simp] theorem ite_pending (p : Prop) [Decidable p] (a b : State) : (if p then a else b).pending = if p then a.pending else b.pending := by
  split <;> rfl
@[simp] theorem foldl_pending {β : Type} (f : State → β → State) (l : List β) (s : State) (h : ∀ s x, (f s x).pending = s.pending) :
    (l.foldl f s).pending = s.pending := foldl_keeps State.pending f h l s
@[simp] theorem ite_free (p : Prop) [Decidable p] (a b : State) : (if p then a else b).free = if p then a.free else b.free := by
  split <;> rfl
@[simp] theorem foldl_free {β : Type} (f : State → β → State) (l : List β) (s : State) (h : ∀ s x, (f s x).free = s.free) :
    (l.foldl f s).free = s.free := foldl_keeps State.free f h l s
@[simp] theorem ite_sent (p : Prop) [Decidable p] (a b : State) : (if p then a else b).sent = if p then a.sent else b.sent := by
  split <;> rfl
@[simp] theorem foldl_sent {β : Type} (f : State → β → State) (l : List β) (s : State) (h : ∀ s x, (f s x).sent = s.sent) :
    (l.foldl f s).sent = s.sent := foldl_keeps State.sent f h l s
@[simp] theorem ite_mfg (p : Prop) [Decidable p] (a b : State) : (if p then a else b).mfg = if p then a.mfg else b.mfg := by
  split <;> rfl
@[simp] theorem foldl_mfg {β : Type} (f : State → β → State) (l : List β) (s : State) (h : ∀ s x, (f s x).mfg = s.mfg) :
    (l.foldl f s).mfg = s.mfg := foldl_keeps State.mfg f h l s
@[simp] theorem ite_pwr (p : Prop) [Decidable p] (a b : State) : (if p then a else b).pwr = if p then a.pwr else b.pwr := by
  split <;> rfl
@[simp] theorem foldl_pwr {β : Type} (f : State → β → State) (l : List β) (s : State) (h : ∀ s x, (f s x).pwr = s.pwr) :
    (l.foldl f s).pwr = s.pwr := foldl_keeps State.pwr f h l s
@[simp] theorem ite_tbu (p : Prop) [Decidable p] (a b : State) : (if p then a else b).tbu = if p then a.tbu else b.tbu := by
  split <;> rfl
@[simp] theorem foldl_tbu {β : Type} (f : State → β → State) (l : List β) (s : State) (h : ∀ s x, (f s x).tbu = s.tbu) :
    (l.foldl f s).tbu = s.tbu := foldl_keeps State.tbu f h l s
@[simp] theorem ite_hyk (p : Prop) [Decidable p] (a b : State) : (if p then a else b).hyk = if p then a.hyk else b.hyk := by
  split <;> rfl
@[simp] theorem foldl_hyk {β : Type} (f : State → β → State) (l : List β) (s : State) (h : ∀ s x, (f s x).hyk = s.hyk) :
    (l.foldl f s).hyk = s.hyk := foldl_keeps State.hyk f h l s
@[simp] theorem ite_sys (p : Prop) [Decidable p] (a b : State) : (if p then a else b).sys = if p then a.sys else b.sys := by
  split <;> rfl
@[simp] theorem foldl_sys {β : Type} (f : State → β → State) (l : List β) (s : State) (h : ∀ s x, (f s x).sys = s.sys) :
    (l.foldl f s).sys = s.sys := foldl_keeps State.sys f h l s
@[simp] theorem ite_host (p : Prop) [Decidable p] (a b : State) : (if p then a else b).host = if p then a.host else b.host := by
  split <;> rfl
@[simp] theorem foldl_host {β : Type} (f : State → β → State) (l : List β) (s : State) (h : ∀ s x, (f s x).host = s.host) :
    (l.foldl f s).host = s.host := foldl_keeps State.host f h l s
@[simp] theorem ite_mem (p : Prop) [Decidable p] (a b : State) : (if p then a else b).mem = if p then a.mem else b.mem := by
  split <;> rfl
@[simp] theorem foldl_mem {β : Type} (f : State → β → State) (l : List β) (s : State) (h : ∀ s x, (f s x).mem = s.mem) :
    (l.foldl f s).mem = s.mem := foldl_keeps State.mem f h l s
@[simp] theorem ite_cfg (p : Prop) [Decidable p] (a b : State) : (if p then a else b).cfg = if p then a.cfg else b.cfg := by
  split <;> rfl
@[simp] theorem foldl_cfg {β : Type} (f : State → β → State) (l : List β) (s : State) (h : ∀ s x, (f s x).cfg = s.cfg) :
    (l.foldl f s).cfg = s.cfg := foldl_keeps State.cfg f h l s
@[simp] theorem ite_prog (p : Prop) [Decidable p] (a b : State) : (if p then a else b).prog = if p then a.prog else b.prog := by
  split <;> rfl
@[simp] theorem foldl_prog {β : Type} (f : State → β → State) (l : List β) (s : State) (h : ∀ s x, (f s x).prog = s.prog) :
    (l.foldl f s).prog = s.prog := foldl_keeps State.prog f h l s
@[simp] theorem ite_swd (p : Prop) [Decidable p] (a b : State) : (if p then a else b).swd = if p then a.swd else b.swd := by
  split <;> rfl
@[simp] theorem foldl_swd {β : Type} (f : State → β → State) (l : List β) (s : State) (h : ∀ s x, (f s x).swd = s.swd) :
    (l.foldl f s).swd = s.swd := foldl_keeps State.swd f h l s
@[simp] theorem ite_tri (p : Prop) [Decidable p] (a b : State) : (if p then a else b).tri = if p then a.tri else b.tri := by
  split <;> rfl
@[simp] theorem foldl_tri {β : Type} (f : State → β → State) (l : List β) (s : State) (h : ∀ s x, (f s x).tri = s.tri) :
    (l.foldl f s).tri = s.tri := foldl_keeps State.tri f h l s
@[simp] theorem ite_cpr (p : Prop) [Decidable p] (a b : State) : (if p then a else b).cpr = if p then a.cpr else b.cpr := by
  split <;> rfl
@[simp] theorem foldl_cpr {β : Type} (f : State → β → State) (l : List β) (s : State) (h : ∀ s x, (f s x).cpr = s.cpr) :
    (l.foldl f s).cpr = s.cpr := foldl_keeps State.cpr f h l s
@[simp] theorem ite_fld (p : Prop) [Decidable p] (a b : State) : (if p then a else b).fld = if p then a.fld else b.fld := by
  split <;> rfl
@[simp] theorem foldl_fld {β : Type} (f : State → β → State) (l : List β) (s : State) (h : ∀ s x, (f s x).fld = s.fld) :
    (l.foldl f s).fld = s.fld := foldl_keeps State.fld f h l s
@[simp] theorem ite_hl1 (p : Prop) [Decidable p] (a b : State) : (if p then a else b).hl1 = if p then a.hl1 else b.hl1 := by
  split <;> rfl
@[simp] theorem foldl_hl1 {β : Type} (f : State → β → State) (l : List β) (s : State) (h : ∀ s x, (f s x).hl1 = s.hl1) :
    (l.foldl f s).hl1 = s.hl1 := foldl_keeps State.hl1 f h l s
@[simp] theorem ite_hl2 (p : Prop) [Decidable p] (a b : State) : (if p then a else b).hl2 = if p then a.hl2 else b.hl2 := by
  split <;> rfl
@[simp] theorem foldl_hl2 {β : Type} (f : State → β → State) (l : List β) (s : State) (h : ∀ s x, (f s x).hl2 = s.hl2) :
    (l.foldl f s).hl2 = s.hl2 := foldl_keeps State.hl2 f h l s
@[simp] theorem ite_dpx (p : Prop) [Decidable p] (a b : State) : (if p then a else b).dpx = if p then a.dpx else b.dpx := by
  split <;> rfl
@[simp] theorem foldl_dpx {β : Type} (f : State → β → State) (l : List β) (s : State) (h : ∀ s x, (f s x).dpx = s.dpx) :
    (l.foldl f s).dpx = s.dpx := foldl_keeps State.dpx f h l s
@[simp] theorem ite_stl (p : Prop) [Decidable p] (a b : State) : (if p then a else b).stl = if p then a.stl else b.stl := by
  split <;> rfl
@[simp] theorem foldl_stl {β : Type} (f : State → β → State) (l : List β) (s : State) (h : ∀ s x, (f s x).stl = s.stl) :
    (l.foldl f s).stl = s.stl := foldl_keeps State.stl f h l s
@[simp] theorem ite_upd (p : Prop) [Decidable p] (a b : State) : (if p then a else b).upd = if p then a.upd else b.upd := by
  split <;> rfl
@[simp] theorem foldl_upd {β : Type} (f : State → β → State) (l : List β) (s : State) (h : ∀ s x, (f s x).upd = s.upd) :
    (l.foldl f s).upd = s.upd := foldl_keeps State.upd f h l s
@[simp] theorem ite_bst (p : Prop) [Decidable p] (a b : State) : (if p then a else b).bst = if p then a.bst else b.bst := by
  split <;> rfl
@[simp] theorem foldl_bst {β : Type} (f : State → β → State) (l : List β) (s : State) (h : ∀ s x, (f s x).bst = s.bst) :
    (l.foldl f s).bst = s.bst := foldl_keeps State.bst f h l s
@[simp] theorem ite_saf (p : Prop) [Decidable p] (a b : State) : (if p then a else b).saf = if p then a.saf else b.saf := by
  split <;> rfl
@[simp] theorem foldl_saf {β : Type} (f : State → β → State) (l : List β) (s : State) (h : ∀ s x, (f s x).saf = s.saf) :
    (l.foldl f s).saf = s.saf := foldl_keeps State.saf f h l s
@[simp] theorem ite_rings (p : Prop) [Decidable p] (a b : State) : (if p then a else b).rings = if p then a.rings else b.rings := by
  split <;> rfl
@[simp] theorem foldl_rings {β : Type} (f : State → β → State) (l : List β) (s : State) (h : ∀ s x, (f s x).rings = s.rings) :
    (l.foldl f s).rings = s.rings := foldl_keeps State.rings f h l s
@[simp] theorem ite_journal (p : Prop) [Decidable p] (a b : State) : (if p then a else b).journal = if p then a.journal else b.journal := by
  split <;> rfl
@[simp] theorem foldl_journal {β : Type} (f : State → β → State) (l : List β) (s : State) (h : ∀ s x, (f s x).journal = s.journal) :
    (l.foldl f s).journal = s.journal := foldl_keeps State.journal f h l s
@[simp] theorem ite_tasks (p : Prop) [Decidable p] (a b : State) : (if p then a else b).tasks = if p then a.tasks else b.tasks := by
  split <;> rfl
@[simp] theorem foldl_tasks {β : Type} (f : State → β → State) (l : List β) (s : State) (h : ∀ s x, (f s x).tasks = s.tasks) :
    (l.foldl f s).tasks = s.tasks := foldl_keeps State.tasks f h l s

@[simp] theorem State.modChan_pending (s : State) (n : Nat) (f : Channel → Channel) : (s.modChan n f).pending = s.pending := by
  rfl
@[simp] theorem State.modChan_free (s : State) (n : Nat) (f : Channel → Channel) : (s.modChan n f).free = s.free := by
  rfl
@[simp] theorem State.modChan_sent (s : State) (n : Nat) (f : Channel → Channel) : (s.modChan n f).sent = s.sent := by
  rfl
@[simp] theorem State.modChan_mfg (s : State) (n : Nat) (f : Channel → Channel) : (s.modChan n f).mfg = s.mfg := by
  rfl
@[simp] theorem State.modChan_pwr (s : State) (n : Nat) (f : Channel → Channel) : (s.modChan n f).pwr = s.pwr := by
  rfl
@[simp] theorem State.modChan_tbu (s : State) (n : Nat) (f : Channel → Channel) : (s.modChan n f).tbu = s.tbu := by
  rfl
@[simp] theorem State.modChan_hyk (s : State) (n : Nat) (f : Channel → Channel) : (s.modChan n f).hyk = s.hyk := by
  rfl
@[simp] theorem State.modChan_sys (s : State) (n : Nat) (f : Channel → Channel) : (s.modChan n f).sys = s.sys := by
  rfl
@[simp] theorem State.modChan_host (s : State) (n : Nat) (f : Channel → Channel) : (s.modChan n f).host = s.host := by
  rfl
@[simp] theorem State.modChan_mem (s : State) (n : Nat) (f : Channel → Channel) : (s.modChan n f).mem = s.mem := by
  rfl
@[simp] theorem State.modChan_cfg (s : State) (n : Nat) (f : Channel → Channel) : (s.modChan n f).cfg = s.cfg := by
  rfl
@[simp] theorem State.modChan_prog (s : State) (n : Nat) (f : Channel → Channel) : (s.modChan n f).prog = s.prog := by
  rfl
@[simp] theorem State.modChan_swd (s : State) (n : Nat) (f : Channel → Channel) : (s.modChan n f).swd = s.swd := by
  rfl
@[simp] theorem State.modChan_tri (s : State) (n : Nat) (f : Channel → Channel) : (s.modChan n f).tri = s.tri := by
  rfl
@[simp] theorem State.modChan_cpr (s : State) (n : Nat) (f : Channel → Channel) : (s.modChan n f).cpr = s.cpr := by
  rfl
@[simp] theorem State.modChan_hl1 (s : State) (n : Nat) (f : Channel → Channel) : (s.modChan n f).hl1 = s.hl1 := by
  rfl
@[simp] theorem State.modChan_hl2 (s : State) (n : Nat) (f : Channel → Channel) : (s.modChan n f).hl2 = s.hl2 := by
  rfl
@[simp] theorem State.modChan_dpx (s : State) (n : Nat) (f : Channel → Channel) : (s.modChan n f).dpx = s.dpx := by
  rfl
@[simp] theorem State.modChan_stl (s : State) (n : Nat) (f : Channel → Channel) : (s.modChan n f).stl = s.stl := by
  rfl
@[simp] theorem State.modChan_upd (s : State) (n : Nat) (f : Channel → Channel) : (s.modChan n f).upd = s.upd := by
  rfl
@[simp] theorem State.modChan_bst (s : State) (n : Nat) (f : Channel → Channel) : (s.modChan n f).bst = s.bst := by
  rfl
@[simp] theorem State.modChan_saf (s : State) (n : Nat) (f : Channel → Channel) : (s.modChan n f).saf = s.saf := by
  rfl
@[simp] theorem State.modChan_rings (s : State) (n : Nat) (f : Channel → Channel) : (s.modChan n f).rings = s.rings := by
  rfl
@[simp] theorem State.modChan_journal (s : State) (n : Nat) (f : Channel → Channel) : (s.modChan n f).journal = s.journal := by
  rfl
@[simp] theorem State.modChan_tasks (s : State) (n : Nat) (f : Channel → Channel) : (s.modChan n f).tasks = s.tasks := by
  rfl

@[simp] theorem State.modCell_pending (s : State) (n : Nat) (f : Cell → Cell) : (s.modCell n f).pending = s.pending := by
  rfl
@[simp] theorem State.modCell_free (s : State) (n : Nat) (f : Cell → Cell) : (s.modCell n f).free = s.free := by
  rfl
@[simp] theorem State.modCell_sent (s : State) (n : Nat) (f : Cell → Cell) : (s.modCell n f).sent = s.sent := by
  rfl
@[simp] theorem State.modCell_mfg (s : State) (n : Nat) (f : Cell → Cell) : (s.modCell n f).mfg = s.mfg := by
  rfl
@[simp] theorem State.modCell_pwr (s : State) (n : Nat) (f : Cell → Cell) : (s.modCell n f).pwr = s.pwr := by
  rfl
@[simp] theorem State.modCell_tbu (s : State) (n : Nat) (f : Cell → Cell) : (s.modCell n f).tbu = s.tbu := by
  rfl
@[simp] theorem State.modCell_hyk (s : State) (n : Nat) (f : Cell → Cell) : (s.modCell n f).hyk = s.hyk := by
  rfl
@[simp] theorem State.modCell_sys (s : State) (n : Nat) (f : Cell → Cell) : (s.modCell n f).sys = s.sys := by
  rfl
@[simp] theorem State.modCell_host (s : State) (n : Nat) (f : Cell → Cell) : (s.modCell n f).host = s.host := by
  rfl
@[simp] theorem State.modCell_mem (s : State) (n : Nat) (f : Cell → Cell) : (s.modCell n f).mem = s.mem := by
  rfl
@[simp] theorem State.modCell_cfg (s : State) (n : Nat) (f : Cell → Cell) : (s.modCell n f).cfg = s.cfg := by
  rfl
@[simp] theorem State.modCell_prog (s : State) (n : Nat) (f : Cell → Cell) : (s.modCell n f).prog = s.prog := by
  rfl
@[simp] theorem State.modCell_swd (s : State) (n : Nat) (f : Cell → Cell) : (s.modCell n f).swd = s.swd := by
  rfl
@[simp] theorem State.modCell_tri (s : State) (n : Nat) (f : Cell → Cell) : (s.modCell n f).tri = s.tri := by
  rfl
@[simp] theorem State.modCell_cpr (s : State) (n : Nat) (f : Cell → Cell) : (s.modCell n f).cpr = s.cpr := by
  rfl
@[simp] theorem State.modCell_hl1 (s : State) (n : Nat) (f : Cell → Cell) : (s.modCell n f).hl1 = s.hl1 := by
  rfl
@[simp] theorem State.modCell_hl2 (s : State) (n : Nat) (f : Cell → Cell) : (s.modCell n f).hl2 = s.hl2 := by
  rfl
@[simp] theorem State.modCell_dpx (s : State) (n : Nat) (f : Cell → Cell) : (s.modCell n f).dpx = s.dpx := by
  rfl
@[simp] theorem State.modCell_stl (s : State) (n : Nat) (f : Cell → Cell) : (s.modCell n f).stl = s.stl := by
  rfl
@[simp] theorem State.modCell_upd (s : State) (n : Nat) (f : Cell → Cell) : (s.modCell n f).upd = s.upd := by
  rfl
@[simp] theorem State.modCell_bst (s : State) (n : Nat) (f : Cell → Cell) : (s.modCell n f).bst = s.bst := by
  rfl
@[simp] theorem State.modCell_saf (s : State) (n : Nat) (f : Cell → Cell) : (s.modCell n f).saf = s.saf := by
  rfl
@[simp] theorem State.modCell_rings (s : State) (n : Nat) (f : Cell → Cell) : (s.modCell n f).rings = s.rings := by
  rfl
@[simp] theorem State.modCell_journal (s : State) (n : Nat) (f : Cell → Cell) : (s.modCell n f).journal = s.journal := by
  rfl
@[simp] theorem State.modCell_tasks (s : State) (n : Nat) (f : Cell → Cell) : (s.modCell n f).tasks = s.tasks := by
  rfl

@[simp] theorem State.modDual_pending (s : State) (n : Nat) (f : DualPair → DualPair) : (s.modDual n f).pending = s.pending := by
  rfl
@[simp] theorem State.modDual_free (s : State) (n : Nat) (f : DualPair → DualPair) : (s.modDual n f).free = s.free := by
  rfl
@[simp] theorem State.modDual_sent (s : State) (n : Nat) (f : DualPair → DualPair) : (s.modDual n f).sent = s.sent := by
  rfl
@[simp] theorem State.modDual_mfg (s : State) (n : Nat) (f : DualPair → DualPair) : (s.modDual n f).mfg = s.mfg := by
  rfl
@[simp] theorem State.modDual_pwr (s : State) (n : Nat) (f : DualPair → DualPair) : (s.modDual n f).pwr = s.pwr := by
  rfl
@[simp] theorem State.modDual_tbu (s : State) (n : Nat) (f : DualPair → DualPair) : (s.modDual n f).tbu = s.tbu := by
  rfl
@[simp] theorem State.modDual_hyk (s : State) (n : Nat) (f : DualPair → DualPair) : (s.modDual n f).hyk = s.hyk := by
  rfl
@[simp] theorem State.modDual_sys (s : State) (n : Nat) (f : DualPair → DualPair) : (s.modDual n f).sys = s.sys := by
  rfl
@[simp] theorem State.modDual_host (s : State) (n : Nat) (f : DualPair → DualPair) : (s.modDual n f).host = s.host := by
  rfl
@[simp] theorem State.modDual_mem (s : State) (n : Nat) (f : DualPair → DualPair) : (s.modDual n f).mem = s.mem := by
  rfl
@[simp] theorem State.modDual_cfg (s : State) (n : Nat) (f : DualPair → DualPair) : (s.modDual n f).cfg = s.cfg := by
  rfl
@[simp] theorem State.modDual_prog (s : State) (n : Nat) (f : DualPair → DualPair) : (s.modDual n f).prog = s.prog := by
  rfl
@[simp] theorem State.modDual_swd (s : State) (n : Nat) (f : DualPair → DualPair) : (s.modDual n f).swd = s.swd := by
  rfl
@[simp] theorem State.modDual_tri (s : State) (n : Nat) (f : DualPair → DualPair) : (s.modDual n f).tri = s.tri := by
  rfl
@[simp] theorem State.modDual_cpr (s : State) (n : Nat) (f : DualPair → DualPair) : (s.modDual n f).cpr = s.cpr := by
  rfl
@[simp] theorem State.modDual_hl1 (s : State) (n : Nat) (f : DualPair → DualPair) : (s.modDual n f).hl1 = s.hl1 := by
  rfl
@[simp] theorem State.modDual_hl2 (s : State) (n : Nat) (f : DualPair → DualPair) : (s.modDual n f).hl2 = s.hl2 := by
  rfl
@[simp] theorem State.modDual_dpx (s : State) (n : Nat) (f : DualPair → DualPair) : (s.modDual n f).dpx = s.dpx := by
  rfl
@[simp] theorem State.modDual_stl (s : State) (n : Nat) (f : DualPair → DualPair) : (s.modDual n f).stl = s.stl := by
  rfl
@[simp] theorem State.modDual_upd (s : State) (n : Nat) (f : DualPair → DualPair) : (s.modDual n f).upd = s.upd := by
  rfl
@[simp] theorem State.modDual_bst (s : State) (n : Nat) (f : DualPair → DualPair) : (s.modDual n f).bst = s.bst := by
  rfl
@[simp] theorem State.modDual_saf (s : State) (n : Nat) (f : DualPair → DualPair) : (s.modDual n f).saf = s.saf := by
  rfl
@[simp] theorem State.modDual_rings (s : State) (n : Nat) (f : DualPair → DualPair) : (s.modDual n f).rings = s.rings := by
  rfl
@[simp] theorem State.modDual_journal (s : State) (n : Nat) (f : DualPair → DualPair) : (s.modDual n f).journal = s.journal := by
  rfl
@[simp] theorem State.modDual_tasks (s : State) (n : Nat) (f : DualPair → DualPair) : (s.modDual n f).tasks = s.tasks := by
  rfl

@[simp] theorem State.modGroup_pending (s : State) (n : Nat) (f : Group → Group) : (s.modGroup n f).pending = s.pending := by
  rfl
@[simp] theorem State.modGroup_free (s : State) (n : Nat) (f : Group → Group) : (s.modGroup n f).free = s.free := by
  rfl
@[simp] theorem State.modGroup_sent (s : State) (n : Nat) (f : Group → Group) : (s.modGroup n f).sent = s.sent := by
  rfl
@[simp] theorem State.modGroup_mfg (s : State) (n : Nat) (f : Group → Group) : (s.modGroup n f).mfg = s.mfg := by
  rfl
@[simp] theorem State.modGroup_pwr (s : State) (n : Nat) (f : Group → Group) : (s.modGroup n f).pwr = s.pwr := by
  rfl
@[simp] theorem State.modGroup_tbu (s : State) (n : Nat) (f : Group → Group) : (s.modGroup n f).tbu = s.tbu := by
  rfl
@[simp] theorem State.modGroup_hyk (s : State) (n : Nat) (f : Group → Group) : (s.modGroup n f).hyk = s.hyk := by
  rfl
@[simp] theorem State.modGroup_sys (s : State) (n : Nat) (f : Group → Group) : (s.modGroup n f).sys = s.sys := by
  rfl
@[simp] theorem State.modGroup_host (s : State) (n : Nat) (f : Group → Group) : (s.modGroup n f).host = s.host := by
  rfl
@[simp] theorem State.modGroup_mem (s : State) (n : Nat) (f : Group → Group) : (s.modGroup n f).mem = s.mem := by
  rfl
@[simp] theorem State.modGroup_cfg (s : State) (n : Nat) (f : Group → Group) : (s.modGroup n f).cfg = s.cfg := by
  rfl
@[simp] theorem State.modGroup_prog (s : State) (n : Nat) (f : Group → Group) : (s.modGroup n f).prog = s.prog := by
  rfl
@[simp] theorem State.modGroup_swd (s : State) (n : Nat) (f : Group → Group) : (s.modGroup n f).swd = s.swd := by
  rfl
@[simp] theorem State.modGroup_tri (s : State) (n : Nat) (f : Group → Group) : (s.modGroup n f).tri = s.tri := by
  rfl
@[simp] theorem State.modGroup_cpr (s : State) (n : Nat) (f : Group → Group) : (s.modGroup n f).cpr = s.cpr := by
  rfl
@[simp] theorem State.modGroup_hl1 (s : State) (n : Nat) (f : Group → Group) : (s.modGroup n f).hl1 = s.hl1 := by
  rfl
@[simp] theorem State.modGroup_hl2 (s : State) (n : Nat) (f : Group → Group) : (s.modGroup n f).hl2 = s.hl2 := by
  rfl
@[simp] theorem State.modGroup_dpx (s : State) (n : Nat) (f : Group → Group) : (s.modGroup n f).dpx = s.dpx := by
  rfl
@[simp] theorem State.modGroup_stl (s : State) (n : Nat) (f : Group → Group) : (s.modGroup n f).stl = s.stl := by
  rfl
@[simp] theorem State.modGroup_upd (s : State) (n : Nat) (f : Group → Group) : (s.modGroup n f).upd = s.upd := by
  rfl
@[simp] theorem State.modGroup_bst (s : State) (n : Nat) (f : Group → Group) : (s.modGroup n f).bst = s.bst := by
  rfl
@[simp] theorem State.modGroup_saf (s : State) (n : Nat) (f : Group → Group) : (s.modGroup n f).saf = s.saf := by
  rfl
@[simp] theorem State.modGroup_rings (s : State) (n : Nat) (f : Group → Group) : (s.modGroup n f).rings = s.rings := by
  rfl
@[simp] theorem State.modGroup_journal (s : State) (n : Nat) (f : Group → Group) : (s.modGroup n f).journal = s.journal := by
  rfl
@[simp] theorem State.modGroup_tasks (s : State) (n : Nat) (f : Group → Group) : (s.modGroup n f).tasks = s.tasks := by
  rfl

@[simp] theorem State.modNet_pending (s : State) (n : Net) (f : HlNet → HlNet) : (s.modNet n f).pending = s.pending := by
  cases n <;> rfl
@[simp] theorem State.modNet_free (s : State) (n : Net) (f : HlNet → HlNet) : (s.modNet n f).free = s.free := by
  cases n <;> rfl
@[simp] theorem State.modNet_sent (s : State) (n : Net) (f : HlNet → HlNet) : (s.modNet n f).sent = s.sent := by
  cases n <;> rfl
@[simp] theorem State.modNet_mfg (s : State) (n : Net) (f : HlNet → HlNet) : (s.modNet n f).mfg = s.mfg := by
  cases n <;> rfl
@[simp] theorem State.modNet_pwr (s : State) (n : Net) (f : HlNet → HlNet) : (s.modNet n f).pwr = s.pwr := by
  cases n <;> rfl
@[simp] theorem State.modNet_tbu (s : State) (n : Net) (f : HlNet → HlNet) : (s.modNet n f).tbu = s.tbu := by
  cases n <;> rfl
@[simp] theorem State.modNet_hyk (s : State) (n : Net) (f : HlNet → HlNet) : (s.modNet n f).hyk = s.hyk := by
  cases n <;> rfl
@[simp] theorem State.modNet_sys (s : State) (n : Net) (f : HlNet → HlNet) : (s.modNet n f).sys = s.sys := by
  cases n <;> rfl
@[simp] theorem State.modNet_host (s : State) (n : Net) (f : HlNet → HlNet) : (s.modNet n f).host = s.host := by
  cases n <;> rfl
@[simp] theorem State.modNet_mem (s : State) (n : Net) (f : HlNet → HlNet) : (s.modNet n f).mem = s.mem := by
  cases n <;> rfl
@[simp] theorem State.modNet_cfg (s : State) (n : Net) (f : HlNet → HlNet) : (s.modNet n f).cfg = s.cfg := by
  cases n <;> rfl
@[simp] theorem State.modNet_prog (s : State) (n : Net) (f : HlNet → HlNet) : (s.modNet n f).prog = s.prog := by
  cases n <;> rfl
@[simp] theorem State.modNet_swd (s : State) (n : Net) (f : HlNet → HlNet) : (s.modNet n f).swd = s.swd := by
  cases n <;> rfl
@[simp] theorem State.modNet_tri (s : State) (n : Net) (f : HlNet → HlNet) : (s.modNet n f).tri = s.tri := by
  cases n <;> rfl
@[simp] theorem State.modNet_cpr (s : State) (n : Net) (f : HlNet → HlNet) : (s.modNet n f).cpr = s.cpr := by
  cases n <;> rfl
@[simp] theorem State.modNet_fld (s : State) (n : Net) (f : HlNet → HlNet) : (s.modNet n f).fld = s.fld := by
  cases n <;> rfl
@[simp] theorem State.modNet_dpx (s : State) (n : Net) (f : HlNet → HlNet) : (s.modNet n f).dpx = s.dpx := by
  cases n <;> rfl
@[simp] theorem State.modNet_stl (s : State) (n : Net) (f : HlNet → HlNet) : (s.modNet n f).stl = s.stl := by
  cases n <;> rfl
@[simp] theorem State.modNet_upd (s : State) (n : Net) (f : HlNet → HlNet) : (s.modNet n f).upd = s.upd := by
  cases n <;> rfl
@[simp] theorem State.modNet_bst (s : State) (n : Net) (f : HlNet → HlNet) : (s.modNet n f).bst = s.bst := by
  cases n <;> rfl
@[simp] theorem State.modNet_saf (s : State) (n : Net) (f : HlNet → HlNet) : (s.modNet n f).saf = s.saf := by
  cases n <;> rfl
@[simp] theorem State.modNet_rings (s : State) (n : Net) (f : HlNet → HlNet) : (s.modNet n f).rings = s.rings := by
  cases n <;> rfl
@[simp] theorem State.modNet_journal (s : State) (n : Net) (f : HlNet → HlNet) : (s.modNet n f).journal = s.journal := by
  cases n <;> rfl
@[simp] theorem State.modNet_tasks (s : State) (n : Net) (f : HlNet → HlNet) : (s.modNet n f).tasks = s.tasks := by
  cases n <;> rfl

@[simp] theorem State.modCtx_pending (s : State) (n : Nat) (f : Ctx → Ctx) : (s.modCtx n f).pending = s.pending := by
  rfl
@[simp] theorem State.modCtx_free (s : State) (n : Nat) (f : Ctx → Ctx) : (s.modCtx n f).free = s.free := by
  rfl
@[simp] theorem State.modCtx_sent (s : State) (n : Nat) (f : Ctx → Ctx) : (s.modCtx n f).sent = s.sent := by
  rfl
@[simp] theorem State.modCtx_mfg (s : State) (n : Nat) (f : Ctx → Ctx) : (s.modCtx n f).mfg = s.mfg := by
  rfl
@[simp] theorem State.modCtx_pwr (s : State) (n : Nat) (f : Ctx → Ctx) : (s.modCtx n f).pwr = s.pwr := by
  rfl
@[simp] theorem State.modCtx_tbu (s : State) (n : Nat) (f : Ctx → Ctx) : (s.modCtx n f).tbu = s.tbu := by
  rfl
@[simp] theorem State.modCtx_hyk (s : State) (n : Nat) (f : Ctx → Ctx) : (s.modCtx n f).hyk = s.hyk := by
  rfl
@[simp] theorem State.modCtx_sys (s : State) (n : Nat) (f : Ctx → Ctx) : (s.modCtx n f).sys = s.sys := by
  rfl
@[simp] theorem State.modCtx_host (s : State) (n : Nat) (f : Ctx → Ctx) : (s.modCtx n f).host = s.host := by
  rfl
@[simp] theorem State.modCtx_mem (s : State) (n : Nat) (f : Ctx → Ctx) : (s.modCtx n f).mem = s.mem := by
  rfl
@[simp] theorem State.modCtx_cfg (s : State) (n : Nat) (f : Ctx → Ctx) : (s.modCtx n f).cfg = s.cfg := by
  rfl
@[simp] theorem State.modCtx_prog (s : State) (n : Nat) (f : Ctx → Ctx) : (s.modCtx n f).prog = s.prog := by
  rfl
@[simp] theorem State.modCtx_swd (s : State) (n : Nat) (f : Ctx → Ctx) : (s.modCtx n f).swd = s.swd := by
  rfl
@[simp] theorem State.modCtx_tri (s : State) (n : Nat) (f : Ctx → Ctx) : (s.modCtx n f).tri = s.tri := by
  rfl
@[simp] theorem State.modCtx_cpr (s : State) (n : Nat) (f : Ctx → Ctx) : (s.modCtx n f).cpr = s.cpr := by
  rfl
@[simp] theorem State.modCtx_fld (s : State) (n : Nat) (f : Ctx → Ctx) : (s.modCtx n f).fld = s.fld := by
  rfl
@[simp] theorem State.modCtx_hl1 (s : State) (n : Nat) (f : Ctx → Ctx) : (s.modCtx n f).hl1 = s.hl1 := by
  rfl
@[simp] theorem State.modCtx_hl2 (s : State) (n : Nat) (f : Ctx → Ctx) : (s.modCtx n f).hl2 = s.hl2 := by
  rfl
@[simp] theorem State.modCtx_dpx (s : State) (n : Nat) (f : Ctx → Ctx) : (s.modCtx n f).dpx = s.dpx := by
  rfl
@[simp] theorem State.modCtx_upd (s : State) (n : Nat) (f : Ctx → Ctx) : (s.modCtx n f).upd = s.upd := by
  rfl
@[simp] theorem State.modCtx_bst (s : State) (n : Nat) (f : Ctx → Ctx) : (s.modCtx n f).bst = s.bst := by
  rfl
@[simp] theorem State.modCtx_saf (s : State) (n : Nat) (f : Ctx → Ctx) : (s.modCtx n f).saf = s.saf := by
  rfl
@[simp] theorem State.modCtx_rings (s : State) (n : Nat) (f : Ctx → Ctx) : (s.modCtx n f).rings = s.rings := by
  rfl
@[simp] theorem State.modCtx_journal (s : State) (n : Nat) (f : Ctx → Ctx) : (s.modCtx n f).journal = s.journal := by
  rfl
@[simp] theorem State.modCtx_tasks (s : State) (n : Nat) (f : Ctx → Ctx) : (s.modCtx n f).tasks = s.tasks := by
  rfl

@[simp] theorem State.modSem_pending (s : State) (n : Nat) (f : Sem → Sem) : (s.modSem n f).pending = s.pending := by
  rfl
@[simp] theorem State.modSem_free (s : State) (n : Nat) (f : Sem → Sem) : (s.modSem n f).free = s.free := by
  rfl
@[simp] theorem State.modSem_sent (s : State) (n : Nat) (f : Sem → Sem) : (s.modSem n f).sent = s.sent := by
  rfl
@[simp] theorem State.modSem_mfg (s : State) (n : Nat) (f : Sem → Sem) : (s.modSem n f).mfg = s.mfg := by
  rfl
@[simp] theorem State.modSem_pwr (s : State) (n : Nat) (f : Sem → Sem) : (s.modSem n f).pwr = s.pwr := by
  rfl
@[simp] theorem State.modSem_tbu (s : State) (n : Nat) (f : Sem → Sem) : (s.modSem n f).tbu = s.tbu := by
  rfl
@[simp] theorem State.modSem_hyk (s : State) (n : Nat) (f : Sem → Sem) : (s.modSem n f).hyk = s.hyk := by
  rfl
@[simp] theorem State.modSem_sys (s : State) (n : Nat) (f : Sem → Sem) : (s.modSem n f).sys = s.sys := by
  rfl
@[simp] theorem State.modSem_host (s : State) (n : Nat) (f : Sem → Sem) : (s.modSem n f).host = s.host := by
  rfl
@[simp] theorem State.modSem_mem (s : State) (n : Nat) (f : Sem → Sem) : (s.modSem n f).mem = s.mem := by
  rfl
@[simp] theorem State.modSem_cfg (s : State) (n : Nat) (f : Sem → Sem) : (s.modSem n f).cfg = s.cfg := by
  rfl
@[simp] theorem State.modSem_prog (s : State) (n : Nat) (f : Sem → Sem) : (s.modSem n f).prog = s.prog := by
  rfl
@[simp] theorem State.modSem_swd (s : State) (n : Nat) (f : Sem → Sem) : (s.modSem n f).swd = s.swd := by
  rfl
@[simp] theorem State.modSem_tri (s : State) (n : Nat) (f : Sem → Sem) : (s.modSem n f).tri = s.tri := by
  rfl
@[simp] theorem State.modSem_cpr (s : State) (n : Nat) (f : Sem → Sem) : (s.modSem n f).cpr = s.cpr := by
  rfl
@[simp] theorem State.modSem_fld (s : State) (n : Nat) (f : Sem → Sem) : (s.modSem n f).fld = s.fld := by
  rfl
@[simp] theorem State.modSem_hl1 (s : State) (n : Nat) (f : Sem → Sem) : (s.modSem n f).hl1 = s.hl1 := by
  rfl
@[simp] theorem State.modSem_hl2 (s : State) (n : Nat) (f : Sem → Sem) : (s.modSem n f).hl2 = s.hl2 := by
  rfl
@[simp] theorem State.modSem_dpx (s : State) (n : Nat) (f : Sem → Sem) : (s.modSem n f).dpx = s.dpx := by
  rfl
@[simp] theorem State.modSem_upd (s : State) (n : Nat) (f : Sem → Sem) : (s.modSem n f).upd = s.upd := by
  rfl
@[simp] theorem State.modSem_bst (s : State) (n : Nat) (f : Sem → Sem) : (s.modSem n f).bst = s.bst := by
  rfl
@[simp] theorem State.modSem_saf (s : State) (n : Nat) (f : Sem → Sem) : (s.modSem n f).saf = s.saf := by
  rfl
@[simp] theorem State.modSem_rings (s : State) (n : Nat) (f : Sem → Sem) : (s.modSem n f).rings = s.rings := by
  rfl
@[simp] theorem State.modSem_journal (s : State) (n : Nat) (f : Sem → Sem) : (s.modSem n f).journal = s.journal := by
  rfl
@[simp] theorem State.modSem_tasks (s : State) (n : Nat) (f : Sem → Sem) : (s.modSem n f).tasks = s.tasks := by
  rfl

@[simp] theorem State.modPort_pending (s : State) (n : Nat) (f : StlPort → StlPort) : (s.modPort n f).pending = s.pending := by
  rfl
@[simp] theorem State.modPort_free (s : State) (n : Nat) (f : StlPort → StlPort) : (s.modPort n f).free = s.free := by
  rfl
@[simp] theorem State.modPort_sent (s : State) (n : Nat) (f : StlPort → StlPort) : (s.modPort n f).sent = s.sent := by
  rfl
@[simp] theorem State.modPort_mfg (s : State) (n : Nat) (f : StlPort → StlPort) : (s.modPort n f).mfg = s.mfg := by
  rfl
@[simp] theorem State.modPort_pwr (s : State) (n : Nat) (f : StlPort → StlPort) : (s.modPort n f).pwr = s.pwr := by
  rfl
@[simp] theorem State.modPort_tbu (s : State) (n : Nat) (f : StlPort → StlPort) : (s.modPort n f).tbu = s.tbu := by
  rfl
@[simp] theorem State.modPort_hyk (s : State) (n : Nat) (f : StlPort → StlPort) : (s.modPort n f).hyk = s.hyk := by
  rfl
@[simp] theorem State.modPort_sys (s : State) (n : Nat) (f : StlPort → StlPort) : (s.modPort n f).sys = s.sys := by
  rfl
@[simp] theorem State.modPort_host (s : State) (n : Nat) (f : StlPort → StlPort) : (s.modPort n f).host = s.host := by
  rfl
@[simp] theorem State.modPort_mem (s : State) (n : Nat) (f : StlPort → StlPort) : (s.modPort n f).mem = s.mem := by
  rfl
@[simp] theorem State.modPort_cfg (s : State) (n : Nat) (f : StlPort → StlPort) : (s.modPort n f).cfg = s.cfg := by
  rfl
@[simp] theorem State.modPort_prog (s : State) (n : Nat) (f : StlPort → StlPort) : (s.modPort n f).prog = s.prog := by
  rfl
@[simp] theorem State.modPort_swd (s : State) (n : Nat) (f : StlPort → StlPort) : (s.modPort n f).swd = s.swd := by
  rfl
@[simp] theorem State.modPort_tri (s : State) (n : Nat) (f : StlPort → StlPort) : (s.modPort n f).tri = s.tri := by
  rfl
@[simp] theorem State.modPort_cpr (s : State) (n : Nat) (f : StlPort → StlPort) : (s.modPort n f).cpr = s.cpr := by
  rfl
@[simp] theorem State.modPort_fld (s : State) (n : Nat) (f : StlPort → StlPort) : (s.modPort n f).fld = s.fld := by
  rfl
@[simp] theorem State.modPort_hl1 (s : State) (n : Nat) (f : StlPort → StlPort) : (s.modPort n f).hl1 = s.hl1 := by
  rfl
@[simp] theorem State.modPort_hl2 (s : State) (n : Nat) (f : StlPort → StlPort) : (s.modPort n f).hl2 = s.hl2 := by
  rfl
@[simp] theorem State.modPort_dpx (s : State) (n : Nat) (f : StlPort → StlPort) : (s.modPort n f).dpx = s.dpx := by
  rfl
@[simp] theorem State.modPort_upd (s : State) (n : Nat) (f : StlPort → StlPort) : (s.modPort n f).upd = s.upd := by
  rfl
@[simp] theorem State.modPort_bst (s : State) (n : Nat) (f : StlPort → StlPort) : (s.modPort n f).bst = s.bst := by
  rfl
@[simp] theorem State.modPort_saf (s : State) (n : Nat) (f : StlPort → StlPort) : (s.modPort n f).saf = s.saf := by
  rfl
@[simp] theorem State.modPort_rings (s : State) (n : Nat) (f : StlPort → StlPort) : (s.modPort n f).rings = s.rings := by
  rfl
@[simp] theorem State.modPort_journal (s : State) (n : Nat) (f : StlPort → StlPort) : (s.modPort n f).journal = s.journal := by
  rfl
@[simp] theorem State.modPort_tasks (s : State) (n : Nat) (f : StlPort → StlPort) : (s.modPort n f).tasks = s.tasks := by
  rfl

@[simp] theorem State.modStation_pending (s : State) (n : Net) (a : Nat) (f : Station → Station) : (s.modStation n a f).pending = s.pending := by
  rfl
@[simp] theorem State.modStation_free (s : State) (n : Net) (a : Nat) (f : Station → Station) : (s.modStation n a f).free = s.free := by
  rfl
@[simp] theorem State.modStation_sent (s : State) (n : Net) (a : Nat) (f : Station → Station) : (s.modStation n a f).sent = s.sent := by
  rfl
@[simp] theorem State.modStation_mfg (s : State) (n : Net) (a : Nat) (f : Station → Station) : (s.modStation n a f).mfg = s.mfg := by
  rfl
@[simp] theorem State.modStation_pwr (s : State) (n : Net) (a : Nat) (f : Station → Station) : (s.modStation n a f).pwr = s.pwr := by
  rfl
@[simp] theorem State.modStation_tbu (s : State) (n : Net) (a : Nat) (f : Station → Station) : (s.modStation n a f).tbu = s.tbu := by
  rfl
@[simp] theorem State.modStation_hyk (s : State) (n : Net) (a : Nat) (f : Station → Station) : (s.modStation n a f).hyk = s.hyk := by
  rfl
@[simp] theorem State.modStation_sys (s : State) (n : Net) (a : Nat) (f : Station → Station) : (s.modStation n a f).sys = s.sys := by
  rfl
@[simp] theorem State.modStation_host (s : State) (n : Net) (a : Nat) (f : Station → Station) : (s.modStation n a f).host = s.host := by
  rfl
@[simp] theorem State.modStation_mem (s : State) (n : Net) (a : Nat) (f : Station → Station) : (s.modStation n a f).mem = s.mem := by
  rfl
@[simp] theorem State.modStation_cfg (s : State) (n : Net) (a : Nat) (f : Station → Station) : (s.modStation n a f).cfg = s.cfg := by
  rfl
@[simp] theorem State.modStation_prog (s : State) (n : Net) (a : Nat) (f : Station → Station) : (s.modStation n a f).prog = s.prog := by
  rfl
@[simp] theorem State.modStation_tri (s : State) (n : Net) (a : Nat) (f : Station → Station) : (s.modStation n a f).tri = s.tri := by
  rfl
@[simp] theorem State.modStation_cpr (s : State) (n : Net) (a : Nat) (f : Station → Station) : (s.modStation n a f).cpr = s.cpr := by
  rfl
@[simp] theorem State.modStation_fld (s : State) (n : Net) (a : Nat) (f : Station → Station) : (s.modStation n a f).fld = s.fld := by
  rfl
@[simp] theorem State.modStation_hl1 (s : State) (n : Net) (a : Nat) (f : Station → Station) : (s.modStation n a f).hl1 = s.hl1 := by
  rfl
@[simp] theorem State.modStation_hl2 (s : State) (n : Net) (a : Nat) (f : Station → Station) : (s.modStation n a f).hl2 = s.hl2 := by
  rfl
@[simp] theorem State.modStation_dpx (s : State) (n : Net) (a : Nat) (f : Station → Station) : (s.modStation n a f).dpx = s.dpx := by
  rfl
@[simp] theorem State.modStation_stl (s : State) (n : Net) (a : Nat) (f : Station → Station) : (s.modStation n a f).stl = s.stl := by
  rfl
@[simp] theorem State.modStation_upd (s : State) (n : Net) (a : Nat) (f : Station → Station) : (s.modStation n a f).upd = s.upd := by
  rfl
@[simp] theorem State.modStation_bst (s : State) (n : Net) (a : Nat) (f : Station → Station) : (s.modStation n a f).bst = s.bst := by
  rfl
@[simp] theorem State.modStation_saf (s : State) (n : Net) (a : Nat) (f : Station → Station) : (s.modStation n a f).saf = s.saf := by
  rfl
@[simp] theorem State.modStation_rings (s : State) (n : Net) (a : Nat) (f : Station → Station) : (s.modStation n a f).rings = s.rings := by
  rfl
@[simp] theorem State.modStation_journal (s : State) (n : Net) (a : Nat) (f : Station → Station) : (s.modStation n a f).journal = s.journal := by
  rfl
@[simp] theorem State.modStation_tasks (s : State) (n : Net) (a : Nat) (f : Station → Station) : (s.modStation n a f).tasks = s.tasks := by
  rfl

@[simp] theorem State.msix_pending (s : State) (v : Nat) : (s.msix v).pending = s.pending := by
  unfold State.msix; (repeat' split) <;> simp
@[simp] theorem State.msix_free (s : State) (v : Nat) : (s.msix v).free = s.free := by
  unfold State.msix; (repeat' split) <;> simp
@[simp] theorem State.msix_mfg (s : State) (v : Nat) : (s.msix v).mfg = s.mfg := by
  unfold State.msix; (repeat' split) <;> simp
@[simp] theorem State.msix_pwr (s : State) (v : Nat) : (s.msix v).pwr = s.pwr := by
  unfold State.msix; (repeat' split) <;> simp
@[simp] theorem State.msix_tbu (s : State) (v : Nat) : (s.msix v).tbu = s.tbu := by
  unfold State.msix; (repeat' split) <;> simp
@[simp] theorem State.msix_hyk (s : State) (v : Nat) : (s.msix v).hyk = s.hyk := by
  unfold State.msix; (repeat' split) <;> simp
@[simp] theorem State.msix_sys (s : State) (v : Nat) : (s.msix v).sys = s.sys := by
  unfold State.msix; (repeat' split) <;> simp
@[simp] theorem State.msix_mem (s : State) (v : Nat) : (s.msix v).mem = s.mem := by
  unfold State.msix; (repeat' split) <;> simp
@[simp] theorem State.msix_cfg (s : State) (v : Nat) : (s.msix v).cfg = s.cfg := by
  unfold State.msix; (repeat' split) <;> simp
@[simp] theorem State.msix_prog (s : State) (v : Nat) : (s.msix v).prog = s.prog := by
  unfold State.msix; (repeat' split) <;> simp
@[simp] theorem State.msix_swd (s : State) (v : Nat) : (s.msix v).swd = s.swd := by
  unfold State.msix; (repeat' split) <;> simp
@[simp] theorem State.msix_tri (s : State) (v : Nat) : (s.msix v).tri = s.tri := by
  unfold State.msix; (repeat' split) <;> simp
@[simp] theorem State.msix_cpr (s : State) (v : Nat) : (s.msix v).cpr = s.cpr := by
  unfold State.msix; (repeat' split) <;> simp
@[simp] theorem State.msix_fld (s : State) (v : Nat) : (s.msix v).fld = s.fld := by
  unfold State.msix; (repeat' split) <;> simp
@[simp] theorem State.msix_hl1 (s : State) (v : Nat) : (s.msix v).hl1 = s.hl1 := by
  unfold State.msix; (repeat' split) <;> simp
@[simp] theorem State.msix_hl2 (s : State) (v : Nat) : (s.msix v).hl2 = s.hl2 := by
  unfold State.msix; (repeat' split) <;> simp
@[simp] theorem State.msix_dpx (s : State) (v : Nat) : (s.msix v).dpx = s.dpx := by
  unfold State.msix; (repeat' split) <;> simp
@[simp] theorem State.msix_stl (s : State) (v : Nat) : (s.msix v).stl = s.stl := by
  unfold State.msix; (repeat' split) <;> simp
@[simp] theorem State.msix_upd (s : State) (v : Nat) : (s.msix v).upd = s.upd := by
  unfold State.msix; (repeat' split) <;> simp
@[simp] theorem State.msix_bst (s : State) (v : Nat) : (s.msix v).bst = s.bst := by
  unfold State.msix; (repeat' split) <;> simp
@[simp] theorem State.msix_saf (s : State) (v : Nat) : (s.msix v).saf = s.saf := by
  unfold State.msix; (repeat' split) <;> simp
@[simp] theorem State.msix_rings (s : State) (v : Nat) : (s.msix v).rings = s.rings := by
  unfold State.msix; (repeat' split) <;> simp
@[simp] theorem State.msix_journal (s : State) (v : Nat) : (s.msix v).journal = s.journal := by
  unfold State.msix; (repeat' split) <;> simp
@[simp] theorem State.msix_tasks (s : State) (v : Nat) : (s.msix v).tasks = s.tasks := by
  unfold State.msix; (repeat' split) <;> simp

@[simp] theorem State.setEvent_pending (s : State) (k : Nat) : (s.setEvent k).pending = s.pending := by
  unfold State.setEvent; dsimp only; split <;> simp
@[simp] theorem State.setEvent_free (s : State) (k : Nat) : (s.setEvent k).free = s.free := by
  unfold State.setEvent; dsimp only; split <;> simp
@[simp] theorem State.setEvent_mfg (s : State) (k : Nat) : (s.setEvent k).mfg = s.mfg := by
  unfold State.setEvent; dsimp only; split <;> simp
@[simp] theorem State.setEvent_pwr (s : State) (k : Nat) : (s.setEvent k).pwr = s.pwr := by
  unfold State.setEvent; dsimp only; split <;> simp
@[simp] theorem State.setEvent_tbu (s : State) (k : Nat) : (s.setEvent k).tbu = s.tbu := by
  unfold State.setEvent; dsimp only; split <;> simp
@[simp] theorem State.setEvent_hyk (s : State) (k : Nat) : (s.setEvent k).hyk = s.hyk := by
  unfold State.setEvent; dsimp only; split <;> simp
@[simp] theorem State.setEvent_mem (s : State) (k : Nat) : (s.setEvent k).mem = s.mem := by
  unfold State.setEvent; dsimp only; split <;> simp
@[simp] theorem State.setEvent_cfg (s : State) (k : Nat) : (s.setEvent k).cfg = s.cfg := by
  unfold State.setEvent; dsimp only; split <;> simp
@[simp] theorem State.setEvent_prog (s : State) (k : Nat) : (s.setEvent k).prog = s.prog := by
  unfold State.setEvent; dsimp only; split <;> simp
@[simp] theorem State.setEvent_swd (s : State) (k : Nat) : (s.setEvent k).swd = s.swd := by
  unfold State.setEvent; dsimp only; split <;> simp
@[simp] theorem State.setEvent_tri (s : State) (k : Nat) : (s.setEvent k).tri = s.tri := by
  unfold State.setEvent; dsimp only; split <;> simp
@[simp] theorem State.setEvent_cpr (s : State) (k : Nat) : (s.setEvent k).cpr = s.cpr := by
  unfold State.setEvent; dsimp only; split <;> simp
@[simp] theorem State.setEvent_fld (s : State) (k : Nat) : (s.setEvent k).fld = s.fld := by
  unfold State.setEvent; dsimp only; split <;> simp
@[simp] theorem State.setEvent_hl1 (s : State) (k : Nat) : (s.setEvent k).hl1 = s.hl1 := by
  unfold State.setEvent; dsimp only; split <;> simp
@[simp] theorem State.setEvent_hl2 (s : State) (k : Nat) : (s.setEvent k).hl2 = s.hl2 := by
  unfold State.setEvent; dsimp only; split <;> simp
@[simp] theorem State.setEvent_dpx (s : State) (k : Nat) : (s.setEvent k).dpx = s.dpx := by
  unfold State.setEvent; dsimp only; split <;> simp
@[simp] theorem State.setEvent_stl (s : State) (k : Nat) : (s.setEvent k).stl = s.stl := by
  unfold State.setEvent; dsimp only; split <;> simp
@[simp] theorem State.setEvent_upd (s : State) (k : Nat) : (s.setEvent k).upd = s.upd := by
  unfold State.setEvent; dsimp only; split <;> simp
@[simp] theorem State.setEvent_bst (s : State) (k : Nat) : (s.setEvent k).bst = s.bst := by
  unfold State.setEvent; dsimp only; split <;> simp
@[simp] theorem State.setEvent_saf (s : State) (k : Nat) : (s.setEvent k).saf = s.saf := by
  unfold State.setEvent; dsimp only; split <;> simp
@[simp] theorem State.setEvent_rings (s : State) (k : Nat) : (s.setEvent k).rings = s.rings := by
  unfold State.setEvent; dsimp only; split <;> simp
@[simp] theorem State.setEvent_journal (s : State) (k : Nat) : (s.setEvent k).journal = s.journal := by
  unfold State.setEvent; dsimp only; split <;> simp
@[simp] theorem State.setEvent_tasks (s : State) (k : Nat) : (s.setEvent k).tasks = s.tasks := by
  unfold State.setEvent; dsimp only; split <;> simp

@[simp] theorem State.reevents_pending (s : State) : (s.reevents).pending = s.pending := by
  unfold State.reevents; split <;> simp
@[simp] theorem State.reevents_free (s : State) : (s.reevents).free = s.free := by
  unfold State.reevents; split <;> simp
@[simp] theorem State.reevents_mfg (s : State) : (s.reevents).mfg = s.mfg := by
  unfold State.reevents; split <;> simp
@[simp] theorem State.reevents_pwr (s : State) : (s.reevents).pwr = s.pwr := by
  unfold State.reevents; split <;> simp
@[simp] theorem State.reevents_tbu (s : State) : (s.reevents).tbu = s.tbu := by
  unfold State.reevents; split <;> simp
@[simp] theorem State.reevents_hyk (s : State) : (s.reevents).hyk = s.hyk := by
  unfold State.reevents; split <;> simp
@[simp] theorem State.reevents_sys (s : State) : (s.reevents).sys = s.sys := by
  unfold State.reevents; split <;> simp
@[simp] theorem State.reevents_mem (s : State) : (s.reevents).mem = s.mem := by
  unfold State.reevents; split <;> simp
@[simp] theorem State.reevents_cfg (s : State) : (s.reevents).cfg = s.cfg := by
  unfold State.reevents; split <;> simp
@[simp] theorem State.reevents_prog (s : State) : (s.reevents).prog = s.prog := by
  unfold State.reevents; split <;> simp
@[simp] theorem State.reevents_swd (s : State) : (s.reevents).swd = s.swd := by
  unfold State.reevents; split <;> simp
@[simp] theorem State.reevents_tri (s : State) : (s.reevents).tri = s.tri := by
  unfold State.reevents; split <;> simp
@[simp] theorem State.reevents_cpr (s : State) : (s.reevents).cpr = s.cpr := by
  unfold State.reevents; split <;> simp
@[simp] theorem State.reevents_fld (s : State) : (s.reevents).fld = s.fld := by
  unfold State.reevents; split <;> simp
@[simp] theorem State.reevents_hl1 (s : State) : (s.reevents).hl1 = s.hl1 := by
  unfold State.reevents; split <;> simp
@[simp] theorem State.reevents_hl2 (s : State) : (s.reevents).hl2 = s.hl2 := by
  unfold State.reevents; split <;> simp
@[simp] theorem State.reevents_dpx (s : State) : (s.reevents).dpx = s.dpx := by
  unfold State.reevents; split <;> simp
@[simp] theorem State.reevents_stl (s : State) : (s.reevents).stl = s.stl := by
  unfold State.reevents; split <;> simp
@[simp] theorem State.reevents_upd (s : State) : (s.reevents).upd = s.upd := by
  unfold State.reevents; split <;> simp
@[simp] theorem State.reevents_bst (s : State) : (s.reevents).bst = s.bst := by
  unfold State.reevents; split <;> simp
@[simp] theorem State.reevents_saf (s : State) : (s.reevents).saf = s.saf := by
  unfold State.reevents; split <;> simp
@[simp] theorem State.reevents_rings (s : State) : (s.reevents).rings = s.rings := by
  unfold State.reevents; split <;> simp
@[simp] theorem State.reevents_journal (s : State) : (s.reevents).journal = s.journal := by
  unfold State.reevents; split <;> simp
@[simp] theorem State.reevents_tasks (s : State) : (s.reevents).tasks = s.tasks := by
  unfold State.reevents; split <;> simp

@[simp] theorem State.raise_pending (s : State) (a : Byte) (c : BitVec 16) (v : BitVec 4) (d : Bytes) : (s.raise a c v d).pending = s.pending := by
  unfold State.raise State.offer; dsimp only; split <;> rfl
@[simp] theorem State.raise_free (s : State) (a : Byte) (c : BitVec 16) (v : BitVec 4) (d : Bytes) : (s.raise a c v d).free = s.free := by
  unfold State.raise State.offer; dsimp only; split <;> rfl
@[simp] theorem State.raise_sent (s : State) (a : Byte) (c : BitVec 16) (v : BitVec 4) (d : Bytes) : (s.raise a c v d).sent = s.sent := by
  unfold State.raise State.offer; dsimp only; split <;> rfl
@[simp] theorem State.raise_mfg (s : State) (a : Byte) (c : BitVec 16) (v : BitVec 4) (d : Bytes) : (s.raise a c v d).mfg = s.mfg := by
  unfold State.raise State.offer; dsimp only; split <;> rfl
@[simp] theorem State.raise_pwr (s : State) (a : Byte) (c : BitVec 16) (v : BitVec 4) (d : Bytes) : (s.raise a c v d).pwr = s.pwr := by
  unfold State.raise State.offer; dsimp only; split <;> rfl
@[simp] theorem State.raise_tbu (s : State) (a : Byte) (c : BitVec 16) (v : BitVec 4) (d : Bytes) : (s.raise a c v d).tbu = s.tbu := by
  unfold State.raise State.offer; dsimp only; split <;> rfl
@[simp] theorem State.raise_sys (s : State) (a : Byte) (c : BitVec 16) (v : BitVec 4) (d : Bytes) : (s.raise a c v d).sys = s.sys := by
  unfold State.raise State.offer; dsimp only; split <;> rfl
@[simp] theorem State.raise_host (s : State) (a : Byte) (c : BitVec 16) (v : BitVec 4) (d : Bytes) : (s.raise a c v d).host = s.host := by
  unfold State.raise State.offer; dsimp only; split <;> rfl
@[simp] theorem State.raise_mem (s : State) (a : Byte) (c : BitVec 16) (v : BitVec 4) (d : Bytes) : (s.raise a c v d).mem = s.mem := by
  unfold State.raise State.offer; dsimp only; split <;> rfl
@[simp] theorem State.raise_cfg (s : State) (a : Byte) (c : BitVec 16) (v : BitVec 4) (d : Bytes) : (s.raise a c v d).cfg = s.cfg := by
  unfold State.raise State.offer; dsimp only; split <;> rfl
@[simp] theorem State.raise_prog (s : State) (a : Byte) (c : BitVec 16) (v : BitVec 4) (d : Bytes) : (s.raise a c v d).prog = s.prog := by
  unfold State.raise State.offer; dsimp only; split <;> rfl
@[simp] theorem State.raise_swd (s : State) (a : Byte) (c : BitVec 16) (v : BitVec 4) (d : Bytes) : (s.raise a c v d).swd = s.swd := by
  unfold State.raise State.offer; dsimp only; split <;> rfl
@[simp] theorem State.raise_tri (s : State) (a : Byte) (c : BitVec 16) (v : BitVec 4) (d : Bytes) : (s.raise a c v d).tri = s.tri := by
  unfold State.raise State.offer; dsimp only; split <;> rfl
@[simp] theorem State.raise_cpr (s : State) (a : Byte) (c : BitVec 16) (v : BitVec 4) (d : Bytes) : (s.raise a c v d).cpr = s.cpr := by
  unfold State.raise State.offer; dsimp only; split <;> rfl
@[simp] theorem State.raise_fld (s : State) (a : Byte) (c : BitVec 16) (v : BitVec 4) (d : Bytes) : (s.raise a c v d).fld = s.fld := by
  unfold State.raise State.offer; dsimp only; split <;> rfl
@[simp] theorem State.raise_hl1 (s : State) (a : Byte) (c : BitVec 16) (v : BitVec 4) (d : Bytes) : (s.raise a c v d).hl1 = s.hl1 := by
  unfold State.raise State.offer; dsimp only; split <;> rfl
@[simp] theorem State.raise_hl2 (s : State) (a : Byte) (c : BitVec 16) (v : BitVec 4) (d : Bytes) : (s.raise a c v d).hl2 = s.hl2 := by
  unfold State.raise State.offer; dsimp only; split <;> rfl
@[simp] theorem State.raise_dpx (s : State) (a : Byte) (c : BitVec 16) (v : BitVec 4) (d : Bytes) : (s.raise a c v d).dpx = s.dpx := by
  unfold State.raise State.offer; dsimp only; split <;> rfl
@[simp] theorem State.raise_stl (s : State) (a : Byte) (c : BitVec 16) (v : BitVec 4) (d : Bytes) : (s.raise a c v d).stl = s.stl := by
  unfold State.raise State.offer; dsimp only; split <;> rfl
@[simp] theorem State.raise_upd (s : State) (a : Byte) (c : BitVec 16) (v : BitVec 4) (d : Bytes) : (s.raise a c v d).upd = s.upd := by
  unfold State.raise State.offer; dsimp only; split <;> rfl
@[simp] theorem State.raise_bst (s : State) (a : Byte) (c : BitVec 16) (v : BitVec 4) (d : Bytes) : (s.raise a c v d).bst = s.bst := by
  unfold State.raise State.offer; dsimp only; split <;> rfl
@[simp] theorem State.raise_saf (s : State) (a : Byte) (c : BitVec 16) (v : BitVec 4) (d : Bytes) : (s.raise a c v d).saf = s.saf := by
  unfold State.raise State.offer; dsimp only; split <;> rfl
@[simp] theorem State.raise_rings (s : State) (a : Byte) (c : BitVec 16) (v : BitVec 4) (d : Bytes) : (s.raise a c v d).rings = s.rings := by
  unfold State.raise State.offer; dsimp only; split <;> rfl
@[simp] theorem State.raise_journal (s : State) (a : Byte) (c : BitVec 16) (v : BitVec 4) (d : Bytes) : (s.raise a c v d).journal = s.journal := by
  unfold State.raise State.offer; dsimp only; split <;> rfl
@[simp] theorem State.raise_tasks (s : State) (a : Byte) (c : BitVec 16) (v : BitVec 4) (d : Bytes) : (s.raise a c v d).tasks = s.tasks := by
  unfold State.raise State.offer; dsimp only; split <;> rfl

@[simp] theorem State.raiseMode_pending (s : State) (a b : Mode) (u : BitVec 4) (t : Nat) : (s.raiseMode a b u t).pending = s.pending := by
  unfold State.raiseMode; simp
@[simp] theorem State.raiseMode_free (s : State) (a b : Mode) (u : BitVec 4) (t : Nat) : (s.raiseMode a b u t).free = s.free := by
  unfold State.raiseMode; simp
@[simp] theorem State.raiseMode_sent (s : State) (a b : Mode) (u : BitVec 4) (t : Nat) : (s.raiseMode a b u t).sent = s.sent := by
  unfold State.raiseMode; simp
@[simp] theorem State.raiseMode_mfg (s : State) (a b : Mode) (u : BitVec 4) (t : Nat) : (s.raiseMode a b u t).mfg = s.mfg := by
  unfold State.raiseMode; simp
@[simp] theorem State.raiseMode_pwr (s : State) (a b : Mode) (u : BitVec 4) (t : Nat) : (s.raiseMode a b u t).pwr = s.pwr := by
  unfold State.raiseMode; simp
@[simp] theorem State.raiseMode_tbu (s : State) (a b : Mode) (u : BitVec 4) (t : Nat) : (s.raiseMode a b u t).tbu = s.tbu := by
  unfold State.raiseMode; simp
@[simp] theorem State.raiseMode_sys (s : State) (a b : Mode) (u : BitVec 4) (t : Nat) : (s.raiseMode a b u t).sys = s.sys := by
  unfold State.raiseMode; simp
@[simp] theorem State.raiseMode_host (s : State) (a b : Mode) (u : BitVec 4) (t : Nat) : (s.raiseMode a b u t).host = s.host := by
  unfold State.raiseMode; simp
@[simp] theorem State.raiseMode_mem (s : State) (a b : Mode) (u : BitVec 4) (t : Nat) : (s.raiseMode a b u t).mem = s.mem := by
  unfold State.raiseMode; simp
@[simp] theorem State.raiseMode_cfg (s : State) (a b : Mode) (u : BitVec 4) (t : Nat) : (s.raiseMode a b u t).cfg = s.cfg := by
  unfold State.raiseMode; simp
@[simp] theorem State.raiseMode_prog (s : State) (a b : Mode) (u : BitVec 4) (t : Nat) : (s.raiseMode a b u t).prog = s.prog := by
  unfold State.raiseMode; simp
@[simp] theorem State.raiseMode_swd (s : State) (a b : Mode) (u : BitVec 4) (t : Nat) : (s.raiseMode a b u t).swd = s.swd := by
  unfold State.raiseMode; simp
@[simp] theorem State.raiseMode_tri (s : State) (a b : Mode) (u : BitVec 4) (t : Nat) : (s.raiseMode a b u t).tri = s.tri := by
  unfold State.raiseMode; simp
@[simp] theorem State.raiseMode_cpr (s : State) (a b : Mode) (u : BitVec 4) (t : Nat) : (s.raiseMode a b u t).cpr = s.cpr := by
  unfold State.raiseMode; simp
@[simp] theorem State.raiseMode_fld (s : State) (a b : Mode) (u : BitVec 4) (t : Nat) : (s.raiseMode a b u t).fld = s.fld := by
  unfold State.raiseMode; simp
@[simp] theorem State.raiseMode_hl1 (s : State) (a b : Mode) (u : BitVec 4) (t : Nat) : (s.raiseMode a b u t).hl1 = s.hl1 := by
  unfold State.raiseMode; simp
@[simp] theorem State.raiseMode_hl2 (s : State) (a b : Mode) (u : BitVec 4) (t : Nat) : (s.raiseMode a b u t).hl2 = s.hl2 := by
  unfold State.raiseMode; simp
@[simp] theorem State.raiseMode_dpx (s : State) (a b : Mode) (u : BitVec 4) (t : Nat) : (s.raiseMode a b u t).dpx = s.dpx := by
  unfold State.raiseMode; simp
@[simp] theorem State.raiseMode_stl (s : State) (a b : Mode) (u : BitVec 4) (t : Nat) : (s.raiseMode a b u t).stl = s.stl := by
  unfold State.raiseMode; simp
@[simp] theorem State.raiseMode_upd (s : State) (a b : Mode) (u : BitVec 4) (t : Nat) : (s.raiseMode a b u t).upd = s.upd := by
  unfold State.raiseMode; simp
@[simp] theorem State.raiseMode_bst (s : State) (a b : Mode) (u : BitVec 4) (t : Nat) : (s.raiseMode a b u t).bst = s.bst := by
  unfold State.raiseMode; simp
@[simp] theorem State.raiseMode_saf (s : State) (a b : Mode) (u : BitVec 4) (t : Nat) : (s.raiseMode a b u t).saf = s.saf := by
  unfold State.raiseMode; simp
@[simp] theorem State.raiseMode_rings (s : State) (a b : Mode) (u : BitVec 4) (t : Nat) : (s.raiseMode a b u t).rings = s.rings := by
  unfold State.raiseMode; simp
@[simp] theorem State.raiseMode_journal (s : State) (a b : Mode) (u : BitVec 4) (t : Nat) : (s.raiseMode a b u t).journal = s.journal := by
  unfold State.raiseMode; simp
@[simp] theorem State.raiseMode_tasks (s : State) (a b : Mode) (u : BitVec 4) (t : Nat) : (s.raiseMode a b u t).tasks = s.tasks := by
  unfold State.raiseMode; simp

@[simp] theorem State.fuseMark_pending (s : State) : (s.fuseMark).pending = s.pending := by
  unfold State.fuseMark; simp
@[simp] theorem State.fuseMark_free (s : State) : (s.fuseMark).free = s.free := by
  unfold State.fuseMark; simp
@[simp] theorem State.fuseMark_sent (s : State) : (s.fuseMark).sent = s.sent := by
  unfold State.fuseMark; simp
@[simp] theorem State.fuseMark_mfg (s : State) : (s.fuseMark).mfg = s.mfg := by
  unfold State.fuseMark; simp
@[simp] theorem State.fuseMark_pwr (s : State) : (s.fuseMark).pwr = s.pwr := by
  unfold State.fuseMark; simp
@[simp] theorem State.fuseMark_tbu (s : State) : (s.fuseMark).tbu = s.tbu := by
  unfold State.fuseMark; simp
@[simp] theorem State.fuseMark_hyk (s : State) : (s.fuseMark).hyk = s.hyk := by
  unfold State.fuseMark; simp
@[simp] theorem State.fuseMark_sys (s : State) : (s.fuseMark).sys = s.sys := by
  unfold State.fuseMark; simp
@[simp] theorem State.fuseMark_host (s : State) : (s.fuseMark).host = s.host := by
  unfold State.fuseMark; simp
@[simp] theorem State.fuseMark_mem (s : State) : (s.fuseMark).mem = s.mem := by
  unfold State.fuseMark; simp
@[simp] theorem State.fuseMark_cfg (s : State) : (s.fuseMark).cfg = s.cfg := by
  unfold State.fuseMark; simp
@[simp] theorem State.fuseMark_prog (s : State) : (s.fuseMark).prog = s.prog := by
  unfold State.fuseMark; simp
@[simp] theorem State.fuseMark_swd (s : State) : (s.fuseMark).swd = s.swd := by
  unfold State.fuseMark; simp
@[simp] theorem State.fuseMark_tri (s : State) : (s.fuseMark).tri = s.tri := by
  unfold State.fuseMark; simp
@[simp] theorem State.fuseMark_cpr (s : State) : (s.fuseMark).cpr = s.cpr := by
  unfold State.fuseMark; simp
@[simp] theorem State.fuseMark_fld (s : State) : (s.fuseMark).fld = s.fld := by
  unfold State.fuseMark; simp
@[simp] theorem State.fuseMark_hl1 (s : State) : (s.fuseMark).hl1 = s.hl1 := by
  unfold State.fuseMark; simp
@[simp] theorem State.fuseMark_hl2 (s : State) : (s.fuseMark).hl2 = s.hl2 := by
  unfold State.fuseMark; simp
@[simp] theorem State.fuseMark_dpx (s : State) : (s.fuseMark).dpx = s.dpx := by
  unfold State.fuseMark; simp
@[simp] theorem State.fuseMark_stl (s : State) : (s.fuseMark).stl = s.stl := by
  unfold State.fuseMark; simp
@[simp] theorem State.fuseMark_bst (s : State) : (s.fuseMark).bst = s.bst := by
  unfold State.fuseMark; simp
@[simp] theorem State.fuseMark_saf (s : State) : (s.fuseMark).saf = s.saf := by
  unfold State.fuseMark; simp
@[simp] theorem State.fuseMark_rings (s : State) : (s.fuseMark).rings = s.rings := by
  unfold State.fuseMark; simp
@[simp] theorem State.fuseMark_journal (s : State) : (s.fuseMark).journal = s.journal := by
  unfold State.fuseMark; simp
@[simp] theorem State.fuseMark_tasks (s : State) : (s.fuseMark).tasks = s.tasks := by
  unfold State.fuseMark; simp

@[simp] theorem State.setMode_pending (s : State) (m : Mode) (u : BitVec 4) (t : Nat) : (s.setMode m u t).pending = s.pending := by
  unfold State.setMode; dsimp only; split <;> simp
@[simp] theorem State.setMode_free (s : State) (m : Mode) (u : BitVec 4) (t : Nat) : (s.setMode m u t).free = s.free := by
  unfold State.setMode; dsimp only; split <;> simp
@[simp] theorem State.setMode_mfg (s : State) (m : Mode) (u : BitVec 4) (t : Nat) : (s.setMode m u t).mfg = s.mfg := by
  unfold State.setMode; dsimp only; split <;> simp
@[simp] theorem State.setMode_pwr (s : State) (m : Mode) (u : BitVec 4) (t : Nat) : (s.setMode m u t).pwr = s.pwr := by
  unfold State.setMode; dsimp only; split <;> simp
@[simp] theorem State.setMode_tbu (s : State) (m : Mode) (u : BitVec 4) (t : Nat) : (s.setMode m u t).tbu = s.tbu := by
  unfold State.setMode; dsimp only; split <;> simp
@[simp] theorem State.setMode_mem (s : State) (m : Mode) (u : BitVec 4) (t : Nat) : (s.setMode m u t).mem = s.mem := by
  unfold State.setMode; dsimp only; split <;> simp
@[simp] theorem State.setMode_cfg (s : State) (m : Mode) (u : BitVec 4) (t : Nat) : (s.setMode m u t).cfg = s.cfg := by
  unfold State.setMode; dsimp only; split <;> simp
@[simp] theorem State.setMode_prog (s : State) (m : Mode) (u : BitVec 4) (t : Nat) : (s.setMode m u t).prog = s.prog := by
  unfold State.setMode; dsimp only; split <;> simp
@[simp] theorem State.setMode_swd (s : State) (m : Mode) (u : BitVec 4) (t : Nat) : (s.setMode m u t).swd = s.swd := by
  unfold State.setMode; dsimp only; split <;> simp
@[simp] theorem State.setMode_cpr (s : State) (m : Mode) (u : BitVec 4) (t : Nat) : (s.setMode m u t).cpr = s.cpr := by
  unfold State.setMode; dsimp only; split <;> simp
@[simp] theorem State.setMode_fld (s : State) (m : Mode) (u : BitVec 4) (t : Nat) : (s.setMode m u t).fld = s.fld := by
  unfold State.setMode; dsimp only; split <;> simp
@[simp] theorem State.setMode_hl1 (s : State) (m : Mode) (u : BitVec 4) (t : Nat) : (s.setMode m u t).hl1 = s.hl1 := by
  unfold State.setMode; dsimp only; split <;> simp
@[simp] theorem State.setMode_hl2 (s : State) (m : Mode) (u : BitVec 4) (t : Nat) : (s.setMode m u t).hl2 = s.hl2 := by
  unfold State.setMode; dsimp only; split <;> simp
@[simp] theorem State.setMode_dpx (s : State) (m : Mode) (u : BitVec 4) (t : Nat) : (s.setMode m u t).dpx = s.dpx := by
  unfold State.setMode; dsimp only; split <;> simp
@[simp] theorem State.setMode_stl (s : State) (m : Mode) (u : BitVec 4) (t : Nat) : (s.setMode m u t).stl = s.stl := by
  unfold State.setMode; dsimp only; split <;> simp
@[simp] theorem State.setMode_bst (s : State) (m : Mode) (u : BitVec 4) (t : Nat) : (s.setMode m u t).bst = s.bst := by
  unfold State.setMode; dsimp only; split <;> simp
@[simp] theorem State.setMode_saf (s : State) (m : Mode) (u : BitVec 4) (t : Nat) : (s.setMode m u t).saf = s.saf := by
  unfold State.setMode; dsimp only; split <;> simp
@[simp] theorem State.setMode_rings (s : State) (m : Mode) (u : BitVec 4) (t : Nat) : (s.setMode m u t).rings = s.rings := by
  unfold State.setMode; dsimp only; split <;> simp
@[simp] theorem State.setMode_journal (s : State) (m : Mode) (u : BitVec 4) (t : Nat) : (s.setMode m u t).journal = s.journal := by
  unfold State.setMode; dsimp only; split <;> simp
@[simp] theorem State.setMode_tasks (s : State) (m : Mode) (u : BitVec 4) (t : Nat) : (s.setMode m u t).tasks = s.tasks := by
  unfold State.setMode; dsimp only; split <;> simp

@[simp] theorem State.signal_pending (s : State) (n : Nat) : (s.signal n).pending = s.pending := by
  unfold State.signal; (repeat' split) <;> simp
@[simp] theorem State.signal_free (s : State) (n : Nat) : (s.signal n).free = s.free := by
  unfold State.signal; (repeat' split) <;> simp
@[simp] theorem State.signal_mfg (s : State) (n : Nat) : (s.signal n).mfg = s.mfg := by
  unfold State.signal; (repeat' split) <;> simp
@[simp] theorem State.signal_pwr (s : State) (n : Nat) : (s.signal n).pwr = s.pwr := by
  unfold State.signal; (repeat' split) <;> simp
@[simp] theorem State.signal_tbu (s : State) (n : Nat) : (s.signal n).tbu = s.tbu := by
  unfold State.signal; (repeat' split) <;> simp
@[simp] theorem State.signal_hyk (s : State) (n : Nat) : (s.signal n).hyk = s.hyk := by
  unfold State.signal; (repeat' split) <;> simp
@[simp] theorem State.signal_sys (s : State) (n : Nat) : (s.signal n).sys = s.sys := by
  unfold State.signal; (repeat' split) <;> simp
@[simp] theorem State.signal_mem (s : State) (n : Nat) : (s.signal n).mem = s.mem := by
  unfold State.signal; (repeat' split) <;> simp
@[simp] theorem State.signal_cfg (s : State) (n : Nat) : (s.signal n).cfg = s.cfg := by
  unfold State.signal; (repeat' split) <;> simp
@[simp] theorem State.signal_prog (s : State) (n : Nat) : (s.signal n).prog = s.prog := by
  unfold State.signal; (repeat' split) <;> simp
@[simp] theorem State.signal_swd (s : State) (n : Nat) : (s.signal n).swd = s.swd := by
  unfold State.signal; (repeat' split) <;> simp
@[simp] theorem State.signal_tri (s : State) (n : Nat) : (s.signal n).tri = s.tri := by
  unfold State.signal; (repeat' split) <;> simp
@[simp] theorem State.signal_cpr (s : State) (n : Nat) : (s.signal n).cpr = s.cpr := by
  unfold State.signal; (repeat' split) <;> simp
@[simp] theorem State.signal_fld (s : State) (n : Nat) : (s.signal n).fld = s.fld := by
  unfold State.signal; (repeat' split) <;> simp
@[simp] theorem State.signal_hl1 (s : State) (n : Nat) : (s.signal n).hl1 = s.hl1 := by
  unfold State.signal; (repeat' split) <;> simp
@[simp] theorem State.signal_hl2 (s : State) (n : Nat) : (s.signal n).hl2 = s.hl2 := by
  unfold State.signal; (repeat' split) <;> simp
@[simp] theorem State.signal_dpx (s : State) (n : Nat) : (s.signal n).dpx = s.dpx := by
  unfold State.signal; (repeat' split) <;> simp
@[simp] theorem State.signal_stl (s : State) (n : Nat) : (s.signal n).stl = s.stl := by
  unfold State.signal; (repeat' split) <;> simp
@[simp] theorem State.signal_upd (s : State) (n : Nat) : (s.signal n).upd = s.upd := by
  unfold State.signal; (repeat' split) <;> simp
@[simp] theorem State.signal_bst (s : State) (n : Nat) : (s.signal n).bst = s.bst := by
  unfold State.signal; (repeat' split) <;> simp
@[simp] theorem State.signal_saf (s : State) (n : Nat) : (s.signal n).saf = s.saf := by
  unfold State.signal; (repeat' split) <;> simp
@[simp] theorem State.signal_rings (s : State) (n : Nat) : (s.signal n).rings = s.rings := by
  unfold State.signal; (repeat' split) <;> simp
@[simp] theorem State.signal_journal (s : State) (n : Nat) : (s.signal n).journal = s.journal := by
  unfold State.signal; (repeat' split) <;> simp
@[simp] theorem State.signal_tasks (s : State) (n : Nat) : (s.signal n).tasks = s.tasks := by
  unfold State.signal; (repeat' split) <;> simp

@[simp] theorem State.irqEdge_pending (s : State) (n : Nat) (b : Bool) : (s.irqEdge n b).pending = s.pending := by
  unfold State.irqEdge; split <;> simp
@[simp] theorem State.irqEdge_free (s : State) (n : Nat) (b : Bool) : (s.irqEdge n b).free = s.free := by
  unfold State.irqEdge; split <;> simp
@[simp] theorem State.irqEdge_mfg (s : State) (n : Nat) (b : Bool) : (s.irqEdge n b).mfg = s.mfg := by
  unfold State.irqEdge; split <;> simp
@[simp] theorem State.irqEdge_pwr (s : State) (n : Nat) (b : Bool) : (s.irqEdge n b).pwr = s.pwr := by
  unfold State.irqEdge; split <;> simp
@[simp] theorem State.irqEdge_tbu (s : State) (n : Nat) (b : Bool) : (s.irqEdge n b).tbu = s.tbu := by
  unfold State.irqEdge; split <;> simp
@[simp] theorem State.irqEdge_hyk (s : State) (n : Nat) (b : Bool) : (s.irqEdge n b).hyk = s.hyk := by
  unfold State.irqEdge; split <;> simp
@[simp] theorem State.irqEdge_sys (s : State) (n : Nat) (b : Bool) : (s.irqEdge n b).sys = s.sys := by
  unfold State.irqEdge; split <;> simp
@[simp] theorem State.irqEdge_mem (s : State) (n : Nat) (b : Bool) : (s.irqEdge n b).mem = s.mem := by
  unfold State.irqEdge; split <;> simp
@[simp] theorem State.irqEdge_cfg (s : State) (n : Nat) (b : Bool) : (s.irqEdge n b).cfg = s.cfg := by
  unfold State.irqEdge; split <;> simp
@[simp] theorem State.irqEdge_prog (s : State) (n : Nat) (b : Bool) : (s.irqEdge n b).prog = s.prog := by
  unfold State.irqEdge; split <;> simp
@[simp] theorem State.irqEdge_swd (s : State) (n : Nat) (b : Bool) : (s.irqEdge n b).swd = s.swd := by
  unfold State.irqEdge; split <;> simp
@[simp] theorem State.irqEdge_tri (s : State) (n : Nat) (b : Bool) : (s.irqEdge n b).tri = s.tri := by
  unfold State.irqEdge; split <;> simp
@[simp] theorem State.irqEdge_cpr (s : State) (n : Nat) (b : Bool) : (s.irqEdge n b).cpr = s.cpr := by
  unfold State.irqEdge; split <;> simp
@[simp] theorem State.irqEdge_fld (s : State) (n : Nat) (b : Bool) : (s.irqEdge n b).fld = s.fld := by
  unfold State.irqEdge; split <;> simp
@[simp] theorem State.irqEdge_hl1 (s : State) (n : Nat) (b : Bool) : (s.irqEdge n b).hl1 = s.hl1 := by
  unfold State.irqEdge; split <;> simp
@[simp] theorem State.irqEdge_hl2 (s : State) (n : Nat) (b : Bool) : (s.irqEdge n b).hl2 = s.hl2 := by
  unfold State.irqEdge; split <;> simp
@[simp] theorem State.irqEdge_dpx (s : State) (n : Nat) (b : Bool) : (s.irqEdge n b).dpx = s.dpx := by
  unfold State.irqEdge; split <;> simp
@[simp] theorem State.irqEdge_stl (s : State) (n : Nat) (b : Bool) : (s.irqEdge n b).stl = s.stl := by
  unfold State.irqEdge; split <;> simp
@[simp] theorem State.irqEdge_upd (s : State) (n : Nat) (b : Bool) : (s.irqEdge n b).upd = s.upd := by
  unfold State.irqEdge; split <;> simp
@[simp] theorem State.irqEdge_bst (s : State) (n : Nat) (b : Bool) : (s.irqEdge n b).bst = s.bst := by
  unfold State.irqEdge; split <;> simp
@[simp] theorem State.irqEdge_saf (s : State) (n : Nat) (b : Bool) : (s.irqEdge n b).saf = s.saf := by
  unfold State.irqEdge; split <;> simp
@[simp] theorem State.irqEdge_rings (s : State) (n : Nat) (b : Bool) : (s.irqEdge n b).rings = s.rings := by
  unfold State.irqEdge; split <;> simp
@[simp] theorem State.irqEdge_journal (s : State) (n : Nat) (b : Bool) : (s.irqEdge n b).journal = s.journal := by
  unfold State.irqEdge; split <;> simp
@[simp] theorem State.irqEdge_tasks (s : State) (n : Nat) (b : Bool) : (s.irqEdge n b).tasks = s.tasks := by
  unfold State.irqEdge; split <;> simp

@[simp] theorem State.placeRecord_pending (s : State) (n : Nat) (r : Bytes) (c : Bool) : (s.placeRecord n r c).pending = s.pending := by
  unfold State.placeRecord; simp
@[simp] theorem State.placeRecord_free (s : State) (n : Nat) (r : Bytes) (c : Bool) : (s.placeRecord n r c).free = s.free := by
  unfold State.placeRecord; simp
@[simp] theorem State.placeRecord_mfg (s : State) (n : Nat) (r : Bytes) (c : Bool) : (s.placeRecord n r c).mfg = s.mfg := by
  unfold State.placeRecord; simp
@[simp] theorem State.placeRecord_pwr (s : State) (n : Nat) (r : Bytes) (c : Bool) : (s.placeRecord n r c).pwr = s.pwr := by
  unfold State.placeRecord; simp
@[simp] theorem State.placeRecord_tbu (s : State) (n : Nat) (r : Bytes) (c : Bool) : (s.placeRecord n r c).tbu = s.tbu := by
  unfold State.placeRecord; simp
@[simp] theorem State.placeRecord_hyk (s : State) (n : Nat) (r : Bytes) (c : Bool) : (s.placeRecord n r c).hyk = s.hyk := by
  unfold State.placeRecord; simp
@[simp] theorem State.placeRecord_sys (s : State) (n : Nat) (r : Bytes) (c : Bool) : (s.placeRecord n r c).sys = s.sys := by
  unfold State.placeRecord; simp
@[simp] theorem State.placeRecord_cfg (s : State) (n : Nat) (r : Bytes) (c : Bool) : (s.placeRecord n r c).cfg = s.cfg := by
  unfold State.placeRecord; simp
@[simp] theorem State.placeRecord_prog (s : State) (n : Nat) (r : Bytes) (c : Bool) : (s.placeRecord n r c).prog = s.prog := by
  unfold State.placeRecord; simp
@[simp] theorem State.placeRecord_swd (s : State) (n : Nat) (r : Bytes) (c : Bool) : (s.placeRecord n r c).swd = s.swd := by
  unfold State.placeRecord; simp
@[simp] theorem State.placeRecord_tri (s : State) (n : Nat) (r : Bytes) (c : Bool) : (s.placeRecord n r c).tri = s.tri := by
  unfold State.placeRecord; simp
@[simp] theorem State.placeRecord_cpr (s : State) (n : Nat) (r : Bytes) (c : Bool) : (s.placeRecord n r c).cpr = s.cpr := by
  unfold State.placeRecord; simp
@[simp] theorem State.placeRecord_fld (s : State) (n : Nat) (r : Bytes) (c : Bool) : (s.placeRecord n r c).fld = s.fld := by
  unfold State.placeRecord; simp
@[simp] theorem State.placeRecord_hl1 (s : State) (n : Nat) (r : Bytes) (c : Bool) : (s.placeRecord n r c).hl1 = s.hl1 := by
  unfold State.placeRecord; simp
@[simp] theorem State.placeRecord_hl2 (s : State) (n : Nat) (r : Bytes) (c : Bool) : (s.placeRecord n r c).hl2 = s.hl2 := by
  unfold State.placeRecord; simp
@[simp] theorem State.placeRecord_dpx (s : State) (n : Nat) (r : Bytes) (c : Bool) : (s.placeRecord n r c).dpx = s.dpx := by
  unfold State.placeRecord; simp
@[simp] theorem State.placeRecord_stl (s : State) (n : Nat) (r : Bytes) (c : Bool) : (s.placeRecord n r c).stl = s.stl := by
  unfold State.placeRecord; simp
@[simp] theorem State.placeRecord_upd (s : State) (n : Nat) (r : Bytes) (c : Bool) : (s.placeRecord n r c).upd = s.upd := by
  unfold State.placeRecord; simp
@[simp] theorem State.placeRecord_bst (s : State) (n : Nat) (r : Bytes) (c : Bool) : (s.placeRecord n r c).bst = s.bst := by
  unfold State.placeRecord; simp
@[simp] theorem State.placeRecord_saf (s : State) (n : Nat) (r : Bytes) (c : Bool) : (s.placeRecord n r c).saf = s.saf := by
  unfold State.placeRecord; simp
@[simp] theorem State.placeRecord_journal (s : State) (n : Nat) (r : Bytes) (c : Bool) : (s.placeRecord n r c).journal = s.journal := by
  unfold State.placeRecord; simp
@[simp] theorem State.placeRecord_tasks (s : State) (n : Nat) (r : Bytes) (c : Bool) : (s.placeRecord n r c).tasks = s.tasks := by
  unfold State.placeRecord; simp

@[simp] theorem State.putRecord_pending (s : State) (n : Nat) (r : Bytes) (c : Bool) : (s.putRecord n r c).pending = s.pending := by
  unfold State.putRecord; dsimp only; split <;> simp
@[simp] theorem State.putRecord_free (s : State) (n : Nat) (r : Bytes) (c : Bool) : (s.putRecord n r c).free = s.free := by
  unfold State.putRecord; dsimp only; split <;> simp
@[simp] theorem State.putRecord_mfg (s : State) (n : Nat) (r : Bytes) (c : Bool) : (s.putRecord n r c).mfg = s.mfg := by
  unfold State.putRecord; dsimp only; split <;> simp
@[simp] theorem State.putRecord_pwr (s : State) (n : Nat) (r : Bytes) (c : Bool) : (s.putRecord n r c).pwr = s.pwr := by
  unfold State.putRecord; dsimp only; split <;> simp
@[simp] theorem State.putRecord_tbu (s : State) (n : Nat) (r : Bytes) (c : Bool) : (s.putRecord n r c).tbu = s.tbu := by
  unfold State.putRecord; dsimp only; split <;> simp
@[simp] theorem State.putRecord_hyk (s : State) (n : Nat) (r : Bytes) (c : Bool) : (s.putRecord n r c).hyk = s.hyk := by
  unfold State.putRecord; dsimp only; split <;> simp
@[simp] theorem State.putRecord_sys (s : State) (n : Nat) (r : Bytes) (c : Bool) : (s.putRecord n r c).sys = s.sys := by
  unfold State.putRecord; dsimp only; split <;> simp
@[simp] theorem State.putRecord_cfg (s : State) (n : Nat) (r : Bytes) (c : Bool) : (s.putRecord n r c).cfg = s.cfg := by
  unfold State.putRecord; dsimp only; split <;> simp
@[simp] theorem State.putRecord_prog (s : State) (n : Nat) (r : Bytes) (c : Bool) : (s.putRecord n r c).prog = s.prog := by
  unfold State.putRecord; dsimp only; split <;> simp
@[simp] theorem State.putRecord_swd (s : State) (n : Nat) (r : Bytes) (c : Bool) : (s.putRecord n r c).swd = s.swd := by
  unfold State.putRecord; dsimp only; split <;> simp
@[simp] theorem State.putRecord_tri (s : State) (n : Nat) (r : Bytes) (c : Bool) : (s.putRecord n r c).tri = s.tri := by
  unfold State.putRecord; dsimp only; split <;> simp
@[simp] theorem State.putRecord_cpr (s : State) (n : Nat) (r : Bytes) (c : Bool) : (s.putRecord n r c).cpr = s.cpr := by
  unfold State.putRecord; dsimp only; split <;> simp
@[simp] theorem State.putRecord_fld (s : State) (n : Nat) (r : Bytes) (c : Bool) : (s.putRecord n r c).fld = s.fld := by
  unfold State.putRecord; dsimp only; split <;> simp
@[simp] theorem State.putRecord_hl1 (s : State) (n : Nat) (r : Bytes) (c : Bool) : (s.putRecord n r c).hl1 = s.hl1 := by
  unfold State.putRecord; dsimp only; split <;> simp
@[simp] theorem State.putRecord_hl2 (s : State) (n : Nat) (r : Bytes) (c : Bool) : (s.putRecord n r c).hl2 = s.hl2 := by
  unfold State.putRecord; dsimp only; split <;> simp
@[simp] theorem State.putRecord_dpx (s : State) (n : Nat) (r : Bytes) (c : Bool) : (s.putRecord n r c).dpx = s.dpx := by
  unfold State.putRecord; dsimp only; split <;> simp
@[simp] theorem State.putRecord_stl (s : State) (n : Nat) (r : Bytes) (c : Bool) : (s.putRecord n r c).stl = s.stl := by
  unfold State.putRecord; dsimp only; split <;> simp
@[simp] theorem State.putRecord_upd (s : State) (n : Nat) (r : Bytes) (c : Bool) : (s.putRecord n r c).upd = s.upd := by
  unfold State.putRecord; dsimp only; split <;> simp
@[simp] theorem State.putRecord_bst (s : State) (n : Nat) (r : Bytes) (c : Bool) : (s.putRecord n r c).bst = s.bst := by
  unfold State.putRecord; dsimp only; split <;> simp
@[simp] theorem State.putRecord_saf (s : State) (n : Nat) (r : Bytes) (c : Bool) : (s.putRecord n r c).saf = s.saf := by
  unfold State.putRecord; dsimp only; split <;> simp
@[simp] theorem State.putRecord_journal (s : State) (n : Nat) (r : Bytes) (c : Bool) : (s.putRecord n r c).journal = s.journal := by
  unfold State.putRecord; dsimp only; split <;> simp
@[simp] theorem State.putRecord_tasks (s : State) (n : Nat) (r : Bytes) (c : Bool) : (s.putRecord n r c).tasks = s.tasks := by
  unfold State.putRecord; dsimp only; split <;> simp

@[simp] theorem State.putAccepted_pending (s : State) (e : JEntry) (r : Bool) : (s.putAccepted e r).pending = s.pending := by
  unfold State.putAccepted; simp
@[simp] theorem State.putAccepted_free (s : State) (e : JEntry) (r : Bool) : (s.putAccepted e r).free = s.free := by
  unfold State.putAccepted; simp
@[simp] theorem State.putAccepted_mfg (s : State) (e : JEntry) (r : Bool) : (s.putAccepted e r).mfg = s.mfg := by
  unfold State.putAccepted; simp
@[simp] theorem State.putAccepted_pwr (s : State) (e : JEntry) (r : Bool) : (s.putAccepted e r).pwr = s.pwr := by
  unfold State.putAccepted; simp
@[simp] theorem State.putAccepted_tbu (s : State) (e : JEntry) (r : Bool) : (s.putAccepted e r).tbu = s.tbu := by
  unfold State.putAccepted; simp
@[simp] theorem State.putAccepted_hyk (s : State) (e : JEntry) (r : Bool) : (s.putAccepted e r).hyk = s.hyk := by
  unfold State.putAccepted; simp
@[simp] theorem State.putAccepted_sys (s : State) (e : JEntry) (r : Bool) : (s.putAccepted e r).sys = s.sys := by
  unfold State.putAccepted; simp
@[simp] theorem State.putAccepted_cfg (s : State) (e : JEntry) (r : Bool) : (s.putAccepted e r).cfg = s.cfg := by
  unfold State.putAccepted; simp
@[simp] theorem State.putAccepted_prog (s : State) (e : JEntry) (r : Bool) : (s.putAccepted e r).prog = s.prog := by
  unfold State.putAccepted; simp
@[simp] theorem State.putAccepted_swd (s : State) (e : JEntry) (r : Bool) : (s.putAccepted e r).swd = s.swd := by
  unfold State.putAccepted; simp
@[simp] theorem State.putAccepted_tri (s : State) (e : JEntry) (r : Bool) : (s.putAccepted e r).tri = s.tri := by
  unfold State.putAccepted; simp
@[simp] theorem State.putAccepted_cpr (s : State) (e : JEntry) (r : Bool) : (s.putAccepted e r).cpr = s.cpr := by
  unfold State.putAccepted; simp
@[simp] theorem State.putAccepted_fld (s : State) (e : JEntry) (r : Bool) : (s.putAccepted e r).fld = s.fld := by
  unfold State.putAccepted; simp
@[simp] theorem State.putAccepted_hl1 (s : State) (e : JEntry) (r : Bool) : (s.putAccepted e r).hl1 = s.hl1 := by
  unfold State.putAccepted; simp
@[simp] theorem State.putAccepted_hl2 (s : State) (e : JEntry) (r : Bool) : (s.putAccepted e r).hl2 = s.hl2 := by
  unfold State.putAccepted; simp
@[simp] theorem State.putAccepted_dpx (s : State) (e : JEntry) (r : Bool) : (s.putAccepted e r).dpx = s.dpx := by
  unfold State.putAccepted; simp
@[simp] theorem State.putAccepted_stl (s : State) (e : JEntry) (r : Bool) : (s.putAccepted e r).stl = s.stl := by
  unfold State.putAccepted; simp
@[simp] theorem State.putAccepted_upd (s : State) (e : JEntry) (r : Bool) : (s.putAccepted e r).upd = s.upd := by
  unfold State.putAccepted; simp
@[simp] theorem State.putAccepted_bst (s : State) (e : JEntry) (r : Bool) : (s.putAccepted e r).bst = s.bst := by
  unfold State.putAccepted; simp
@[simp] theorem State.putAccepted_saf (s : State) (e : JEntry) (r : Bool) : (s.putAccepted e r).saf = s.saf := by
  unfold State.putAccepted; simp
@[simp] theorem State.putAccepted_journal (s : State) (e : JEntry) (r : Bool) : (s.putAccepted e r).journal = s.journal := by
  unfold State.putAccepted; simp
@[simp] theorem State.putAccepted_tasks (s : State) (e : JEntry) (r : Bool) : (s.putAccepted e r).tasks = s.tasks := by
  unfold State.putAccepted; simp

@[simp] theorem State.modEntry_pending (s : State) (h : Quad) (f : JEntry → JEntry) : (s.modEntry h f).pending = s.pending := by
  unfold State.modEntry; simp
@[simp] theorem State.modEntry_free (s : State) (h : Quad) (f : JEntry → JEntry) : (s.modEntry h f).free = s.free := by
  unfold State.modEntry; simp
@[simp] theorem State.modEntry_sent (s : State) (h : Quad) (f : JEntry → JEntry) : (s.modEntry h f).sent = s.sent := by
  unfold State.modEntry; simp
@[simp] theorem State.modEntry_mfg (s : State) (h : Quad) (f : JEntry → JEntry) : (s.modEntry h f).mfg = s.mfg := by
  unfold State.modEntry; simp
@[simp] theorem State.modEntry_pwr (s : State) (h : Quad) (f : JEntry → JEntry) : (s.modEntry h f).pwr = s.pwr := by
  unfold State.modEntry; simp
@[simp] theorem State.modEntry_tbu (s : State) (h : Quad) (f : JEntry → JEntry) : (s.modEntry h f).tbu = s.tbu := by
  unfold State.modEntry; simp
@[simp] theorem State.modEntry_hyk (s : State) (h : Quad) (f : JEntry → JEntry) : (s.modEntry h f).hyk = s.hyk := by
  unfold State.modEntry; simp
@[simp] theorem State.modEntry_sys (s : State) (h : Quad) (f : JEntry → JEntry) : (s.modEntry h f).sys = s.sys := by
  unfold State.modEntry; simp
@[simp] theorem State.modEntry_host (s : State) (h : Quad) (f : JEntry → JEntry) : (s.modEntry h f).host = s.host := by
  unfold State.modEntry; simp
@[simp] theorem State.modEntry_mem (s : State) (h : Quad) (f : JEntry → JEntry) : (s.modEntry h f).mem = s.mem := by
  unfold State.modEntry; simp
@[simp] theorem State.modEntry_cfg (s : State) (h : Quad) (f : JEntry → JEntry) : (s.modEntry h f).cfg = s.cfg := by
  unfold State.modEntry; simp
@[simp] theorem State.modEntry_prog (s : State) (h : Quad) (f : JEntry → JEntry) : (s.modEntry h f).prog = s.prog := by
  unfold State.modEntry; simp
@[simp] theorem State.modEntry_swd (s : State) (h : Quad) (f : JEntry → JEntry) : (s.modEntry h f).swd = s.swd := by
  unfold State.modEntry; simp
@[simp] theorem State.modEntry_tri (s : State) (h : Quad) (f : JEntry → JEntry) : (s.modEntry h f).tri = s.tri := by
  unfold State.modEntry; simp
@[simp] theorem State.modEntry_cpr (s : State) (h : Quad) (f : JEntry → JEntry) : (s.modEntry h f).cpr = s.cpr := by
  unfold State.modEntry; simp
@[simp] theorem State.modEntry_fld (s : State) (h : Quad) (f : JEntry → JEntry) : (s.modEntry h f).fld = s.fld := by
  unfold State.modEntry; simp
@[simp] theorem State.modEntry_hl1 (s : State) (h : Quad) (f : JEntry → JEntry) : (s.modEntry h f).hl1 = s.hl1 := by
  unfold State.modEntry; simp
@[simp] theorem State.modEntry_hl2 (s : State) (h : Quad) (f : JEntry → JEntry) : (s.modEntry h f).hl2 = s.hl2 := by
  unfold State.modEntry; simp
@[simp] theorem State.modEntry_dpx (s : State) (h : Quad) (f : JEntry → JEntry) : (s.modEntry h f).dpx = s.dpx := by
  unfold State.modEntry; simp
@[simp] theorem State.modEntry_stl (s : State) (h : Quad) (f : JEntry → JEntry) : (s.modEntry h f).stl = s.stl := by
  unfold State.modEntry; simp
@[simp] theorem State.modEntry_upd (s : State) (h : Quad) (f : JEntry → JEntry) : (s.modEntry h f).upd = s.upd := by
  unfold State.modEntry; simp
@[simp] theorem State.modEntry_bst (s : State) (h : Quad) (f : JEntry → JEntry) : (s.modEntry h f).bst = s.bst := by
  unfold State.modEntry; simp
@[simp] theorem State.modEntry_saf (s : State) (h : Quad) (f : JEntry → JEntry) : (s.modEntry h f).saf = s.saf := by
  unfold State.modEntry; simp
@[simp] theorem State.modEntry_rings (s : State) (h : Quad) (f : JEntry → JEntry) : (s.modEntry h f).rings = s.rings := by
  unfold State.modEntry; simp
@[simp] theorem State.modEntry_tasks (s : State) (h : Quad) (f : JEntry → JEntry) : (s.modEntry h f).tasks = s.tasks := by
  unfold State.modEntry; simp

@[simp] theorem State.executing_pending (s : State) (h : Quad) : (s.executing h).pending = s.pending := by
  unfold State.executing; simp
@[simp] theorem State.executing_free (s : State) (h : Quad) : (s.executing h).free = s.free := by
  unfold State.executing; simp
@[simp] theorem State.executing_sent (s : State) (h : Quad) : (s.executing h).sent = s.sent := by
  unfold State.executing; simp
@[simp] theorem State.executing_mfg (s : State) (h : Quad) : (s.executing h).mfg = s.mfg := by
  unfold State.executing; simp
@[simp] theorem State.executing_pwr (s : State) (h : Quad) : (s.executing h).pwr = s.pwr := by
  unfold State.executing; simp
@[simp] theorem State.executing_tbu (s : State) (h : Quad) : (s.executing h).tbu = s.tbu := by
  unfold State.executing; simp
@[simp] theorem State.executing_hyk (s : State) (h : Quad) : (s.executing h).hyk = s.hyk := by
  unfold State.executing; simp
@[simp] theorem State.executing_sys (s : State) (h : Quad) : (s.executing h).sys = s.sys := by
  unfold State.executing; simp
@[simp] theorem State.executing_host (s : State) (h : Quad) : (s.executing h).host = s.host := by
  unfold State.executing; simp
@[simp] theorem State.executing_mem (s : State) (h : Quad) : (s.executing h).mem = s.mem := by
  unfold State.executing; simp
@[simp] theorem State.executing_cfg (s : State) (h : Quad) : (s.executing h).cfg = s.cfg := by
  unfold State.executing; simp
@[simp] theorem State.executing_prog (s : State) (h : Quad) : (s.executing h).prog = s.prog := by
  unfold State.executing; simp
@[simp] theorem State.executing_swd (s : State) (h : Quad) : (s.executing h).swd = s.swd := by
  unfold State.executing; simp
@[simp] theorem State.executing_tri (s : State) (h : Quad) : (s.executing h).tri = s.tri := by
  unfold State.executing; simp
@[simp] theorem State.executing_cpr (s : State) (h : Quad) : (s.executing h).cpr = s.cpr := by
  unfold State.executing; simp
@[simp] theorem State.executing_fld (s : State) (h : Quad) : (s.executing h).fld = s.fld := by
  unfold State.executing; simp
@[simp] theorem State.executing_hl1 (s : State) (h : Quad) : (s.executing h).hl1 = s.hl1 := by
  unfold State.executing; simp
@[simp] theorem State.executing_hl2 (s : State) (h : Quad) : (s.executing h).hl2 = s.hl2 := by
  unfold State.executing; simp
@[simp] theorem State.executing_dpx (s : State) (h : Quad) : (s.executing h).dpx = s.dpx := by
  unfold State.executing; simp
@[simp] theorem State.executing_stl (s : State) (h : Quad) : (s.executing h).stl = s.stl := by
  unfold State.executing; simp
@[simp] theorem State.executing_upd (s : State) (h : Quad) : (s.executing h).upd = s.upd := by
  unfold State.executing; simp
@[simp] theorem State.executing_bst (s : State) (h : Quad) : (s.executing h).bst = s.bst := by
  unfold State.executing; simp
@[simp] theorem State.executing_saf (s : State) (h : Quad) : (s.executing h).saf = s.saf := by
  unfold State.executing; simp
@[simp] theorem State.executing_rings (s : State) (h : Quad) : (s.executing h).rings = s.rings := by
  unfold State.executing; simp
@[simp] theorem State.executing_tasks (s : State) (h : Quad) : (s.executing h).tasks = s.tasks := by
  unfold State.executing; simp

@[simp] theorem State.putDone_pending (s : State) (e : JEntry) (r : Bool) : (s.putDone e r).pending = s.pending := by
  unfold State.putDone; simp
@[simp] theorem State.putDone_free (s : State) (e : JEntry) (r : Bool) : (s.putDone e r).free = s.free := by
  unfold State.putDone; simp
@[simp] theorem State.putDone_mfg (s : State) (e : JEntry) (r : Bool) : (s.putDone e r).mfg = s.mfg := by
  unfold State.putDone; simp
@[simp] theorem State.putDone_pwr (s : State) (e : JEntry) (r : Bool) : (s.putDone e r).pwr = s.pwr := by
  unfold State.putDone; simp
@[simp] theorem State.putDone_tbu (s : State) (e : JEntry) (r : Bool) : (s.putDone e r).tbu = s.tbu := by
  unfold State.putDone; simp
@[simp] theorem State.putDone_hyk (s : State) (e : JEntry) (r : Bool) : (s.putDone e r).hyk = s.hyk := by
  unfold State.putDone; simp
@[simp] theorem State.putDone_sys (s : State) (e : JEntry) (r : Bool) : (s.putDone e r).sys = s.sys := by
  unfold State.putDone; simp
@[simp] theorem State.putDone_cfg (s : State) (e : JEntry) (r : Bool) : (s.putDone e r).cfg = s.cfg := by
  unfold State.putDone; simp
@[simp] theorem State.putDone_prog (s : State) (e : JEntry) (r : Bool) : (s.putDone e r).prog = s.prog := by
  unfold State.putDone; simp
@[simp] theorem State.putDone_swd (s : State) (e : JEntry) (r : Bool) : (s.putDone e r).swd = s.swd := by
  unfold State.putDone; simp
@[simp] theorem State.putDone_tri (s : State) (e : JEntry) (r : Bool) : (s.putDone e r).tri = s.tri := by
  unfold State.putDone; simp
@[simp] theorem State.putDone_cpr (s : State) (e : JEntry) (r : Bool) : (s.putDone e r).cpr = s.cpr := by
  unfold State.putDone; simp
@[simp] theorem State.putDone_fld (s : State) (e : JEntry) (r : Bool) : (s.putDone e r).fld = s.fld := by
  unfold State.putDone; simp
@[simp] theorem State.putDone_hl1 (s : State) (e : JEntry) (r : Bool) : (s.putDone e r).hl1 = s.hl1 := by
  unfold State.putDone; simp
@[simp] theorem State.putDone_hl2 (s : State) (e : JEntry) (r : Bool) : (s.putDone e r).hl2 = s.hl2 := by
  unfold State.putDone; simp
@[simp] theorem State.putDone_dpx (s : State) (e : JEntry) (r : Bool) : (s.putDone e r).dpx = s.dpx := by
  unfold State.putDone; simp
@[simp] theorem State.putDone_stl (s : State) (e : JEntry) (r : Bool) : (s.putDone e r).stl = s.stl := by
  unfold State.putDone; simp
@[simp] theorem State.putDone_upd (s : State) (e : JEntry) (r : Bool) : (s.putDone e r).upd = s.upd := by
  unfold State.putDone; simp
@[simp] theorem State.putDone_bst (s : State) (e : JEntry) (r : Bool) : (s.putDone e r).bst = s.bst := by
  unfold State.putDone; simp
@[simp] theorem State.putDone_saf (s : State) (e : JEntry) (r : Bool) : (s.putDone e r).saf = s.saf := by
  unfold State.putDone; simp
@[simp] theorem State.putDone_tasks (s : State) (e : JEntry) (r : Bool) : (s.putDone e r).tasks = s.tasks := by
  unfold State.putDone; simp

@[simp] theorem State.flush_pending (s : State) (n : Nat) : (s.flush n).pending = s.pending := by
  unfold State.flush; exact foldl_keeps State.pending _ (fun _ _ => by simp) _ _
@[simp] theorem State.flush_free (s : State) (n : Nat) : (s.flush n).free = s.free := by
  unfold State.flush; exact foldl_keeps State.free _ (fun _ _ => by simp) _ _
@[simp] theorem State.flush_mfg (s : State) (n : Nat) : (s.flush n).mfg = s.mfg := by
  unfold State.flush; exact foldl_keeps State.mfg _ (fun _ _ => by simp) _ _
@[simp] theorem State.flush_pwr (s : State) (n : Nat) : (s.flush n).pwr = s.pwr := by
  unfold State.flush; exact foldl_keeps State.pwr _ (fun _ _ => by simp) _ _
@[simp] theorem State.flush_tbu (s : State) (n : Nat) : (s.flush n).tbu = s.tbu := by
  unfold State.flush; exact foldl_keeps State.tbu _ (fun _ _ => by simp) _ _
@[simp] theorem State.flush_hyk (s : State) (n : Nat) : (s.flush n).hyk = s.hyk := by
  unfold State.flush; exact foldl_keeps State.hyk _ (fun _ _ => by simp) _ _
@[simp] theorem State.flush_sys (s : State) (n : Nat) : (s.flush n).sys = s.sys := by
  unfold State.flush; exact foldl_keeps State.sys _ (fun _ _ => by simp) _ _
@[simp] theorem State.flush_cfg (s : State) (n : Nat) : (s.flush n).cfg = s.cfg := by
  unfold State.flush; exact foldl_keeps State.cfg _ (fun _ _ => by simp) _ _
@[simp] theorem State.flush_prog (s : State) (n : Nat) : (s.flush n).prog = s.prog := by
  unfold State.flush; exact foldl_keeps State.prog _ (fun _ _ => by simp) _ _
@[simp] theorem State.flush_swd (s : State) (n : Nat) : (s.flush n).swd = s.swd := by
  unfold State.flush; exact foldl_keeps State.swd _ (fun _ _ => by simp) _ _
@[simp] theorem State.flush_tri (s : State) (n : Nat) : (s.flush n).tri = s.tri := by
  unfold State.flush; exact foldl_keeps State.tri _ (fun _ _ => by simp) _ _
@[simp] theorem State.flush_cpr (s : State) (n : Nat) : (s.flush n).cpr = s.cpr := by
  unfold State.flush; exact foldl_keeps State.cpr _ (fun _ _ => by simp) _ _
@[simp] theorem State.flush_fld (s : State) (n : Nat) : (s.flush n).fld = s.fld := by
  unfold State.flush; exact foldl_keeps State.fld _ (fun _ _ => by simp) _ _
@[simp] theorem State.flush_hl1 (s : State) (n : Nat) : (s.flush n).hl1 = s.hl1 := by
  unfold State.flush; exact foldl_keeps State.hl1 _ (fun _ _ => by simp) _ _
@[simp] theorem State.flush_hl2 (s : State) (n : Nat) : (s.flush n).hl2 = s.hl2 := by
  unfold State.flush; exact foldl_keeps State.hl2 _ (fun _ _ => by simp) _ _
@[simp] theorem State.flush_dpx (s : State) (n : Nat) : (s.flush n).dpx = s.dpx := by
  unfold State.flush; exact foldl_keeps State.dpx _ (fun _ _ => by simp) _ _
@[simp] theorem State.flush_stl (s : State) (n : Nat) : (s.flush n).stl = s.stl := by
  unfold State.flush; exact foldl_keeps State.stl _ (fun _ _ => by simp) _ _
@[simp] theorem State.flush_upd (s : State) (n : Nat) : (s.flush n).upd = s.upd := by
  unfold State.flush; exact foldl_keeps State.upd _ (fun _ _ => by simp) _ _
@[simp] theorem State.flush_bst (s : State) (n : Nat) : (s.flush n).bst = s.bst := by
  unfold State.flush; exact foldl_keeps State.bst _ (fun _ _ => by simp) _ _
@[simp] theorem State.flush_saf (s : State) (n : Nat) : (s.flush n).saf = s.saf := by
  unfold State.flush; exact foldl_keeps State.saf _ (fun _ _ => by simp) _ _
@[simp] theorem State.flush_tasks (s : State) (n : Nat) : (s.flush n).tasks = s.tasks := by
  unfold State.flush; exact foldl_keeps State.tasks _ (fun _ _ => by simp) _ _

@[simp] theorem State.complete_pending (s : State) (h : Quad) (st : BitVec 16) (r : Bytes) (x : Bool) : (s.complete h st r x).pending = s.pending := by
  unfold State.complete; (repeat' split) <;> simp
@[simp] theorem State.complete_free (s : State) (h : Quad) (st : BitVec 16) (r : Bytes) (x : Bool) : (s.complete h st r x).free = s.free := by
  unfold State.complete; (repeat' split) <;> simp
@[simp] theorem State.complete_mfg (s : State) (h : Quad) (st : BitVec 16) (r : Bytes) (x : Bool) : (s.complete h st r x).mfg = s.mfg := by
  unfold State.complete; (repeat' split) <;> simp
@[simp] theorem State.complete_pwr (s : State) (h : Quad) (st : BitVec 16) (r : Bytes) (x : Bool) : (s.complete h st r x).pwr = s.pwr := by
  unfold State.complete; (repeat' split) <;> simp
@[simp] theorem State.complete_tbu (s : State) (h : Quad) (st : BitVec 16) (r : Bytes) (x : Bool) : (s.complete h st r x).tbu = s.tbu := by
  unfold State.complete; (repeat' split) <;> simp
@[simp] theorem State.complete_hyk (s : State) (h : Quad) (st : BitVec 16) (r : Bytes) (x : Bool) : (s.complete h st r x).hyk = s.hyk := by
  unfold State.complete; (repeat' split) <;> simp
@[simp] theorem State.complete_sys (s : State) (h : Quad) (st : BitVec 16) (r : Bytes) (x : Bool) : (s.complete h st r x).sys = s.sys := by
  unfold State.complete; (repeat' split) <;> simp
@[simp] theorem State.complete_cfg (s : State) (h : Quad) (st : BitVec 16) (r : Bytes) (x : Bool) : (s.complete h st r x).cfg = s.cfg := by
  unfold State.complete; (repeat' split) <;> simp
@[simp] theorem State.complete_prog (s : State) (h : Quad) (st : BitVec 16) (r : Bytes) (x : Bool) : (s.complete h st r x).prog = s.prog := by
  unfold State.complete; (repeat' split) <;> simp
@[simp] theorem State.complete_swd (s : State) (h : Quad) (st : BitVec 16) (r : Bytes) (x : Bool) : (s.complete h st r x).swd = s.swd := by
  unfold State.complete; (repeat' split) <;> simp
@[simp] theorem State.complete_tri (s : State) (h : Quad) (st : BitVec 16) (r : Bytes) (x : Bool) : (s.complete h st r x).tri = s.tri := by
  unfold State.complete; (repeat' split) <;> simp
@[simp] theorem State.complete_cpr (s : State) (h : Quad) (st : BitVec 16) (r : Bytes) (x : Bool) : (s.complete h st r x).cpr = s.cpr := by
  unfold State.complete; (repeat' split) <;> simp
@[simp] theorem State.complete_fld (s : State) (h : Quad) (st : BitVec 16) (r : Bytes) (x : Bool) : (s.complete h st r x).fld = s.fld := by
  unfold State.complete; (repeat' split) <;> simp
@[simp] theorem State.complete_hl1 (s : State) (h : Quad) (st : BitVec 16) (r : Bytes) (x : Bool) : (s.complete h st r x).hl1 = s.hl1 := by
  unfold State.complete; (repeat' split) <;> simp
@[simp] theorem State.complete_hl2 (s : State) (h : Quad) (st : BitVec 16) (r : Bytes) (x : Bool) : (s.complete h st r x).hl2 = s.hl2 := by
  unfold State.complete; (repeat' split) <;> simp
@[simp] theorem State.complete_dpx (s : State) (h : Quad) (st : BitVec 16) (r : Bytes) (x : Bool) : (s.complete h st r x).dpx = s.dpx := by
  unfold State.complete; (repeat' split) <;> simp
@[simp] theorem State.complete_stl (s : State) (h : Quad) (st : BitVec 16) (r : Bytes) (x : Bool) : (s.complete h st r x).stl = s.stl := by
  unfold State.complete; (repeat' split) <;> simp
@[simp] theorem State.complete_upd (s : State) (h : Quad) (st : BitVec 16) (r : Bytes) (x : Bool) : (s.complete h st r x).upd = s.upd := by
  unfold State.complete; (repeat' split) <;> simp
@[simp] theorem State.complete_bst (s : State) (h : Quad) (st : BitVec 16) (r : Bytes) (x : Bool) : (s.complete h st r x).bst = s.bst := by
  unfold State.complete; (repeat' split) <;> simp
@[simp] theorem State.complete_saf (s : State) (h : Quad) (st : BitVec 16) (r : Bytes) (x : Bool) : (s.complete h st r x).saf = s.saf := by
  unfold State.complete; (repeat' split) <;> simp
@[simp] theorem State.complete_tasks (s : State) (h : Quad) (st : BitVec 16) (r : Bytes) (x : Bool) : (s.complete h st r x).tasks = s.tasks := by
  unfold State.complete; (repeat' split) <;> simp

@[simp] theorem State.fail_pending (s : State) (h : Quad) (st : BitVec 16) (n : Nat) : (s.fail h st n).pending = s.pending := by
  unfold State.fail; simp
@[simp] theorem State.fail_free (s : State) (h : Quad) (st : BitVec 16) (n : Nat) : (s.fail h st n).free = s.free := by
  unfold State.fail; simp
@[simp] theorem State.fail_mfg (s : State) (h : Quad) (st : BitVec 16) (n : Nat) : (s.fail h st n).mfg = s.mfg := by
  unfold State.fail; simp
@[simp] theorem State.fail_pwr (s : State) (h : Quad) (st : BitVec 16) (n : Nat) : (s.fail h st n).pwr = s.pwr := by
  unfold State.fail; simp
@[simp] theorem State.fail_tbu (s : State) (h : Quad) (st : BitVec 16) (n : Nat) : (s.fail h st n).tbu = s.tbu := by
  unfold State.fail; simp
@[simp] theorem State.fail_hyk (s : State) (h : Quad) (st : BitVec 16) (n : Nat) : (s.fail h st n).hyk = s.hyk := by
  unfold State.fail; simp
@[simp] theorem State.fail_sys (s : State) (h : Quad) (st : BitVec 16) (n : Nat) : (s.fail h st n).sys = s.sys := by
  unfold State.fail; simp
@[simp] theorem State.fail_cfg (s : State) (h : Quad) (st : BitVec 16) (n : Nat) : (s.fail h st n).cfg = s.cfg := by
  unfold State.fail; simp
@[simp] theorem State.fail_prog (s : State) (h : Quad) (st : BitVec 16) (n : Nat) : (s.fail h st n).prog = s.prog := by
  unfold State.fail; simp
@[simp] theorem State.fail_swd (s : State) (h : Quad) (st : BitVec 16) (n : Nat) : (s.fail h st n).swd = s.swd := by
  unfold State.fail; simp
@[simp] theorem State.fail_tri (s : State) (h : Quad) (st : BitVec 16) (n : Nat) : (s.fail h st n).tri = s.tri := by
  unfold State.fail; simp
@[simp] theorem State.fail_cpr (s : State) (h : Quad) (st : BitVec 16) (n : Nat) : (s.fail h st n).cpr = s.cpr := by
  unfold State.fail; simp
@[simp] theorem State.fail_fld (s : State) (h : Quad) (st : BitVec 16) (n : Nat) : (s.fail h st n).fld = s.fld := by
  unfold State.fail; simp
@[simp] theorem State.fail_hl1 (s : State) (h : Quad) (st : BitVec 16) (n : Nat) : (s.fail h st n).hl1 = s.hl1 := by
  unfold State.fail; simp
@[simp] theorem State.fail_hl2 (s : State) (h : Quad) (st : BitVec 16) (n : Nat) : (s.fail h st n).hl2 = s.hl2 := by
  unfold State.fail; simp
@[simp] theorem State.fail_dpx (s : State) (h : Quad) (st : BitVec 16) (n : Nat) : (s.fail h st n).dpx = s.dpx := by
  unfold State.fail; simp
@[simp] theorem State.fail_stl (s : State) (h : Quad) (st : BitVec 16) (n : Nat) : (s.fail h st n).stl = s.stl := by
  unfold State.fail; simp
@[simp] theorem State.fail_upd (s : State) (h : Quad) (st : BitVec 16) (n : Nat) : (s.fail h st n).upd = s.upd := by
  unfold State.fail; simp
@[simp] theorem State.fail_bst (s : State) (h : Quad) (st : BitVec 16) (n : Nat) : (s.fail h st n).bst = s.bst := by
  unfold State.fail; simp
@[simp] theorem State.fail_saf (s : State) (h : Quad) (st : BitVec 16) (n : Nat) : (s.fail h st n).saf = s.saf := by
  unfold State.fail; simp
@[simp] theorem State.fail_tasks (s : State) (h : Quad) (st : BitVec 16) (n : Nat) : (s.fail h st n).tasks = s.tasks := by
  unfold State.fail; simp

@[simp] theorem State.refuse_pending (s : State) (h : Quad) (n : Nat) : (s.refuse h n).pending = s.pending := by
  unfold State.refuse; simp
@[simp] theorem State.refuse_free (s : State) (h : Quad) (n : Nat) : (s.refuse h n).free = s.free := by
  unfold State.refuse; simp
@[simp] theorem State.refuse_mfg (s : State) (h : Quad) (n : Nat) : (s.refuse h n).mfg = s.mfg := by
  unfold State.refuse; simp
@[simp] theorem State.refuse_pwr (s : State) (h : Quad) (n : Nat) : (s.refuse h n).pwr = s.pwr := by
  unfold State.refuse; simp
@[simp] theorem State.refuse_tbu (s : State) (h : Quad) (n : Nat) : (s.refuse h n).tbu = s.tbu := by
  unfold State.refuse; simp
@[simp] theorem State.refuse_hyk (s : State) (h : Quad) (n : Nat) : (s.refuse h n).hyk = s.hyk := by
  unfold State.refuse; simp
@[simp] theorem State.refuse_sys (s : State) (h : Quad) (n : Nat) : (s.refuse h n).sys = s.sys := by
  unfold State.refuse; simp
@[simp] theorem State.refuse_cfg (s : State) (h : Quad) (n : Nat) : (s.refuse h n).cfg = s.cfg := by
  unfold State.refuse; simp
@[simp] theorem State.refuse_prog (s : State) (h : Quad) (n : Nat) : (s.refuse h n).prog = s.prog := by
  unfold State.refuse; simp
@[simp] theorem State.refuse_swd (s : State) (h : Quad) (n : Nat) : (s.refuse h n).swd = s.swd := by
  unfold State.refuse; simp
@[simp] theorem State.refuse_tri (s : State) (h : Quad) (n : Nat) : (s.refuse h n).tri = s.tri := by
  unfold State.refuse; simp
@[simp] theorem State.refuse_cpr (s : State) (h : Quad) (n : Nat) : (s.refuse h n).cpr = s.cpr := by
  unfold State.refuse; simp
@[simp] theorem State.refuse_fld (s : State) (h : Quad) (n : Nat) : (s.refuse h n).fld = s.fld := by
  unfold State.refuse; simp
@[simp] theorem State.refuse_hl1 (s : State) (h : Quad) (n : Nat) : (s.refuse h n).hl1 = s.hl1 := by
  unfold State.refuse; simp
@[simp] theorem State.refuse_hl2 (s : State) (h : Quad) (n : Nat) : (s.refuse h n).hl2 = s.hl2 := by
  unfold State.refuse; simp
@[simp] theorem State.refuse_dpx (s : State) (h : Quad) (n : Nat) : (s.refuse h n).dpx = s.dpx := by
  unfold State.refuse; simp
@[simp] theorem State.refuse_stl (s : State) (h : Quad) (n : Nat) : (s.refuse h n).stl = s.stl := by
  unfold State.refuse; simp
@[simp] theorem State.refuse_upd (s : State) (h : Quad) (n : Nat) : (s.refuse h n).upd = s.upd := by
  unfold State.refuse; simp
@[simp] theorem State.refuse_bst (s : State) (h : Quad) (n : Nat) : (s.refuse h n).bst = s.bst := by
  unfold State.refuse; simp
@[simp] theorem State.refuse_saf (s : State) (h : Quad) (n : Nat) : (s.refuse h n).saf = s.saf := by
  unfold State.refuse; simp
@[simp] theorem State.refuse_tasks (s : State) (h : Quad) (n : Nat) : (s.refuse h n).tasks = s.tasks := by
  unfold State.refuse; simp

@[simp] theorem State.disarm_pending (s : State) (e : Nat) (v : BitVec 4) : (s.disarm e v).pending = s.pending := by
  unfold State.disarm; split <;> simp
@[simp] theorem State.disarm_free (s : State) (e : Nat) (v : BitVec 4) : (s.disarm e v).free = s.free := by
  unfold State.disarm; split <;> simp
@[simp] theorem State.disarm_sent (s : State) (e : Nat) (v : BitVec 4) : (s.disarm e v).sent = s.sent := by
  unfold State.disarm; split <;> simp
@[simp] theorem State.disarm_mfg (s : State) (e : Nat) (v : BitVec 4) : (s.disarm e v).mfg = s.mfg := by
  unfold State.disarm; split <;> simp
@[simp] theorem State.disarm_pwr (s : State) (e : Nat) (v : BitVec 4) : (s.disarm e v).pwr = s.pwr := by
  unfold State.disarm; split <;> simp
@[simp] theorem State.disarm_tbu (s : State) (e : Nat) (v : BitVec 4) : (s.disarm e v).tbu = s.tbu := by
  unfold State.disarm; split <;> simp
@[simp] theorem State.disarm_sys (s : State) (e : Nat) (v : BitVec 4) : (s.disarm e v).sys = s.sys := by
  unfold State.disarm; split <;> simp
@[simp] theorem State.disarm_host (s : State) (e : Nat) (v : BitVec 4) : (s.disarm e v).host = s.host := by
  unfold State.disarm; split <;> simp
@[simp] theorem State.disarm_mem (s : State) (e : Nat) (v : BitVec 4) : (s.disarm e v).mem = s.mem := by
  unfold State.disarm; split <;> simp
@[simp] theorem State.disarm_cfg (s : State) (e : Nat) (v : BitVec 4) : (s.disarm e v).cfg = s.cfg := by
  unfold State.disarm; split <;> simp
@[simp] theorem State.disarm_prog (s : State) (e : Nat) (v : BitVec 4) : (s.disarm e v).prog = s.prog := by
  unfold State.disarm; split <;> simp
@[simp] theorem State.disarm_swd (s : State) (e : Nat) (v : BitVec 4) : (s.disarm e v).swd = s.swd := by
  unfold State.disarm; split <;> simp
@[simp] theorem State.disarm_tri (s : State) (e : Nat) (v : BitVec 4) : (s.disarm e v).tri = s.tri := by
  unfold State.disarm; split <;> simp
@[simp] theorem State.disarm_cpr (s : State) (e : Nat) (v : BitVec 4) : (s.disarm e v).cpr = s.cpr := by
  unfold State.disarm; split <;> simp
@[simp] theorem State.disarm_fld (s : State) (e : Nat) (v : BitVec 4) : (s.disarm e v).fld = s.fld := by
  unfold State.disarm; split <;> simp
@[simp] theorem State.disarm_hl1 (s : State) (e : Nat) (v : BitVec 4) : (s.disarm e v).hl1 = s.hl1 := by
  unfold State.disarm; split <;> simp
@[simp] theorem State.disarm_hl2 (s : State) (e : Nat) (v : BitVec 4) : (s.disarm e v).hl2 = s.hl2 := by
  unfold State.disarm; split <;> simp
@[simp] theorem State.disarm_dpx (s : State) (e : Nat) (v : BitVec 4) : (s.disarm e v).dpx = s.dpx := by
  unfold State.disarm; split <;> simp
@[simp] theorem State.disarm_stl (s : State) (e : Nat) (v : BitVec 4) : (s.disarm e v).stl = s.stl := by
  unfold State.disarm; split <;> simp
@[simp] theorem State.disarm_bst (s : State) (e : Nat) (v : BitVec 4) : (s.disarm e v).bst = s.bst := by
  unfold State.disarm; split <;> simp
@[simp] theorem State.disarm_saf (s : State) (e : Nat) (v : BitVec 4) : (s.disarm e v).saf = s.saf := by
  unfold State.disarm; split <;> simp
@[simp] theorem State.disarm_rings (s : State) (e : Nat) (v : BitVec 4) : (s.disarm e v).rings = s.rings := by
  unfold State.disarm; split <;> simp
@[simp] theorem State.disarm_journal (s : State) (e : Nat) (v : BitVec 4) : (s.disarm e v).journal = s.journal := by
  unfold State.disarm; split <;> simp
@[simp] theorem State.disarm_tasks (s : State) (e : Nat) (v : BitVec 4) : (s.disarm e v).tasks = s.tasks := by
  unfold State.disarm; split <;> simp

@[simp] theorem State.cancelArmed_pending (s : State) (e : Nat) (v : BitVec 4) : (s.cancelArmed e v).pending = s.pending := by
  unfold State.cancelArmed; split <;> simp
@[simp] theorem State.cancelArmed_free (s : State) (e : Nat) (v : BitVec 4) : (s.cancelArmed e v).free = s.free := by
  unfold State.cancelArmed; split <;> simp
@[simp] theorem State.cancelArmed_mfg (s : State) (e : Nat) (v : BitVec 4) : (s.cancelArmed e v).mfg = s.mfg := by
  unfold State.cancelArmed; split <;> simp
@[simp] theorem State.cancelArmed_pwr (s : State) (e : Nat) (v : BitVec 4) : (s.cancelArmed e v).pwr = s.pwr := by
  unfold State.cancelArmed; split <;> simp
@[simp] theorem State.cancelArmed_tbu (s : State) (e : Nat) (v : BitVec 4) : (s.cancelArmed e v).tbu = s.tbu := by
  unfold State.cancelArmed; split <;> simp
@[simp] theorem State.cancelArmed_mem (s : State) (e : Nat) (v : BitVec 4) : (s.cancelArmed e v).mem = s.mem := by
  unfold State.cancelArmed; split <;> simp
@[simp] theorem State.cancelArmed_cfg (s : State) (e : Nat) (v : BitVec 4) : (s.cancelArmed e v).cfg = s.cfg := by
  unfold State.cancelArmed; split <;> simp
@[simp] theorem State.cancelArmed_prog (s : State) (e : Nat) (v : BitVec 4) : (s.cancelArmed e v).prog = s.prog := by
  unfold State.cancelArmed; split <;> simp
@[simp] theorem State.cancelArmed_swd (s : State) (e : Nat) (v : BitVec 4) : (s.cancelArmed e v).swd = s.swd := by
  unfold State.cancelArmed; split <;> simp
@[simp] theorem State.cancelArmed_tri (s : State) (e : Nat) (v : BitVec 4) : (s.cancelArmed e v).tri = s.tri := by
  unfold State.cancelArmed; split <;> simp
@[simp] theorem State.cancelArmed_cpr (s : State) (e : Nat) (v : BitVec 4) : (s.cancelArmed e v).cpr = s.cpr := by
  unfold State.cancelArmed; split <;> simp
@[simp] theorem State.cancelArmed_fld (s : State) (e : Nat) (v : BitVec 4) : (s.cancelArmed e v).fld = s.fld := by
  unfold State.cancelArmed; split <;> simp
@[simp] theorem State.cancelArmed_hl1 (s : State) (e : Nat) (v : BitVec 4) : (s.cancelArmed e v).hl1 = s.hl1 := by
  unfold State.cancelArmed; split <;> simp
@[simp] theorem State.cancelArmed_hl2 (s : State) (e : Nat) (v : BitVec 4) : (s.cancelArmed e v).hl2 = s.hl2 := by
  unfold State.cancelArmed; split <;> simp
@[simp] theorem State.cancelArmed_dpx (s : State) (e : Nat) (v : BitVec 4) : (s.cancelArmed e v).dpx = s.dpx := by
  unfold State.cancelArmed; split <;> simp
@[simp] theorem State.cancelArmed_stl (s : State) (e : Nat) (v : BitVec 4) : (s.cancelArmed e v).stl = s.stl := by
  unfold State.cancelArmed; split <;> simp
@[simp] theorem State.cancelArmed_bst (s : State) (e : Nat) (v : BitVec 4) : (s.cancelArmed e v).bst = s.bst := by
  unfold State.cancelArmed; split <;> simp
@[simp] theorem State.cancelArmed_saf (s : State) (e : Nat) (v : BitVec 4) : (s.cancelArmed e v).saf = s.saf := by
  unfold State.cancelArmed; split <;> simp
@[simp] theorem State.cancelArmed_rings (s : State) (e : Nat) (v : BitVec 4) : (s.cancelArmed e v).rings = s.rings := by
  unfold State.cancelArmed; split <;> simp
@[simp] theorem State.cancelArmed_journal (s : State) (e : Nat) (v : BitVec 4) : (s.cancelArmed e v).journal = s.journal := by
  unfold State.cancelArmed; split <;> simp
@[simp] theorem State.cancelArmed_tasks (s : State) (e : Nat) (v : BitVec 4) : (s.cancelArmed e v).tasks = s.tasks := by
  unfold State.cancelArmed; split <;> simp

@[simp] theorem State.releaseClaim_pending (s : State) : (s.releaseClaim).pending = s.pending := by
  unfold State.releaseClaim; simp
@[simp] theorem State.releaseClaim_free (s : State) : (s.releaseClaim).free = s.free := by
  unfold State.releaseClaim; simp
@[simp] theorem State.releaseClaim_sent (s : State) : (s.releaseClaim).sent = s.sent := by
  unfold State.releaseClaim; simp
@[simp] theorem State.releaseClaim_mfg (s : State) : (s.releaseClaim).mfg = s.mfg := by
  unfold State.releaseClaim; simp
@[simp] theorem State.releaseClaim_pwr (s : State) : (s.releaseClaim).pwr = s.pwr := by
  unfold State.releaseClaim; simp
@[simp] theorem State.releaseClaim_tbu (s : State) : (s.releaseClaim).tbu = s.tbu := by
  unfold State.releaseClaim; simp
@[simp] theorem State.releaseClaim_hyk (s : State) : (s.releaseClaim).hyk = s.hyk := by
  unfold State.releaseClaim; simp
@[simp] theorem State.releaseClaim_sys (s : State) : (s.releaseClaim).sys = s.sys := by
  unfold State.releaseClaim; simp
@[simp] theorem State.releaseClaim_host (s : State) : (s.releaseClaim).host = s.host := by
  unfold State.releaseClaim; simp
@[simp] theorem State.releaseClaim_mem (s : State) : (s.releaseClaim).mem = s.mem := by
  unfold State.releaseClaim; simp
@[simp] theorem State.releaseClaim_cfg (s : State) : (s.releaseClaim).cfg = s.cfg := by
  unfold State.releaseClaim; simp
@[simp] theorem State.releaseClaim_prog (s : State) : (s.releaseClaim).prog = s.prog := by
  unfold State.releaseClaim; simp
@[simp] theorem State.releaseClaim_swd (s : State) : (s.releaseClaim).swd = s.swd := by
  unfold State.releaseClaim; simp
@[simp] theorem State.releaseClaim_tri (s : State) : (s.releaseClaim).tri = s.tri := by
  unfold State.releaseClaim; simp
@[simp] theorem State.releaseClaim_cpr (s : State) : (s.releaseClaim).cpr = s.cpr := by
  unfold State.releaseClaim; simp
@[simp] theorem State.releaseClaim_fld (s : State) : (s.releaseClaim).fld = s.fld := by
  unfold State.releaseClaim; simp
@[simp] theorem State.releaseClaim_hl1 (s : State) : (s.releaseClaim).hl1 = s.hl1 := by
  unfold State.releaseClaim; simp
@[simp] theorem State.releaseClaim_hl2 (s : State) : (s.releaseClaim).hl2 = s.hl2 := by
  unfold State.releaseClaim; simp
@[simp] theorem State.releaseClaim_stl (s : State) : (s.releaseClaim).stl = s.stl := by
  unfold State.releaseClaim; simp
@[simp] theorem State.releaseClaim_upd (s : State) : (s.releaseClaim).upd = s.upd := by
  unfold State.releaseClaim; simp
@[simp] theorem State.releaseClaim_bst (s : State) : (s.releaseClaim).bst = s.bst := by
  unfold State.releaseClaim; simp
@[simp] theorem State.releaseClaim_saf (s : State) : (s.releaseClaim).saf = s.saf := by
  unfold State.releaseClaim; simp
@[simp] theorem State.releaseClaim_rings (s : State) : (s.releaseClaim).rings = s.rings := by
  unfold State.releaseClaim; simp
@[simp] theorem State.releaseClaim_journal (s : State) : (s.releaseClaim).journal = s.journal := by
  unfold State.releaseClaim; simp
@[simp] theorem State.releaseClaim_tasks (s : State) : (s.releaseClaim).tasks = s.tasks := by
  unfold State.releaseClaim; simp

@[simp] theorem State.assertClaim_pending (s : State) : (s.assertClaim).pending = s.pending := by
  unfold State.assertClaim; simp
@[simp] theorem State.assertClaim_free (s : State) : (s.assertClaim).free = s.free := by
  unfold State.assertClaim; simp
@[simp] theorem State.assertClaim_sent (s : State) : (s.assertClaim).sent = s.sent := by
  unfold State.assertClaim; simp
@[simp] theorem State.assertClaim_mfg (s : State) : (s.assertClaim).mfg = s.mfg := by
  unfold State.assertClaim; simp
@[simp] theorem State.assertClaim_pwr (s : State) : (s.assertClaim).pwr = s.pwr := by
  unfold State.assertClaim; simp
@[simp] theorem State.assertClaim_tbu (s : State) : (s.assertClaim).tbu = s.tbu := by
  unfold State.assertClaim; simp
@[simp] theorem State.assertClaim_hyk (s : State) : (s.assertClaim).hyk = s.hyk := by
  unfold State.assertClaim; simp
@[simp] theorem State.assertClaim_sys (s : State) : (s.assertClaim).sys = s.sys := by
  unfold State.assertClaim; simp
@[simp] theorem State.assertClaim_host (s : State) : (s.assertClaim).host = s.host := by
  unfold State.assertClaim; simp
@[simp] theorem State.assertClaim_mem (s : State) : (s.assertClaim).mem = s.mem := by
  unfold State.assertClaim; simp
@[simp] theorem State.assertClaim_cfg (s : State) : (s.assertClaim).cfg = s.cfg := by
  unfold State.assertClaim; simp
@[simp] theorem State.assertClaim_prog (s : State) : (s.assertClaim).prog = s.prog := by
  unfold State.assertClaim; simp
@[simp] theorem State.assertClaim_swd (s : State) : (s.assertClaim).swd = s.swd := by
  unfold State.assertClaim; simp
@[simp] theorem State.assertClaim_tri (s : State) : (s.assertClaim).tri = s.tri := by
  unfold State.assertClaim; simp
@[simp] theorem State.assertClaim_cpr (s : State) : (s.assertClaim).cpr = s.cpr := by
  unfold State.assertClaim; simp
@[simp] theorem State.assertClaim_fld (s : State) : (s.assertClaim).fld = s.fld := by
  unfold State.assertClaim; simp
@[simp] theorem State.assertClaim_hl1 (s : State) : (s.assertClaim).hl1 = s.hl1 := by
  unfold State.assertClaim; simp
@[simp] theorem State.assertClaim_hl2 (s : State) : (s.assertClaim).hl2 = s.hl2 := by
  unfold State.assertClaim; simp
@[simp] theorem State.assertClaim_stl (s : State) : (s.assertClaim).stl = s.stl := by
  unfold State.assertClaim; simp
@[simp] theorem State.assertClaim_upd (s : State) : (s.assertClaim).upd = s.upd := by
  unfold State.assertClaim; simp
@[simp] theorem State.assertClaim_bst (s : State) : (s.assertClaim).bst = s.bst := by
  unfold State.assertClaim; simp
@[simp] theorem State.assertClaim_saf (s : State) : (s.assertClaim).saf = s.saf := by
  unfold State.assertClaim; simp
@[simp] theorem State.assertClaim_rings (s : State) : (s.assertClaim).rings = s.rings := by
  unfold State.assertClaim; simp
@[simp] theorem State.assertClaim_journal (s : State) : (s.assertClaim).journal = s.journal := by
  unfold State.assertClaim; simp
@[simp] theorem State.assertClaim_tasks (s : State) : (s.assertClaim).tasks = s.tasks := by
  unfold State.assertClaim; simp

@[simp] theorem State.setRole_pending (s : State) (r b : BitVec 2) : (s.setRole r b).pending = s.pending := by
  unfold State.setRole; dsimp only; split <;> simp
@[simp] theorem State.setRole_free (s : State) (r b : BitVec 2) : (s.setRole r b).free = s.free := by
  unfold State.setRole; dsimp only; split <;> simp
@[simp] theorem State.setRole_mfg (s : State) (r b : BitVec 2) : (s.setRole r b).mfg = s.mfg := by
  unfold State.setRole; dsimp only; split <;> simp
@[simp] theorem State.setRole_pwr (s : State) (r b : BitVec 2) : (s.setRole r b).pwr = s.pwr := by
  unfold State.setRole; dsimp only; split <;> simp
@[simp] theorem State.setRole_tbu (s : State) (r b : BitVec 2) : (s.setRole r b).tbu = s.tbu := by
  unfold State.setRole; dsimp only; split <;> simp
@[simp] theorem State.setRole_hyk (s : State) (r b : BitVec 2) : (s.setRole r b).hyk = s.hyk := by
  unfold State.setRole; dsimp only; split <;> simp
@[simp] theorem State.setRole_mem (s : State) (r b : BitVec 2) : (s.setRole r b).mem = s.mem := by
  unfold State.setRole; dsimp only; split <;> simp
@[simp] theorem State.setRole_cfg (s : State) (r b : BitVec 2) : (s.setRole r b).cfg = s.cfg := by
  unfold State.setRole; dsimp only; split <;> simp
@[simp] theorem State.setRole_prog (s : State) (r b : BitVec 2) : (s.setRole r b).prog = s.prog := by
  unfold State.setRole; dsimp only; split <;> simp
@[simp] theorem State.setRole_swd (s : State) (r b : BitVec 2) : (s.setRole r b).swd = s.swd := by
  unfold State.setRole; dsimp only; split <;> simp
@[simp] theorem State.setRole_tri (s : State) (r b : BitVec 2) : (s.setRole r b).tri = s.tri := by
  unfold State.setRole; dsimp only; split <;> simp
@[simp] theorem State.setRole_cpr (s : State) (r b : BitVec 2) : (s.setRole r b).cpr = s.cpr := by
  unfold State.setRole; dsimp only; split <;> simp
@[simp] theorem State.setRole_fld (s : State) (r b : BitVec 2) : (s.setRole r b).fld = s.fld := by
  unfold State.setRole; dsimp only; split <;> simp
@[simp] theorem State.setRole_hl1 (s : State) (r b : BitVec 2) : (s.setRole r b).hl1 = s.hl1 := by
  unfold State.setRole; dsimp only; split <;> simp
@[simp] theorem State.setRole_hl2 (s : State) (r b : BitVec 2) : (s.setRole r b).hl2 = s.hl2 := by
  unfold State.setRole; dsimp only; split <;> simp
@[simp] theorem State.setRole_stl (s : State) (r b : BitVec 2) : (s.setRole r b).stl = s.stl := by
  unfold State.setRole; dsimp only; split <;> simp
@[simp] theorem State.setRole_bst (s : State) (r b : BitVec 2) : (s.setRole r b).bst = s.bst := by
  unfold State.setRole; dsimp only; split <;> simp
@[simp] theorem State.setRole_saf (s : State) (r b : BitVec 2) : (s.setRole r b).saf = s.saf := by
  unfold State.setRole; dsimp only; split <;> simp
@[simp] theorem State.setRole_rings (s : State) (r b : BitVec 2) : (s.setRole r b).rings = s.rings := by
  unfold State.setRole; dsimp only; split <;> simp
@[simp] theorem State.setRole_journal (s : State) (r b : BitVec 2) : (s.setRole r b).journal = s.journal := by
  unfold State.setRole; dsimp only; split <;> simp
@[simp] theorem State.setRole_tasks (s : State) (r b : BitVec 2) : (s.setRole r b).tasks = s.tasks := by
  unfold State.setRole; dsimp only; split <;> simp

@[simp] theorem State.modSlot_pending (s : State) (b : Bool) (f : FwSlot → FwSlot) : (s.modSlot b f).pending = s.pending := by
  unfold State.modSlot; simp
@[simp] theorem State.modSlot_free (s : State) (b : Bool) (f : FwSlot → FwSlot) : (s.modSlot b f).free = s.free := by
  unfold State.modSlot; simp
@[simp] theorem State.modSlot_sent (s : State) (b : Bool) (f : FwSlot → FwSlot) : (s.modSlot b f).sent = s.sent := by
  unfold State.modSlot; simp
@[simp] theorem State.modSlot_mfg (s : State) (b : Bool) (f : FwSlot → FwSlot) : (s.modSlot b f).mfg = s.mfg := by
  unfold State.modSlot; simp
@[simp] theorem State.modSlot_pwr (s : State) (b : Bool) (f : FwSlot → FwSlot) : (s.modSlot b f).pwr = s.pwr := by
  unfold State.modSlot; simp
@[simp] theorem State.modSlot_tbu (s : State) (b : Bool) (f : FwSlot → FwSlot) : (s.modSlot b f).tbu = s.tbu := by
  unfold State.modSlot; simp
@[simp] theorem State.modSlot_hyk (s : State) (b : Bool) (f : FwSlot → FwSlot) : (s.modSlot b f).hyk = s.hyk := by
  unfold State.modSlot; simp
@[simp] theorem State.modSlot_sys (s : State) (b : Bool) (f : FwSlot → FwSlot) : (s.modSlot b f).sys = s.sys := by
  unfold State.modSlot; simp
@[simp] theorem State.modSlot_host (s : State) (b : Bool) (f : FwSlot → FwSlot) : (s.modSlot b f).host = s.host := by
  unfold State.modSlot; simp
@[simp] theorem State.modSlot_mem (s : State) (b : Bool) (f : FwSlot → FwSlot) : (s.modSlot b f).mem = s.mem := by
  unfold State.modSlot; simp
@[simp] theorem State.modSlot_cfg (s : State) (b : Bool) (f : FwSlot → FwSlot) : (s.modSlot b f).cfg = s.cfg := by
  unfold State.modSlot; simp
@[simp] theorem State.modSlot_prog (s : State) (b : Bool) (f : FwSlot → FwSlot) : (s.modSlot b f).prog = s.prog := by
  unfold State.modSlot; simp
@[simp] theorem State.modSlot_swd (s : State) (b : Bool) (f : FwSlot → FwSlot) : (s.modSlot b f).swd = s.swd := by
  unfold State.modSlot; simp
@[simp] theorem State.modSlot_tri (s : State) (b : Bool) (f : FwSlot → FwSlot) : (s.modSlot b f).tri = s.tri := by
  unfold State.modSlot; simp
@[simp] theorem State.modSlot_cpr (s : State) (b : Bool) (f : FwSlot → FwSlot) : (s.modSlot b f).cpr = s.cpr := by
  unfold State.modSlot; simp
@[simp] theorem State.modSlot_fld (s : State) (b : Bool) (f : FwSlot → FwSlot) : (s.modSlot b f).fld = s.fld := by
  unfold State.modSlot; simp
@[simp] theorem State.modSlot_hl1 (s : State) (b : Bool) (f : FwSlot → FwSlot) : (s.modSlot b f).hl1 = s.hl1 := by
  unfold State.modSlot; simp
@[simp] theorem State.modSlot_hl2 (s : State) (b : Bool) (f : FwSlot → FwSlot) : (s.modSlot b f).hl2 = s.hl2 := by
  unfold State.modSlot; simp
@[simp] theorem State.modSlot_dpx (s : State) (b : Bool) (f : FwSlot → FwSlot) : (s.modSlot b f).dpx = s.dpx := by
  unfold State.modSlot; simp
@[simp] theorem State.modSlot_stl (s : State) (b : Bool) (f : FwSlot → FwSlot) : (s.modSlot b f).stl = s.stl := by
  unfold State.modSlot; simp
@[simp] theorem State.modSlot_bst (s : State) (b : Bool) (f : FwSlot → FwSlot) : (s.modSlot b f).bst = s.bst := by
  unfold State.modSlot; simp
@[simp] theorem State.modSlot_saf (s : State) (b : Bool) (f : FwSlot → FwSlot) : (s.modSlot b f).saf = s.saf := by
  unfold State.modSlot; simp
@[simp] theorem State.modSlot_rings (s : State) (b : Bool) (f : FwSlot → FwSlot) : (s.modSlot b f).rings = s.rings := by
  unfold State.modSlot; simp
@[simp] theorem State.modSlot_journal (s : State) (b : Bool) (f : FwSlot → FwSlot) : (s.modSlot b f).journal = s.journal := by
  unfold State.modSlot; simp
@[simp] theorem State.modSlot_tasks (s : State) (b : Bool) (f : FwSlot → FwSlot) : (s.modSlot b f).tasks = s.tasks := by
  unfold State.modSlot; simp

@[simp] theorem State.swapSlots_pending (s : State) (p : Bool) : (s.swapSlots p).pending = s.pending := by
  unfold State.swapSlots; simp
@[simp] theorem State.swapSlots_free (s : State) (p : Bool) : (s.swapSlots p).free = s.free := by
  unfold State.swapSlots; simp
@[simp] theorem State.swapSlots_sent (s : State) (p : Bool) : (s.swapSlots p).sent = s.sent := by
  unfold State.swapSlots; simp
@[simp] theorem State.swapSlots_mfg (s : State) (p : Bool) : (s.swapSlots p).mfg = s.mfg := by
  unfold State.swapSlots; simp
@[simp] theorem State.swapSlots_pwr (s : State) (p : Bool) : (s.swapSlots p).pwr = s.pwr := by
  unfold State.swapSlots; simp
@[simp] theorem State.swapSlots_tbu (s : State) (p : Bool) : (s.swapSlots p).tbu = s.tbu := by
  unfold State.swapSlots; simp
@[simp] theorem State.swapSlots_hyk (s : State) (p : Bool) : (s.swapSlots p).hyk = s.hyk := by
  unfold State.swapSlots; simp
@[simp] theorem State.swapSlots_sys (s : State) (p : Bool) : (s.swapSlots p).sys = s.sys := by
  unfold State.swapSlots; simp
@[simp] theorem State.swapSlots_host (s : State) (p : Bool) : (s.swapSlots p).host = s.host := by
  unfold State.swapSlots; simp
@[simp] theorem State.swapSlots_mem (s : State) (p : Bool) : (s.swapSlots p).mem = s.mem := by
  unfold State.swapSlots; simp
@[simp] theorem State.swapSlots_cfg (s : State) (p : Bool) : (s.swapSlots p).cfg = s.cfg := by
  unfold State.swapSlots; simp
@[simp] theorem State.swapSlots_prog (s : State) (p : Bool) : (s.swapSlots p).prog = s.prog := by
  unfold State.swapSlots; simp
@[simp] theorem State.swapSlots_swd (s : State) (p : Bool) : (s.swapSlots p).swd = s.swd := by
  unfold State.swapSlots; simp
@[simp] theorem State.swapSlots_tri (s : State) (p : Bool) : (s.swapSlots p).tri = s.tri := by
  unfold State.swapSlots; simp
@[simp] theorem State.swapSlots_cpr (s : State) (p : Bool) : (s.swapSlots p).cpr = s.cpr := by
  unfold State.swapSlots; simp
@[simp] theorem State.swapSlots_fld (s : State) (p : Bool) : (s.swapSlots p).fld = s.fld := by
  unfold State.swapSlots; simp
@[simp] theorem State.swapSlots_hl1 (s : State) (p : Bool) : (s.swapSlots p).hl1 = s.hl1 := by
  unfold State.swapSlots; simp
@[simp] theorem State.swapSlots_hl2 (s : State) (p : Bool) : (s.swapSlots p).hl2 = s.hl2 := by
  unfold State.swapSlots; simp
@[simp] theorem State.swapSlots_dpx (s : State) (p : Bool) : (s.swapSlots p).dpx = s.dpx := by
  unfold State.swapSlots; simp
@[simp] theorem State.swapSlots_stl (s : State) (p : Bool) : (s.swapSlots p).stl = s.stl := by
  unfold State.swapSlots; simp
@[simp] theorem State.swapSlots_bst (s : State) (p : Bool) : (s.swapSlots p).bst = s.bst := by
  unfold State.swapSlots; simp
@[simp] theorem State.swapSlots_saf (s : State) (p : Bool) : (s.swapSlots p).saf = s.saf := by
  unfold State.swapSlots; simp
@[simp] theorem State.swapSlots_rings (s : State) (p : Bool) : (s.swapSlots p).rings = s.rings := by
  unfold State.swapSlots; simp
@[simp] theorem State.swapSlots_journal (s : State) (p : Bool) : (s.swapSlots p).journal = s.journal := by
  unfold State.swapSlots; simp
@[simp] theorem State.swapSlots_tasks (s : State) (p : Bool) : (s.swapSlots p).tasks = s.tasks := by
  unfold State.swapSlots; simp

/-! ## Parts of a part -/

@[simp] theorem State.placeRecord_staging (s : State) (n : Nat) (r : Bytes) (c : Bool) :
    (s.placeRecord n r c).mem.staging = s.mem.staging := by unfold State.placeRecord; simp
@[simp] theorem State.putRecord_staging (s : State) (n : Nat) (r : Bytes) (c : Bool) :
    (s.putRecord n r c).mem.staging = s.mem.staging := by unfold State.putRecord; dsimp only; split <;> simp
@[simp] theorem State.putDone_staging (s : State) (e : JEntry) (r : Bool) :
    (s.putDone e r).mem.staging = s.mem.staging := by unfold State.putDone; simp
@[simp] theorem State.flush_staging (s : State) (n : Nat) : (s.flush n).mem.staging = s.mem.staging := by
  unfold State.flush; exact foldl_keeps (fun s => s.mem.staging) _ (fun _ _ => by simp) _ _
@[simp] theorem State.complete_staging (s : State) (h : Quad) (st : BitVec 16) (r : Bytes) (x : Bool) :
    (s.complete h st r x).mem.staging = s.mem.staging := by unfold State.complete; (repeat' split) <;> simp
@[simp] theorem State.placeRecord_sram (s : State) (n : Nat) (r : Bytes) (c : Bool) :
    (s.placeRecord n r c).mem.sram = s.mem.sram := by unfold State.placeRecord; simp
@[simp] theorem State.putRecord_sram (s : State) (n : Nat) (r : Bytes) (c : Bool) :
    (s.putRecord n r c).mem.sram = s.mem.sram := by unfold State.putRecord; dsimp only; split <;> simp
@[simp] theorem State.putDone_sram (s : State) (e : JEntry) (r : Bool) :
    (s.putDone e r).mem.sram = s.mem.sram := by unfold State.putDone; simp
@[simp] theorem State.flush_sram (s : State) (n : Nat) : (s.flush n).mem.sram = s.mem.sram := by
  unfold State.flush; exact foldl_keeps (fun s => s.mem.sram) _ (fun _ _ => by simp) _ _
@[simp] theorem State.complete_sram (s : State) (h : Quad) (st : BitVec 16) (r : Bytes) (x : Bool) :
    (s.complete h st r x).mem.sram = s.mem.sram := by unfold State.complete; (repeat' split) <;> simp
@[simp] theorem State.placeRecord_bankCycle (s : State) (n : Nat) (r : Bytes) (c : Bool) :
    (s.placeRecord n r c).mem.bankCycle = s.mem.bankCycle := by unfold State.placeRecord; simp
@[simp] theorem State.putRecord_bankCycle (s : State) (n : Nat) (r : Bytes) (c : Bool) :
    (s.putRecord n r c).mem.bankCycle = s.mem.bankCycle := by unfold State.putRecord; dsimp only; split <;> simp
@[simp] theorem State.putDone_bankCycle (s : State) (e : JEntry) (r : Bool) :
    (s.putDone e r).mem.bankCycle = s.mem.bankCycle := by unfold State.putDone; simp
@[simp] theorem State.flush_bankCycle (s : State) (n : Nat) : (s.flush n).mem.bankCycle = s.mem.bankCycle := by
  unfold State.flush; exact foldl_keeps (fun s => s.mem.bankCycle) _ (fun _ _ => by simp) _ _
@[simp] theorem State.complete_bankCycle (s : State) (h : Quad) (st : BitVec 16) (r : Bytes) (x : Bool) :
    (s.complete h st r x).mem.bankCycle = s.mem.bankCycle := by unfold State.complete; (repeat' split) <;> simp
@[simp] theorem State.placeRecord_saved (s : State) (n : Nat) (r : Bytes) (c : Bool) :
    (s.placeRecord n r c).mem.saved = s.mem.saved := by unfold State.placeRecord; simp
@[simp] theorem State.putRecord_saved (s : State) (n : Nat) (r : Bytes) (c : Bool) :
    (s.putRecord n r c).mem.saved = s.mem.saved := by unfold State.putRecord; dsimp only; split <;> simp
@[simp] theorem State.putDone_saved (s : State) (e : JEntry) (r : Bool) :
    (s.putDone e r).mem.saved = s.mem.saved := by unfold State.putDone; simp
@[simp] theorem State.flush_saved (s : State) (n : Nat) : (s.flush n).mem.saved = s.mem.saved := by
  unfold State.flush; exact foldl_keeps (fun s => s.mem.saved) _ (fun _ _ => by simp) _ _
@[simp] theorem State.complete_saved (s : State) (h : Quad) (st : BitVec 16) (r : Bytes) (x : Bool) :
    (s.complete h st r x).mem.saved = s.mem.saved := by unfold State.complete; (repeat' split) <;> simp
@[simp] theorem State.now_eq (s : State) : s.now = s.tbu.count := rfl
/-- `setEvent` touches SYS_EVENT only. -/
theorem State.setEvent_sys (s : State) (k : Nat) :
    (s.setEvent k).sys = { s.sys with event := s.sys.event ||| (1 <<< k) } := by
  unfold State.setEvent; dsimp only; split <;> simp
/-- A mode change writes MODE and SUBSTATE and sets bit 0 of SYS_EVENT. -/
theorem State.setMode_sys (s : State) (m : Mode) (u : BitVec 4) (t : Nat) :
    (s.setMode m u t).sys = { s.sys with mode := m, substate := u, event := s.sys.event ||| 1 } := by
  unfold State.setMode; dsimp only; split <;> simp [State.setEvent_sys]
/-- A role change writes ROLE and STANDBY. -/
theorem State.setRole_dpx (s : State) (r b : BitVec 2) :
    (s.setRole r b).dpx = { s.dpx with role := r, standby := b } := by
  unfold State.setRole; dsimp only; split <;> simp
/-- A role change touches SYS_EVENT only. -/
theorem State.setRole_sys (s : State) (r b : BitVec 2) :
    (s.setRole r b).sys = s.sys ∨ (s.setRole r b).sys = { s.sys with event := s.sys.event ||| 2 } := by
  unfold State.setRole; dsimp only; split
  · left; simp
  · right; simp [State.setEvent_sys]

end Sys2Proof.Machine
end

