-- ==== Sys2Proof/Laws/Keeps.lean ====
section
/-! SUPPORT. What every operation keeps (`Keeps`), one lemma per operation. -/

namespace Sys2Proof.Machine

set_option linter.all false

variable {s0 : State}

theorem Keeps.refl (s : State) : Keeps s s := ⟨rfl, rfl, rfl, Nat.le_refl _, by simp, id⟩
theorem Keeps.trans {s t u : State} (h : Keeps s t) (k : Keeps t u) : Keeps s u :=
  ⟨k.queue.trans h.queue, k.variant.trans h.variant, k.serial.trans h.serial, Nat.le_trans h.fused k.fused, by
    have a := h.revoked; have b := k.revoked
    rw [← a, BitVec.and_assoc, b], k.sound ∘ h.sound⟩
theorem foldl_keep {β : Type} {f : State → β → State} {l : List β} {s : State} (hf : ∀ s x, Keeps s (f s x))
    (h : Keeps s0 s) : Keeps s0 (l.foldl f s) := by
  induction l generalizing s with
  | nil => exact h
  | cons x l ih => exact ih (h.trans (hf s x))
theorem ite_keep {c : Prop} [Decidable c] {a b : State} (h : Keeps s0 a) (k : Keeps s0 b) : Keeps s0 (if c then a else b) := by
  split <;> assumption
theorem Going.on_keep {s : State} (h : Keeps s0 s) : Keeps s0 (Going.on s).state := h
theorem Going.step_keep {g : Going} {k : BitVec 4} {f : State → Going} (hf : ∀ t, Keeps t (f t).state)
    (h : Keeps s0 g.state) : Keeps s0 (g.step k f).state := by
  cases g with
  | on s =>
    refine Keeps.trans h (Keeps.trans ?_ (hf _))
    exact ⟨rfl, rfl, rfl, Nat.le_refl _, by simp [Going.state, State.startStep, State.modSys], fun k => ⟨k.1, k.2, k.3, k.4, k.5, k.6, k.7, k.8⟩⟩
  | ended s => exact h
theorem Going.ended_keep {s : State} (h : Keeps s0 s) : Keeps s0 (Going.ended s).state := h
theorem State.modPwr_keep {s : State} {f : Pwr → Pwr} (h : Keeps s0 s) : Keeps s0 (s.modPwr f) :=
  ⟨h.queue, h.variant, h.serial, h.fused, h.revoked, fun k => ⟨(h.sound k).1, (h.sound k).2, (h.sound k).3, (h.sound k).4, (h.sound k).5, (h.sound k).6, (h.sound k).7, (h.sound k).8⟩⟩
theorem State.modTbu_keep {s : State} {f : Tbu → Tbu} (h : Keeps s0 s) : Keeps s0 (s.modTbu f) :=
  ⟨h.queue, h.variant, h.serial, h.fused, h.revoked, fun k => ⟨(h.sound k).1, (h.sound k).2, (h.sound k).3, (h.sound k).4, (h.sound k).5, (h.sound k).6, (h.sound k).7, (h.sound k).8⟩⟩
theorem State.modSys_keep {s : State} {f : Sys → Sys} (h : Keeps s0 s) : Keeps s0 (s.modSys f) :=
  ⟨h.queue, h.variant, h.serial, h.fused, h.revoked, fun k => ⟨(h.sound k).1, (h.sound k).2, (h.sound k).3, (h.sound k).4, (h.sound k).5, (h.sound k).6, (h.sound k).7, (h.sound k).8⟩⟩
theorem State.modHost_keep {s : State} {f : HostSide → HostSide} (h : Keeps s0 s) : Keeps s0 (s.modHost f) :=
  ⟨h.queue, h.variant, h.serial, h.fused, h.revoked, fun k => ⟨(h.sound k).1, (h.sound k).2, (h.sound k).3, (h.sound k).4, (h.sound k).5, (h.sound k).6, (h.sound k).7, (h.sound k).8⟩⟩
theorem State.modCfg_keep {s : State} {f : Cfg → Cfg} (h : Keeps s0 s) : Keeps s0 (s.modCfg f) :=
  ⟨h.queue, h.variant, h.serial, h.fused, h.revoked, fun k => ⟨(h.sound k).1, (h.sound k).2, (h.sound k).3, (h.sound k).4, (h.sound k).5, (h.sound k).6, (h.sound k).7, (h.sound k).8⟩⟩
theorem State.modProg_keep {s : State} {f : Prog → Prog} (h : Keeps s0 s) : Keeps s0 (s.modProg f) :=
  ⟨h.queue, h.variant, h.serial, h.fused, h.revoked, fun k => ⟨(h.sound k).1, (h.sound k).2, (h.sound k).3, (h.sound k).4, (h.sound k).5, (h.sound k).6, (h.sound k).7, (h.sound k).8⟩⟩
theorem State.modSwd_keep {s : State} {f : Swd → Swd} (h : Keeps s0 s) : Keeps s0 (s.modSwd f) :=
  ⟨h.queue, h.variant, h.serial, h.fused, h.revoked, fun k => ⟨(h.sound k).1, (h.sound k).2, (h.sound k).3, (h.sound k).4, (h.sound k).5, (h.sound k).6, (h.sound k).7, (h.sound k).8⟩⟩
theorem State.modTri_keep {s : State} {f : Tri → Tri} (h : Keeps s0 s) : Keeps s0 (s.modTri f) :=
  ⟨h.queue, h.variant, h.serial, h.fused, h.revoked, fun k => ⟨(h.sound k).1, (h.sound k).2, (h.sound k).3, (h.sound k).4, (h.sound k).5, (h.sound k).6, (h.sound k).7, (h.sound k).8⟩⟩
theorem State.modCpr_keep {s : State} {f : Cpr → Cpr} (h : Keeps s0 s) : Keeps s0 (s.modCpr f) :=
  ⟨h.queue, h.variant, h.serial, h.fused, h.revoked, fun k => ⟨(h.sound k).1, (h.sound k).2, (h.sound k).3, (h.sound k).4, (h.sound k).5, (h.sound k).6, (h.sound k).7, (h.sound k).8⟩⟩
theorem State.modHl1_keep {s : State} {f : HlNet → HlNet} (h : Keeps s0 s) : Keeps s0 (s.modHl1 f) :=
  ⟨h.queue, h.variant, h.serial, h.fused, h.revoked, fun k => ⟨(h.sound k).1, (h.sound k).2, (h.sound k).3, (h.sound k).4, (h.sound k).5, (h.sound k).6, (h.sound k).7, (h.sound k).8⟩⟩
theorem State.modHl2_keep {s : State} {f : HlNet → HlNet} (h : Keeps s0 s) : Keeps s0 (s.modHl2 f) :=
  ⟨h.queue, h.variant, h.serial, h.fused, h.revoked, fun k => ⟨(h.sound k).1, (h.sound k).2, (h.sound k).3, (h.sound k).4, (h.sound k).5, (h.sound k).6, (h.sound k).7, (h.sound k).8⟩⟩
theorem State.modDpx_keep {s : State} {f : Dpx → Dpx} (h : Keeps s0 s) : Keeps s0 (s.modDpx f) :=
  ⟨h.queue, h.variant, h.serial, h.fused, h.revoked, fun k => ⟨(h.sound k).1, (h.sound k).2, (h.sound k).3, (h.sound k).4, (h.sound k).5, (h.sound k).6, (h.sound k).7, (h.sound k).8⟩⟩
theorem State.modStl_keep {s : State} {f : Stl → Stl} (h : Keeps s0 s) : Keeps s0 (s.modStl f) :=
  ⟨h.queue, h.variant, h.serial, h.fused, h.revoked, fun k => ⟨(h.sound k).1, (h.sound k).2, (h.sound k).3, (h.sound k).4, (h.sound k).5, (h.sound k).6, (h.sound k).7, (h.sound k).8⟩⟩
theorem State.modUpd_keep {s : State} {f : Upd → Upd} (h : Keeps s0 s) : Keeps s0 (s.modUpd f) :=
  ⟨h.queue, h.variant, h.serial, h.fused, h.revoked, fun k => ⟨(h.sound k).1, (h.sound k).2, (h.sound k).3, (h.sound k).4, (h.sound k).5, (h.sound k).6, (h.sound k).7, (h.sound k).8⟩⟩
theorem State.modBst_keep {s : State} {f : Bst → Bst} (h : Keeps s0 s) : Keeps s0 (s.modBst f) :=
  ⟨h.queue, h.variant, h.serial, h.fused, h.revoked, fun k => ⟨(h.sound k).1, (h.sound k).2, (h.sound k).3, (h.sound k).4, (h.sound k).5, (h.sound k).6, (h.sound k).7, (h.sound k).8⟩⟩
theorem State.modSaf_keep {s : State} {f : Saf → Saf} (h : Keeps s0 s) : Keeps s0 (s.modSaf f) :=
  ⟨h.queue, h.variant, h.serial, h.fused, h.revoked, fun k => ⟨(h.sound k).1, (h.sound k).2, (h.sound k).3, (h.sound k).4, (h.sound k).5, (h.sound k).6, (h.sound k).7, (h.sound k).8⟩⟩
theorem State.modJournal_keep {s : State} {f : List JEntry → List JEntry} (h : Keeps s0 s) : Keeps s0 (s.modJournal f) :=
  ⟨h.queue, h.variant, h.serial, h.fused, h.revoked, fun k => ⟨(h.sound k).1, (h.sound k).2, (h.sound k).3, (h.sound k).4, (h.sound k).5, (h.sound k).6, (h.sound k).7, (h.sound k).8⟩⟩
theorem State.emit_keep {s : State} {o : Output} (h : Keeps s0 s) : Keeps s0 (s.emit o) :=
  ⟨h.queue, h.variant, h.serial, h.fused, h.revoked, fun k => ⟨(h.sound k).1, (h.sound k).2, (h.sound k).3, (h.sound k).4, (h.sound k).5, (h.sound k).6, (h.sound k).7, (h.sound k).8⟩⟩
theorem State.bump_keep {s : State} (h : Keeps s0 s) : Keeps s0 s.bump :=
  ⟨h.queue, h.variant, h.serial, h.fused, h.revoked, fun k => ⟨(h.sound k).1, (h.sound k).2, (h.sound k).3, (h.sound k).4, (h.sound k).5, (h.sound k).6, (h.sound k).7, (h.sound k).8⟩⟩
/-- Free values taken. -/
theorem State.free_keep {s : State} {n : Nat} (h : Keeps s0 s) : Keeps s0 { s with free := n } :=
  ⟨h.queue, h.variant, h.serial, h.fused, h.revoked, fun k => ⟨(h.sound k).1, (h.sound k).2, (h.sound k).3, (h.sound k).4, (h.sound k).5, (h.sound k).6, (h.sound k).7, (h.sound k).8⟩⟩
/-- What was sent. -/
theorem State.withSent_keep {s : State} {l : List Output} (h : Keeps s0 s) : Keeps s0 { s with sent := l } :=
  ⟨h.queue, h.variant, h.serial, h.fused, h.revoked, fun k => ⟨(h.sound k).1, (h.sound k).2, (h.sound k).3, (h.sound k).4, (h.sound k).5, (h.sound k).6, (h.sound k).7, (h.sound k).8⟩⟩
/-- Fuses blow: the version only rises, revoked keys stay revoked. -/
theorem State.blow_keep {s : State} {a : Byte} {b : BitVec 4} (ha : s.mfg.fused.toNat ≤ a.toNat)
    (hb : s.mfg.revoked &&& b = s.mfg.revoked) (h : Keeps s0 s) :
    Keeps s0 { s with mfg := { s.mfg with fused := a, revoked := b } } :=
  h.trans ⟨rfl, rfl, rfl, ha, hb, fun k => ⟨k.1, k.2, k.3, k.4, k.5, k.6, k.7, k.8⟩⟩
/-- A change of the recorder that keeps it in order. -/
theorem State.modHyk_keep {s : State} {f : Hyk → Hyk} (hf : s.hyk.sound → (f s.hyk).sound) (h : Keeps s0 s) :
    Keeps s0 (s.modHyk f) :=
  ⟨h.queue, h.variant, h.serial, h.fused, h.revoked, fun k => ⟨(h.sound k).1, (h.sound k).2, (h.sound k).3, (h.sound k).4, (h.sound k).5, (h.sound k).6, (h.sound k).7, hf (h.sound k).8⟩⟩
/-- A change of the memories that keeps their canonical form. -/
theorem State.modMem_keep {s : State} {f : Mem → Mem} (hf : s.mem.sound → (f s.mem).sound) (h : Keeps s0 s) :
    Keeps s0 (s.modMem f) :=
  ⟨h.queue, h.variant, h.serial, h.fused, h.revoked, fun k => ⟨hf (h.sound k).1, (h.sound k).2, (h.sound k).3, (h.sound k).4, (h.sound k).5, (h.sound k).6, (h.sound k).7, (h.sound k).8⟩⟩
theorem State.modRings_keep {s : State} {f : Tbl Ring → Tbl Ring} (hf : Tbl.wf Ring.reset s.rings = true → Tbl.wf Ring.reset (f s.rings) = true)
    (h : Keeps s0 s) : Keeps s0 (s.modRings f) :=
  ⟨h.queue, h.variant, h.serial, h.fused, h.revoked, fun k => ⟨(h.sound k).1, hf (h.sound k).2, (h.sound k).3, (h.sound k).4, (h.sound k).5, (h.sound k).6, (h.sound k).7, (h.sound k).8⟩⟩
theorem State.modTasks_keep {s : State} {f : Tbl Task → Tbl Task}
    (hf : Tbl.wf (fun _ => Task.reset) s.tasks = true → Tbl.wf (fun _ => Task.reset) (f s.tasks) = true)
    (h : Keeps s0 s) : Keeps s0 (s.modTasks f) :=
  ⟨h.queue, h.variant, h.serial, h.fused, h.revoked, fun k => ⟨(h.sound k).1, (h.sound k).2, hf (h.sound k).3, (h.sound k).4, (h.sound k).5, (h.sound k).6, (h.sound k).7, (h.sound k).8⟩⟩
theorem State.modRing_keep {s : State} {n : Nat} {f : Ring → Ring} (h : Keeps s0 s) : Keeps s0 (s.modRing n f) :=
  State.modRings_keep (f := fun t => Tbl.upd Ring.reset t n f) (fun k => Tbl.wf_upd _ _ _ _ k) h
theorem State.modTask_keep {s : State} {n : Nat} {f : Task → Task} (h : Keeps s0 s) : Keeps s0 (s.modTask n f) :=
  State.modTasks_keep (f := fun t => Tbl.upd (fun _ => Task.reset) t n f) (fun k => Tbl.wf_upd _ _ _ _ k) h
/-- A change of Field Link that keeps its tables' canonical form. -/
theorem State.modFld_keep {s : State} {f : Fld → Fld}
    (h1 : Tbl.wf (fun _ => Channel.reset) s.fld.chans = true → Tbl.wf (fun _ => Channel.reset) (f s.fld).chans = true)
    (h2 : Tbl.wf (fun _ => Cell.reset) s.fld.cells = true → Tbl.wf (fun _ => Cell.reset) (f s.fld).cells = true)
    (h3 : Tbl.wf (fun _ => DualPair.reset) s.fld.pairs = true → Tbl.wf (fun _ => DualPair.reset) (f s.fld).pairs = true)
    (h4 : Tbl.wf (fun _ => Group.reset) s.fld.groups = true → Tbl.wf (fun _ => Group.reset) (f s.fld).groups = true)
    (h : Keeps s0 s) : Keeps s0 (s.modFld f) :=
  ⟨h.queue, h.variant, h.serial, h.fused, h.revoked, fun k => ⟨(h.sound k).1, (h.sound k).2, (h.sound k).3, h1 (h.sound k).4, h2 (h.sound k).5, h3 (h.sound k).6, h4 (h.sound k).7, (h.sound k).8⟩⟩
theorem State.modChan_keep {s : State} {n : Nat} {f : Channel → Channel} (h : Keeps s0 s) : Keeps s0 (s.modChan n f) :=
  State.modFld_keep (fun k => Tbl.wf_upd _ _ _ _ k) id id id h
theorem State.modCell_keep {s : State} {n : Nat} {f : Cell → Cell} (h : Keeps s0 s) : Keeps s0 (s.modCell n f) :=
  State.modFld_keep id (fun k => Tbl.wf_upd _ _ _ _ k) id id h
theorem State.modDual_keep {s : State} {n : Nat} {f : DualPair → DualPair} (h : Keeps s0 s) : Keeps s0 (s.modDual n f) :=
  State.modFld_keep id id (fun k => Tbl.wf_upd _ _ _ _ k) id h
theorem State.modGroup_keep {s : State} {n : Nat} {f : Group → Group} (h : Keeps s0 s) : Keeps s0 (s.modGroup n f) :=
  State.modFld_keep id id id (fun k => Tbl.wf_upd _ _ _ _ k) h
theorem State.modNet_keep {s : State} {n : Net} {f : HlNet → HlNet} (h : Keeps s0 s) : Keeps s0 (s.modNet n f) := by
  cases n
  · exact State.modHl1_keep h
  · exact State.modHl2_keep h
theorem State.modCtx_keep {s : State} {n : Nat} {f : Ctx → Ctx} (h : Keeps s0 s) : Keeps s0 (s.modCtx n f) := State.modStl_keep h
theorem State.modSem_keep {s : State} {n : Nat} {f : Sem → Sem} (h : Keeps s0 s) : Keeps s0 (s.modSem n f) := State.modStl_keep h
theorem State.modPort_keep {s : State} {n : Nat} {f : StlPort → StlPort} (h : Keeps s0 s) : Keeps s0 (s.modPort n f) := State.modStl_keep h
theorem State.modStation_keep {s : State} {n : Net} {a : Nat} {f : Station → Station} (h : Keeps s0 s) :
    Keeps s0 (s.modStation n a f) := State.modSwd_keep h

/-! ## The recorder -/

theorem Hyk.next_in (h : Hyk) : (BitVec.ofNat 15 ((h.genNext.toNat + 1) % 28672)).toNat < 28672 := by
  have : (h.genNext.toNat + 1) % 28672 < 28672 := Nat.mod_lt _ (by decide)
  simp only [BitVec.toNat_ofNat]; omega
theorem Hyk.skip_sound (h : Hyk) (saf : Bool) (k : Nat) (w : h.sound) : (h.skip saf k).sound := by
  obtain ⟨a, b, c, d⟩ := w
  unfold Hyk.skip
  cases saf
  · exact ⟨Tbl.wf_set (fun _ => none) h.general h.genNext.toNat (some (openEntry k)) a, b, Hyk.next_in h, d⟩
  · exact ⟨a, Tbl.wf_set (fun _ => none) h.safety h.safNext.toNat (some (openEntry k)) b, c, d⟩
theorem Hyk.skips_sound (saf : Bool) (n : Nat) (k : Nat) (h : Hyk) (w : h.sound) : (Hyk.skips saf n k h).sound := by
  induction n generalizing k h with
  | zero => exact w
  | succ n ih => exact ih _ _ (Hyk.skip_sound h saf k w)
theorem Hyk.put_sound (h : Hyk) (saf : Bool) (e : HykEntry) (w : h.sound) : (h.put saf e).sound := by
  obtain ⟨a, b, c, d⟩ := w
  unfold Hyk.put
  cases saf
  · simp only [Bool.false_eq_true, if_false]
    exact ⟨by dsimp only; exact Tbl.wf_set _ _ _ _ a, b, Hyk.next_in h, d⟩
  · simp only [if_true]
    exact ⟨a, by dsimp only; exact Tbl.wf_set _ _ _ _ b, c, d⟩
/-- The rate limit touches the buckets only. -/
theorem Hyk.limit_parts (h : Hyk) (code : BitVec 16) (sev : BitVec 4) (o : BitVec 48) :
    (h.limit code sev o).1 = { h with buckets := (h.limit code sev o).1.buckets, evictFail := (h.limit code sev o).1.evictFail } := by
  unfold Hyk.limit
  split
  · dsimp only; split <;> rfl
  · dsimp only; split
    · rfl
    · split <;> rfl
/-- An event that is counted as raised, then as written or as dropped. -/
theorem Hyk.counted_sound {h g : Hyk} (w : h.sound) (e1 : g.general = h.general) (e2 : g.safety = h.safety)
    (e3 : g.genNext = h.genNext) (e4 : g.raised = h.raised + 1) (e5 : g.written = h.written) (e6 : g.dropped = h.dropped) :
    Hyk.sound { g with dropped := g.dropped + 1 } ∧ Hyk.sound { g with written := g.written + 1 } := by
  obtain ⟨a, b, c, d⟩ := w
  refine ⟨⟨e1 ▸ a, e2 ▸ b, e3 ▸ c, ?_⟩, ⟨e1 ▸ a, e2 ▸ b, e3 ▸ c, ?_⟩⟩
  · show g.raised = g.written + (g.dropped + 1)
    rw [e4, e5, e6, d, BitVec.add_assoc]
  · show g.raised = g.written + 1 + g.dropped
    rw [e4, e5, e6, d, BitVec.add_assoc, BitVec.add_assoc, BitVec.add_comm h.dropped]
theorem State.offer_keep {s : State} {src : Byte} {code : BitVec 16} {sev : BitVec 4} {data : Bytes} {reexec : Bool}
    {bad : Nat} (h : Keeps s0 s) : Keeps s0 (s.offer src code sev data reexec bad).1 := by
  refine h.trans ?_
  unfold State.offer
  dsimp only
  generalize hq : (if limitedCode code = true then _ else _ : Hyk × Verdict) = p
  have hp : s.hyk.sound → Hyk.sound { p.1 with dropped := p.1.dropped + 1 } ∧ Hyk.sound { p.1 with written := p.1.written + 1 } := by
    intro w
    have e : p.1 = { s.hyk with raised := s.hyk.raised + 1, buckets := p.1.buckets, evictFail := p.1.evictFail } := by
      rw [← hq]
      split
      · conv => lhs; rw [Hyk.limit_parts]
      · rfl
    exact Hyk.counted_sound w (by rw [e]) (by rw [e]) (by rw [e]) (by rw [e]) (by rw [e]) (by rw [e])
  split
  · exact ⟨rfl, rfl, rfl, Nat.le_refl _, by simp, fun k => ⟨k.1, k.2, k.3, k.4, k.5, k.6, k.7, (hp k.8).1⟩⟩
  · exact ⟨rfl, rfl, rfl, Nat.le_refl _, by simp, fun k =>
      ⟨k.1, k.2, k.3, k.4, k.5, k.6, k.7, Hyk.put_sound _ _ _ (Hyk.skips_sound _ _ _ _ (hp k.8).2)⟩⟩
/-! ## Shared SRAM -/

theorem Mem.sramWrite_sound (m : Mem) (now : Nat) (p : SramPort) (w : Nat) (k d : Quad) (h : m.sound) :
    (m.sramWrite now p w k d).sound := by
  have key : ∀ (v : Quad) (b : Option (Nat × Nat × Quad × Quad)),
      Mem.sound { m with sram := Tbl.set (fun _ => 0) m.sram w v, bankCycle := b } := fun v b =>
    ⟨h.1, h.2.1, Tbl.wf_set _ _ _ _ h.2.2.1, h.2.2.2⟩
  unfold Mem.sramWrite; dsimp only
  cases p <;> exact key _ _
theorem Mem.copy_sound (m : Mem) (h : m.sound) : m.copy.sound :=
  ⟨h.1, h.2.1, h.2.2.1, fun r w e => by cases e; exact ⟨h.1, h.2.2.1⟩⟩
theorem Mem.restore_sound (m : Mem) (h : m.sound) : m.restore.sound := by
  unfold Mem.restore
  split
  · exact h
  · rename_i r w e
    exact ⟨(h.2.2.2 r w e).1, h.2.1, (h.2.2.2 r w e).2, fun _ _ e => by simp at e⟩

theorem State.msix_keep {s : State} {v : Nat} (hk : Keeps s0 s) : Keeps s0 (State.msix s v) := by
  refine hk.trans ?_
  clear hk
  unfold State.msix
  with_reducible repeat' (first | exact Keeps.refl _ | apply ite_keep | apply State.modHost_keep | apply State.emit_keep | split | intro _ | dsimp only)
theorem State.setEvent_keep {s : State} {k : Nat} (hk : Keeps s0 s) : Keeps s0 (State.setEvent s k) := by
  refine hk.trans ?_
  clear hk
  unfold State.setEvent
  with_reducible repeat' (first | exact Keeps.refl _ | apply ite_keep | apply State.modSys_keep | apply State.event_keep | apply State.msix_keep | split | intro _ | dsimp only)
theorem State.reevents_keep {s : State} (hk : Keeps s0 s) : Keeps s0 (State.reevents s) := by
  refine hk.trans ?_
  clear hk
  unfold State.reevents
  with_reducible repeat' (first | exact Keeps.refl _ | apply ite_keep | apply State.msix_keep | split | dsimp only)
theorem State.raise_keep {s : State} {src : Byte} {code : BitVec 16} {sev : BitVec 4} {data : Bytes} (hk : Keeps s0 s) : Keeps s0 (State.raise s src code sev data) := by
  refine hk.trans ?_
  clear hk
  unfold State.raise
  with_reducible exact State.offer_keep (Keeps.refl _)
theorem State.raiseMode_keep {s : State} {before after : Mode} {sub : BitVec 4} {trigger : Nat} (hk : Keeps s0 s) : Keeps s0 (State.raiseMode s before after sub trigger) := by
  refine hk.trans ?_
  clear hk
  unfold State.raiseMode
  with_reducible exact State.raise_keep (Keeps.refl _)
theorem State.fuseMark_keep {s : State} (hk : Keeps s0 s) : Keeps s0 (State.fuseMark s) := by
  refine hk.trans ?_
  clear hk
  unfold State.fuseMark
  with_reducible repeat' (first | exact Keeps.refl _ | apply ite_keep | apply State.modUpd_keep | split | intro _ | dsimp only)
theorem State.setMode_keep {s : State} {m : Mode} {sub : BitVec 4} {trigger : Nat} (hk : Keeps s0 s) : Keeps s0 (State.setMode s m sub trigger) := by
  refine hk.trans ?_
  clear hk
  unfold State.setMode
  with_reducible repeat' (first | exact Keeps.refl _ | apply ite_keep | apply State.modUpd_keep | apply State.modTri_keep | apply State.modSys_keep | apply State.raiseMode_keep | apply State.setEvent_keep | apply State.fuseMark_keep | split | intro _ | dsimp only)
theorem State.firewallRefused_keep {s : State} {access : Byte} {addr : Quad} (hk : Keeps s0 s) : Keeps s0 (State.firewallRefused s access addr) := by
  refine hk.trans ?_
  clear hk
  unfold State.firewallRefused
  with_reducible exact State.raise_keep (Keeps.refl _)
theorem State.sendItem_keep {s : State} {kind : Byte} {b : Bytes} (hk : Keeps s0 s) : Keeps s0 (State.sendItem s kind b) := by
  refine hk.trans ?_
  clear hk
  unfold State.sendItem
  with_reducible repeat' (first | exact Keeps.refl _ | apply ite_keep | apply State.emit_keep | split | dsimp only)
theorem State.sendState_keep {s : State} {it : MirrorItem} (hk : Keeps s0 s) : Keeps s0 (State.sendState s it) := by
  refine hk.trans ?_
  clear hk
  unfold State.sendState
  with_reducible repeat' (first | exact Keeps.refl _ | apply ite_keep | apply State.emit_keep | split | dsimp only)
theorem State.iff_keep {s : State} {c : Bool} {f : State → State} (hf : ∀ u, Keeps s u → Keeps s (f u)) (hk : Keeps s0 s) : Keeps s0 (State.iff s c f) := by
  refine hk.trans ?_
  clear hk
  unfold State.iff
  split
  · exact hf s (Keeps.refl s)
  · exact Keeps.refl s
theorem State.modLane_keep {s : State} {l : Nat} {f : Lane → Lane} (hk : Keeps s0 s) : Keeps s0 (State.modLane s l f) := by
  refine hk.trans ?_
  clear hk
  unfold State.modLane
  with_reducible repeat' (first | exact Keeps.refl _ | apply ite_keep | apply State.modTri_keep | split | intro _ | dsimp only)
theorem State.modLanes_keep {s : State} {p : Lane → Bool} {f : Lane → Lane} (hk : Keeps s0 s) : Keeps s0 (State.modLanes s p f) := by
  refine hk.trans ?_
  clear hk
  unfold State.modLanes
  with_reducible repeat' (first | exact Keeps.refl _ | apply ite_keep | apply State.modTri_keep | split | intro _ | dsimp only)
theorem State.loadLanes_keep {s : State} (hk : Keeps s0 s) : Keeps s0 (State.loadLanes s) := by
  refine hk.trans ?_
  clear hk
  unfold State.loadLanes
  with_reducible repeat' (first | exact Keeps.refl _ | apply State.modLanes_keep | apply State.bump_keep | intro _ | dsimp only)
theorem State.writeConsts_keep {s : State} (hk : Keeps s0 s) : Keeps s0 (State.writeConsts s) := by
  refine hk.trans ?_
  clear hk
  unfold State.writeConsts
  with_reducible repeat' (first | exact Keeps.refl _ | apply State.modLanes_keep | apply State.bump_keep | intro _ | dsimp only)
theorem State.storeVars_keep {s : State} {all : Bool} (hk : Keeps s0 s) : Keeps s0 (State.storeVars s all) := by
  refine hk.trans ?_
  clear hk
  unfold State.storeVars
  with_reducible repeat' (first | exact Keeps.refl _ | apply State.modLanes_keep | intro _ | dsimp only)
theorem State.sendLanes_keep {s : State} (hk : Keeps s0 s) : Keeps s0 (State.sendLanes s) := by
  refine hk.trans ?_
  clear hk
  unfold State.sendLanes
  with_reducible repeat' (first | exact Keeps.refl _ | apply State.sendState_keep | intro _ | dsimp only)
theorem State.laneState_keep {s : State} {l : Nat} {st : LaneState} (hk : Keeps s0 s) : Keeps s0 (State.laneState s l st) := by
  refine hk.trans ?_
  clear hk
  unfold State.laneState
  with_reducible repeat' (first | exact Keeps.refl _ | apply ite_keep | apply State.modLane_keep | apply State.sendLanes_keep | apply State.raise_keep | split | intro _ | dsimp only)
theorem State.lanesAtStart_keep {s : State} (hk : Keeps s0 s) : Keeps s0 (State.lanesAtStart s) := by
  refine hk.trans ?_
  clear hk
  unfold State.lanesAtStart
  with_reducible repeat' (first | exact Keeps.refl _ | apply ite_keep | refine foldl_keep (fun _ _ => ?_) ?_ | apply State.laneState_keep | apply State.modLane_keep | split | intro _ | dsimp only)
theorem State.repairRecord_keep {s : State} {stage : Nat} (hk : Keeps s0 s) : Keeps s0 (State.repairRecord s stage) := by
  refine hk.trans ?_
  clear hk
  unfold State.repairRecord
  with_reducible repeat' (first | exact Keeps.refl _ | apply ite_keep | apply State.sendState_keep | apply State.raise_keep | apply State.stage_keep | split | dsimp only)
theorem State.repairStart_keep {s : State} {l span : Nat} (hk : Keeps s0 s) : Keeps s0 (State.repairStart s l span) := by
  refine hk.trans ?_
  clear hk
  unfold State.repairStart
  with_reducible repeat' (first | exact Keeps.refl _ | apply ite_keep | apply State.modTri_keep | apply State.repairRecord_keep | split | intro _ | dsimp only)
theorem State.repairStop_keep {s : State} (hk : Keeps s0 s) : Keeps s0 (State.repairStop s) := by
  refine hk.trans ?_
  clear hk
  unfold State.repairStop
  with_reducible repeat' (first | exact Keeps.refl _ | apply ite_keep | apply State.repairRecord_keep | apply State.modTri_keep | split | intro _ | dsimp only)
theorem State.raisePairState_keep {s : State} {before after : Nat} {kind : BitVec 4} {lane : Byte} {sev : BitVec 4} (hk : Keeps s0 s) : Keeps s0 (State.raisePairState s before after kind lane sev) := by
  refine hk.trans ?_
  clear hk
  unfold State.raisePairState
  with_reducible repeat' (first | exact Keeps.refl _ | apply State.sendLanes_keep | apply State.raise_keep | dsimp only)
theorem State.modExclusions_keep {s : State} {l : Nat} {f : List Nat → List Nat} (hk : Keeps s0 s) : Keeps s0 (State.modExclusions s l f) := by
  refine hk.trans ?_
  clear hk
  unfold State.modExclusions
  with_reducible repeat' (first | exact Keeps.refl _ | apply ite_keep | apply State.modCpr_keep | split | intro _ | dsimp only)
theorem State.signal_keep {s : State} {n : Nat} (hk : Keeps s0 s) : Keeps s0 (State.signal s n) := by
  refine hk.trans ?_
  clear hk
  unfold State.signal
  with_reducible repeat' (first | exact Keeps.refl _ | apply ite_keep | apply State.msix_keep | apply State.emit_keep | split | dsimp only)
theorem State.irqEdge_keep {s : State} {n : Nat} {before : Bool} (hk : Keeps s0 s) : Keeps s0 (State.irqEdge s n before) := by
  refine hk.trans ?_
  clear hk
  unfold State.irqEdge
  with_reducible repeat' (first | exact Keeps.refl _ | apply ite_keep | apply State.signal_keep | split | dsimp only)
theorem State.placeRecord_keep {s : State} {n : Nat} {rec : Bytes} {counts : Bool} (hk : Keeps s0 s) : Keeps s0 (State.placeRecord s n rec counts) := by
  refine hk.trans ?_
  clear hk
  unfold State.placeRecord; try dsimp only
  repeat' (first | with_reducible assumption | with_reducible exact Keeps.refl _ | with_reducible apply ite_keep | with_reducible refine foldl_keep (fun _ _ => ?_) ?_ | with_reducible apply State.modMem_keep | with_reducible apply State.store_keep | with_reducible apply State.modRing_keep | with_reducible apply State.undelivered_keep | with_reducible apply State.irqEdge_keep | (intro k; (try dsimp only); (first | with_reducible exact k | with_reducible exact Tbl.wf_updAll _ _ _ _ k | with_reducible exact Tbl.wf_upd _ _ _ _ k | with_reducible exact Tbl.wf_store _ _ _ k | exact ⟨k.1, k.2.1, k.2.2.1, k.2.2.2⟩ | exact ⟨Tbl.wf_store _ _ _ k.1, k.2.1, k.2.2.1, k.2.2.2⟩ | exact ⟨k.1, Tbl.wf_store _ _ _ k.2.1, k.2.2.1, k.2.2.2⟩ | exact ⟨k.1, rfl, k.2.2.1, k.2.2.2⟩ | exact ⟨rfl, k.2.1, rfl, k.2.2.2⟩ | exact ⟨rfl, k.2.1, k.2.2.1, k.2.2.2⟩ | exact ⟨k.1, k.2.1, k.2.2.1, rfl⟩ | rfl)) | split | intro _ | dsimp only)
theorem State.drainRecords_keep {n : Nat} {l : List (Bytes × Bool × Bool)} {s : State} (hk : Keeps s0 s) :
    Keeps s0 (State.drainRecords n l s) := by
  refine hk.trans ?_
  clear hk
  induction l generalizing s with
  | nil => exact State.modRing_keep (Keeps.refl _)
  | cons x l ih =>
    obtain ⟨b, c, last⟩ := x
    unfold State.drainRecords; dsimp only
    split
    · exact State.modRing_keep (Keeps.refl _)
    · refine Keeps.trans ?_ ih
      split
      · exact State.modRing_keep (State.placeRecord_keep (Keeps.refl _))
      · exact State.placeRecord_keep (Keeps.refl _)
theorem State.putRecord_keep {s : State} {n : Nat} {rec : Bytes} {counts : Bool} (hk : Keeps s0 s) : Keeps s0 (State.putRecord s n rec counts) := by
  refine hk.trans ?_
  clear hk
  unfold State.putRecord
  with_reducible repeat' (first | exact Keeps.refl _ | apply ite_keep | apply State.placeRecord_keep | apply State.modRing_keep | split | intro _ | dsimp only)
theorem State.putAccepted_keep {s : State} {e : JEntry} {replayed : Bool} (hk : Keeps s0 s) : Keeps s0 (State.putAccepted s e replayed) := by
  refine hk.trans ?_
  clear hk
  unfold State.putAccepted
  with_reducible exact State.putRecord_keep (Keeps.refl _)
theorem State.modEntry_keep {s : State} {h : Quad} {f : JEntry → JEntry} (hk : Keeps s0 s) : Keeps s0 (State.modEntry s h f) := by
  refine hk.trans ?_
  clear hk
  unfold State.modEntry
  with_reducible repeat' (first | exact Keeps.refl _ | apply ite_keep | apply State.modJournal_keep | split | intro _ | dsimp only)
theorem State.putDone_keep {s : State} {e : JEntry} {replayed : Bool} (hk : Keeps s0 s) : Keeps s0 (State.putDone s e replayed) := by
  refine hk.trans ?_
  clear hk
  unfold State.putDone
  with_reducible repeat' (first | exact Keeps.refl _ | apply State.putRecord_keep | apply State.modEntry_keep | intro _ | dsimp only)
theorem State.flush_keep {s : State} {n : Nat} (hk : Keeps s0 s) : Keeps s0 (State.flush s n) := by
  refine hk.trans ?_
  clear hk
  unfold State.flush
  with_reducible repeat' (first | exact Keeps.refl _ | refine foldl_keep (fun _ _ => ?_) ?_ | apply State.putDone_keep | intro _ | dsimp only)
theorem State.complete_keep {s : State} {h : Quad} {status : BitVec 16} {result : Bytes} {extended : Bool} (hk : Keeps s0 s) : Keeps s0 (State.complete s h status result extended) := by
  refine hk.trans ?_
  clear hk
  unfold State.complete
  with_reducible repeat' (first | exact Keeps.refl _ | apply ite_keep | apply State.modEntry_keep | apply State.putDone_keep | apply State.flush_keep | split | intro _ | dsimp only)
theorem State.commitOnly_keep {s : State} {h : Quad} {result : Bytes} (hk : Keeps s0 s) : Keeps s0 (State.commitOnly s h result) := by
  refine hk.trans ?_
  clear hk
  unfold State.commitOnly
  with_reducible repeat' (first | exact Keeps.refl _ | apply State.modEntry_keep | intro _ | dsimp only)
theorem State.fail_keep {s : State} {h : Quad} {status : BitVec 16} {detail : Nat} (hk : Keeps s0 s) : Keeps s0 (State.fail s h status detail) := by
  refine hk.trans ?_
  clear hk
  unfold State.fail
  with_reducible exact State.complete_keep (Keeps.refl _)
theorem State.refuse_keep {s : State} {h : Quad} {detail : Nat} (hk : Keeps s0 s) : Keeps s0 (State.refuse s h detail) := by
  refine hk.trans ?_
  clear hk
  unfold State.refuse
  with_reducible exact State.fail_keep (Keeps.refl _)
theorem State.begin_keep {s : State} {h : Quad} {op : BitVec 16} {v1 : Bool} {f : JEntry → State} (hf : ∀ e, Keeps s (f e)) (hk : Keeps s0 s) : Keeps s0 (State.begin s h op v1 f) := by
  refine hk.trans ?_
  clear hk
  unfold State.begin
  split
  · exact Keeps.refl s
  · split
    · split
      · exact Keeps.refl s
      · split
        · exact hf _
        · exact State.fail_keep (Keeps.refl s)
    · exact Keeps.refl s
theorem State.executing_keep {s : State} {h : Quad} (hk : Keeps s0 s) : Keeps s0 (State.executing s h) := by
  refine hk.trans ?_
  clear hk
  unfold State.executing
  with_reducible repeat' (first | exact Keeps.refl _ | apply State.modEntry_keep | intro _ | dsimp only)
theorem State.output_keep {s : State} {ring : Nat} {desc : Bytes} {b : Bytes} (hk : Keeps s0 s) : Keeps s0 (State.output s ring desc b) := by
  refine hk.trans ?_
  clear hk
  unfold State.output; try dsimp only
  repeat' (first | with_reducible assumption | with_reducible exact Keeps.refl _ | with_reducible apply ite_keep | with_reducible refine foldl_keep (fun _ _ => ?_) ?_ | with_reducible apply State.modMem_keep | with_reducible apply State.store_keep | with_reducible apply State.emit_keep | (intro k; (try dsimp only); (first | with_reducible exact k | with_reducible exact Tbl.wf_updAll _ _ _ _ k | with_reducible exact Tbl.wf_upd _ _ _ _ k | with_reducible exact Tbl.wf_store _ _ _ k | exact ⟨k.1, k.2.1, k.2.2.1, k.2.2.2⟩ | exact ⟨Tbl.wf_store _ _ _ k.1, k.2.1, k.2.2.1, k.2.2.2⟩ | exact ⟨k.1, Tbl.wf_store _ _ _ k.2.1, k.2.2.1, k.2.2.2⟩ | exact ⟨k.1, rfl, k.2.2.1, k.2.2.2⟩ | exact ⟨rfl, k.2.1, rfl, k.2.2.2⟩ | exact ⟨rfl, k.2.1, k.2.2.1, k.2.2.2⟩ | exact ⟨k.1, k.2.1, k.2.2.1, rfl⟩ | rfl)) | split | intro _ | dsimp only)
theorem State.modChans_keep {s : State} {f : Nat → Channel → Channel} (hk : Keeps s0 s) : Keeps s0 (State.modChans s f) := by
  refine hk.trans ?_
  clear hk
  unfold State.modChans; try dsimp only
  repeat' (first | with_reducible assumption | with_reducible exact Keeps.refl _ | with_reducible apply ite_keep | with_reducible refine foldl_keep (fun _ _ => ?_) ?_ | with_reducible apply State.modFld_keep | (intro k; (try dsimp only); (first | with_reducible exact k | with_reducible exact Tbl.wf_updAll _ _ _ _ k | with_reducible exact Tbl.wf_upd _ _ _ _ k | with_reducible exact Tbl.wf_store _ _ _ k | exact ⟨k.1, k.2.1, k.2.2.1, k.2.2.2⟩ | exact ⟨Tbl.wf_store _ _ _ k.1, k.2.1, k.2.2.1, k.2.2.2⟩ | exact ⟨k.1, Tbl.wf_store _ _ _ k.2.1, k.2.2.1, k.2.2.2⟩ | exact ⟨k.1, rfl, k.2.2.1, k.2.2.2⟩ | exact ⟨rfl, k.2.1, rfl, k.2.2.2⟩ | exact ⟨rfl, k.2.1, k.2.2.1, k.2.2.2⟩ | exact ⟨k.1, k.2.1, k.2.2.1, rfl⟩ | rfl)) | split | intro _ | dsimp only)
theorem State.applyChannels_keep {s : State} (hk : Keeps s0 s) : Keeps s0 (State.applyChannels s) := by
  refine hk.trans ?_
  clear hk
  unfold State.applyChannels; try dsimp only
  repeat' (first | with_reducible assumption | with_reducible exact Keeps.refl _ | with_reducible apply ite_keep | with_reducible refine foldl_keep (fun _ _ => ?_) ?_ | with_reducible apply State.modChans_keep | with_reducible apply State.modFld_keep | (intro k; (try dsimp only); (first | with_reducible exact k | with_reducible exact Tbl.wf_updAll _ _ _ _ k | with_reducible exact Tbl.wf_upd _ _ _ _ k | with_reducible exact Tbl.wf_store _ _ _ k | exact ⟨k.1, k.2.1, k.2.2.1, k.2.2.2⟩ | exact ⟨Tbl.wf_store _ _ _ k.1, k.2.1, k.2.2.1, k.2.2.2⟩ | exact ⟨k.1, Tbl.wf_store _ _ _ k.2.1, k.2.2.1, k.2.2.2⟩ | exact ⟨k.1, rfl, k.2.2.1, k.2.2.2⟩ | exact ⟨rfl, k.2.1, rfl, k.2.2.2⟩ | exact ⟨rfl, k.2.1, k.2.2.1, k.2.2.2⟩ | exact ⟨k.1, k.2.1, k.2.2.1, rfl⟩ | rfl)) | split | intro _ | dsimp only)
theorem State.changeDone_keep {s : State} (hk : Keeps s0 s) : Keeps s0 (State.changeDone s) := by
  refine hk.trans ?_
  clear hk
  unfold State.changeDone
  with_reducible repeat' (first | exact Keeps.refl _ | apply ite_keep | apply State.modSaf_keep | apply State.complete_keep | split | intro _ | dsimp only)
theorem State.raisePair_keep {s : State} {p : Nat} {a b : PairState} {timer : BitVec 16} (hk : Keeps s0 s) : Keeps s0 (State.raisePair s p a b timer) := by
  refine hk.trans ?_
  clear hk
  unfold State.raisePair
  with_reducible repeat' (first | exact Keeps.refl _ | apply ite_keep | apply State.raise_keep | apply State.fault_keep | split | dsimp only)
theorem State.pairTick_keep {s : State} {p : Nat} (hk : Keeps s0 s) : Keeps s0 (State.pairTick s p) := by
  refine hk.trans ?_
  clear hk
  unfold State.pairTick
  with_reducible repeat' (first | exact Keeps.refl _ | apply ite_keep | apply State.modDual_keep | apply State.raisePair_keep | split | intro _ | dsimp only)
theorem State.latestLocal_keep {s : State} {g : Nat} (hk : Keeps s0 s) : Keeps s0 (State.latestLocal s g) := by
  refine hk.trans ?_
  clear hk
  unfold State.latestLocal
  with_reducible repeat' (first | exact Keeps.refl _ | apply State.modSwd_keep | split | intro _ | dsimp only)
theorem State.slotEnd_keep {s : State} {j : Nat} (hk : Keeps s0 s) : Keeps s0 (State.slotEnd s j) := by
  refine hk.trans ?_
  clear hk
  unfold State.slotEnd
  with_reducible repeat' (first | exact Keeps.refl _ | apply ite_keep | refine foldl_keep (fun _ _ => ?_) ?_ | apply State.modChan_keep | split | intro _ | dsimp only)
theorem State.ackChan_keep {s : State} {c : Nat} (hk : Keeps s0 s) : Keeps s0 (State.ackChan s c) := by
  refine hk.trans ?_
  clear hk
  unfold State.ackChan; try dsimp only
  repeat' (first | with_reducible assumption | with_reducible exact Keeps.refl _ | with_reducible apply ite_keep | with_reducible refine foldl_keep (fun _ _ => ?_) ?_ | with_reducible apply State.ackTest_keep | with_reducible apply State.modChan_keep | with_reducible apply State.modFld_keep | (intro k; (try dsimp only); (first | with_reducible exact k | with_reducible exact Tbl.wf_updAll _ _ _ _ k | with_reducible exact Tbl.wf_upd _ _ _ _ k | with_reducible exact Tbl.wf_store _ _ _ k | exact ⟨k.1, k.2.1, k.2.2.1, k.2.2.2⟩ | exact ⟨Tbl.wf_store _ _ _ k.1, k.2.1, k.2.2.1, k.2.2.2⟩ | exact ⟨k.1, Tbl.wf_store _ _ _ k.2.1, k.2.2.1, k.2.2.2⟩ | exact ⟨k.1, rfl, k.2.2.1, k.2.2.2⟩ | exact ⟨rfl, k.2.1, rfl, k.2.2.2⟩ | exact ⟨rfl, k.2.1, k.2.2.1, k.2.2.2⟩ | exact ⟨k.1, k.2.1, k.2.2.1, rfl⟩ | rfl)) | split | intro _ | dsimp only)
theorem State.ackDone_keep {s : State} (hk : Keeps s0 s) : Keeps s0 (State.ackDone s) := by
  refine hk.trans ?_
  clear hk
  unfold State.ackDone; try dsimp only
  repeat' (first | with_reducible assumption | with_reducible exact Keeps.refl _ | with_reducible apply ite_keep | with_reducible refine foldl_keep (fun _ _ => ?_) ?_ | with_reducible apply State.ackTest_keep | with_reducible apply State.modFld_keep | with_reducible apply State.complete_keep | with_reducible apply State.fail_keep | (intro k; (try dsimp only); (first | with_reducible exact k | with_reducible exact Tbl.wf_updAll _ _ _ _ k | with_reducible exact Tbl.wf_upd _ _ _ _ k | with_reducible exact Tbl.wf_store _ _ _ k | exact ⟨k.1, k.2.1, k.2.2.1, k.2.2.2⟩ | exact ⟨Tbl.wf_store _ _ _ k.1, k.2.1, k.2.2.1, k.2.2.2⟩ | exact ⟨k.1, Tbl.wf_store _ _ _ k.2.1, k.2.2.1, k.2.2.2⟩ | exact ⟨k.1, rfl, k.2.2.1, k.2.2.2⟩ | exact ⟨rfl, k.2.1, rfl, k.2.2.2⟩ | exact ⟨rfl, k.2.1, k.2.2.1, k.2.2.2⟩ | exact ⟨k.1, k.2.1, k.2.2.1, rfl⟩ | rfl)) | split | intro _ | dsimp only)
theorem State.tick_keep {s : State} (hk : Keeps s0 s) : Keeps s0 (State.tick s) := by
  refine hk.trans ?_
  clear hk
  unfold State.tick; try dsimp only
  repeat' (first | with_reducible assumption | with_reducible exact Keeps.refl _ | with_reducible apply ite_keep | with_reducible refine foldl_keep (fun _ _ => ?_) ?_ | with_reducible apply State.latestLocal_keep | with_reducible apply State.ackChan_keep | with_reducible apply State.slotEnd_keep | with_reducible apply State.ackDone_keep | with_reducible apply State.modFld_keep | with_reducible apply State.modChan_keep | with_reducible apply State.emit_keep | with_reducible apply State.idle_keep | (intro k; (try dsimp only); (first | with_reducible exact k | with_reducible exact Tbl.wf_updAll _ _ _ _ k | with_reducible exact Tbl.wf_upd _ _ _ _ k | with_reducible exact Tbl.wf_store _ _ _ k | exact ⟨k.1, k.2.1, k.2.2.1, k.2.2.2⟩ | exact ⟨Tbl.wf_store _ _ _ k.1, k.2.1, k.2.2.1, k.2.2.2⟩ | exact ⟨k.1, Tbl.wf_store _ _ _ k.2.1, k.2.2.1, k.2.2.2⟩ | exact ⟨k.1, rfl, k.2.2.1, k.2.2.2⟩ | exact ⟨rfl, k.2.1, rfl, k.2.2.2⟩ | exact ⟨rfl, k.2.1, k.2.2.1, k.2.2.2⟩ | exact ⟨k.1, k.2.1, k.2.2.1, rfl⟩ | rfl)) | split | intro _ | dsimp only)
theorem State.refixLocal_keep {s : State} (hk : Keeps s0 s) : Keeps s0 (State.refixLocal s) := by
  refine hk.trans ?_
  clear hk
  unfold State.refixLocal; dsimp only
  split
  · refine foldl_keep (fun t c => ?_) (Keeps.refl _)
    split
    · exact Keeps.refl _
    · exact State.withSent_keep (State.modChan_keep (Keeps.refl _))
  · exact Keeps.refl _
theorem State.lastFrames_keep {s : State} (hk : Keeps s0 s) : Keeps s0 (State.lastFrames s) := by
  refine hk.trans ?_
  clear hk
  unfold State.lastFrames; try dsimp only
  repeat' (first | with_reducible assumption | with_reducible exact Keeps.refl _ | with_reducible apply ite_keep | with_reducible refine foldl_keep (fun _ _ => ?_) ?_ | with_reducible apply State.emit_keep | with_reducible apply State.idle_keep | with_reducible apply State.modChans_keep | with_reducible apply State.modFld_keep | (intro k; (try dsimp only); (first | with_reducible exact k | with_reducible exact Tbl.wf_updAll _ _ _ _ k | with_reducible exact Tbl.wf_upd _ _ _ _ k | with_reducible exact Tbl.wf_store _ _ _ k | exact ⟨k.1, k.2.1, k.2.2.1, k.2.2.2⟩ | exact ⟨Tbl.wf_store _ _ _ k.1, k.2.1, k.2.2.1, k.2.2.2⟩ | exact ⟨k.1, Tbl.wf_store _ _ _ k.2.1, k.2.2.1, k.2.2.2⟩ | exact ⟨k.1, rfl, k.2.2.1, k.2.2.2⟩ | exact ⟨rfl, k.2.1, rfl, k.2.2.2⟩ | exact ⟨rfl, k.2.1, k.2.2.1, k.2.2.2⟩ | exact ⟨k.1, k.2.1, k.2.2.1, rfl⟩ | rfl)) | split | intro _ | dsimp only)
theorem State.startField_keep {s : State} (hk : Keeps s0 s) : Keeps s0 (State.startField s) := by
  refine hk.trans ?_
  clear hk
  unfold State.startField; try dsimp only
  repeat' (first | with_reducible assumption | with_reducible exact Keeps.refl _ | with_reducible apply ite_keep | with_reducible refine foldl_keep (fun _ _ => ?_) ?_ | with_reducible apply State.applyChannels_keep | with_reducible apply State.modChans_keep | with_reducible apply State.idle_keep | with_reducible apply State.ackTest_keep | with_reducible apply State.latch_keep | with_reducible apply State.modFld_keep | (intro k; (try dsimp only); (first | with_reducible exact k | with_reducible exact Tbl.wf_updAll _ _ _ _ k | with_reducible exact Tbl.wf_upd _ _ _ _ k | with_reducible exact Tbl.wf_store _ _ _ k | exact ⟨k.1, k.2.1, k.2.2.1, k.2.2.2⟩ | exact ⟨Tbl.wf_store _ _ _ k.1, k.2.1, k.2.2.1, k.2.2.2⟩ | exact ⟨k.1, Tbl.wf_store _ _ _ k.2.1, k.2.2.1, k.2.2.2⟩ | exact ⟨k.1, rfl, k.2.2.1, k.2.2.2⟩ | exact ⟨rfl, k.2.1, rfl, k.2.2.2⟩ | exact ⟨rfl, k.2.1, k.2.2.1, k.2.2.2⟩ | exact ⟨k.1, k.2.1, k.2.2.1, rfl⟩ | rfl)) | split | intro _ | dsimp only)
theorem State.holdAll_keep {s : State} (hk : Keeps s0 s) : Keeps s0 (State.holdAll s) := by
  refine hk.trans ?_
  clear hk
  unfold State.holdAll
  with_reducible repeat' (first | exact Keeps.refl _ | apply ite_keep | apply State.modChans_keep | apply State.latch_keep | split | intro _ | dsimp only)
theorem State.poolFor_keep {s : State} {segs : List Segment} (hk : Keeps s0 s) : Keeps s0 (State.poolFor s segs) := by
  refine hk.trans ?_
  clear hk
  unfold State.poolFor
  with_reducible repeat' (first | exact Keeps.refl _ | apply State.modSwd_keep | apply State.modPwr_keep | apply State.bump_keep | intro _ | dsimp only)
theorem State.refuseLoad_keep {s : State} {h : Quad} {d : Nat} (hk : Keeps s0 s) : Keeps s0 (State.refuseLoad s h d) := by
  refine hk.trans ?_
  clear hk
  unfold State.refuseLoad
  with_reducible repeat' (first | exact Keeps.refl _ | apply ite_keep | apply State.modSwd_keep | apply State.refuse_keep | split | intro _ | dsimp only)
theorem State.modIn_keep {s : State} {i : Nat} {f : InSeg → InSeg} (hk : Keeps s0 s) : Keeps s0 (State.modIn s i f) := by
  refine hk.trans ?_
  clear hk
  unfold State.modIn
  with_reducible repeat' (first | exact Keeps.refl _ | apply State.modSwd_keep | intro _ | dsimp only)
theorem State.substituteStation_keep {s : State} {n : Net} {a : Nat} (hk : Keeps s0 s) : Keeps s0 (State.substituteStation s n a) := by
  refine hk.trans ?_
  clear hk
  unfold State.substituteStation
  with_reducible repeat' (first | exact Keeps.refl _ | refine foldl_keep (fun _ _ => ?_) ?_ | apply State.modIn_keep | intro _ | dsimp only)
theorem State.reviveStation_keep {s : State} {n : Net} {a : Nat} (hk : Keeps s0 s) : Keeps s0 (State.reviveStation s n a) := by
  refine hk.trans ?_
  clear hk
  unfold State.reviveStation
  with_reducible repeat' (first | exact Keeps.refl _ | refine foldl_keep (fun _ _ => ?_) ?_ | apply State.modIn_keep | intro _ | dsimp only)
theorem State.event_keep {s : State} {t : Nat} {kind : BitVec 16} {net station : Byte} {data : Word} (hk : Keeps s0 s) : Keeps s0 (State.event s t kind net station data) := by
  refine hk.trans ?_
  clear hk
  unfold State.event
  with_reducible repeat' (first | exact Keeps.refl _ | apply ite_keep | apply State.modTask_keep | apply State.modTri_keep | split | intro _ | dsimp only)
theorem State.stationEvent_keep {s : State} {n : Net} {a : Nat} {kind : BitVec 16} (hk : Keeps s0 s) : Keeps s0 (State.stationEvent s n a kind) := by
  refine hk.trans ?_
  clear hk
  unfold State.stationEvent
  with_reducible repeat' (first | exact Keeps.refl _ | refine foldl_keep (fun _ _ => ?_) ?_ | apply State.event_keep | intro _ | dsimp only)
theorem State.prune_keep {s : State} (hk : Keeps s0 s) : Keeps s0 (State.prune s) := by
  refine hk.trans ?_
  clear hk
  unfold State.prune
  with_reducible repeat' (first | exact Keeps.refl _ | apply ite_keep | apply State.modSwd_keep | split | intro _ | dsimp only)
theorem State.fresh_keep {s : State} (hk : Keeps s0 s) : Keeps s0 (State.fresh s) := by
  refine hk.trans ?_
  clear hk
  unfold State.fresh
  with_reducible repeat' (first | exact Keeps.refl _ | apply ite_keep | apply State.modSwd_keep | split | intro _ | dsimp only)
theorem State.promote_keep {s : State} (hk : Keeps s0 s) : Keeps s0 (State.promote s).1 := by
  refine hk.trans ?_
  clear hk
  unfold State.promote
  with_reducible repeat' (first | exact Keeps.refl _ | apply ite_keep | apply State.fresh_keep | split | dsimp only)
theorem State.refreeze_keep {s : State} (hk : Keeps s0 s) : Keeps s0 (State.refreeze s) := by
  refine hk.trans ?_
  clear hk
  unfold State.refreeze
  with_reducible repeat' (first | exact Keeps.refl _ | apply ite_keep | apply State.modSwd_keep | split | intro _ | dsimp only)
theorem State.putOut_keep {s : State} {i : Nat} {send write : Bytes} (hk : Keeps s0 s) : Keeps s0 (State.putOut s i send write) := by
  refine hk.trans ?_
  clear hk
  unfold State.putOut
  with_reducible repeat' (first | exact Keeps.refl _ | apply State.modSwd_keep | intro _ | dsimp only)
theorem State.publishOwn_keep {s : State} {t : Nat} (hk : Keeps s0 s) : Keeps s0 (State.publishOwn s t) := by
  refine hk.trans ?_
  clear hk
  unfold State.publishOwn
  with_reducible repeat' (first | exact Keeps.refl _ | apply ite_keep | refine foldl_keep (fun _ _ => ?_) ?_ | apply State.putOut_keep | apply State.modSwd_keep | split | intro _ | dsimp only)
theorem State.stopOwn_keep {s : State} {t : Nat} (hk : Keeps s0 s) : Keeps s0 (State.stopOwn s t) := by
  refine hk.trans ?_
  clear hk
  unfold State.stopOwn
  with_reducible repeat' (first | exact Keeps.refl _ | apply ite_keep | refine foldl_keep (fun _ _ => ?_) ?_ | apply State.putOut_keep | split | intro _ | dsimp only)
theorem State.publishStops_keep {s : State} (hk : Keeps s0 s) : Keeps s0 (State.publishStops s) := by
  refine hk.trans ?_
  clear hk
  unfold State.publishStops
  with_reducible repeat' (first | exact Keeps.refl _ | refine foldl_keep (fun _ _ => ?_) ?_ | apply State.putOut_keep | intro _ | dsimp only)
theorem State.stopUnowned_keep {s : State} (hk : Keeps s0 s) : Keeps s0 (State.stopUnowned s) := by
  refine hk.trans ?_
  clear hk
  unfold State.stopUnowned
  with_reducible repeat' (first | exact Keeps.refl _ | apply ite_keep | refine foldl_keep (fun _ _ => ?_) ?_ | apply State.putOut_keep | split | intro _ | dsimp only)
theorem State.store_keep {s : State} {t : Nat} {ws : List (Nat × Byte)} (hk : Keeps s0 s) : Keeps s0 (State.store s t ws) := by
  refine hk.trans ?_
  clear hk
  unfold State.store
  with_reducible repeat' (first | exact Keeps.refl _ | apply ite_keep | refine foldl_keep (fun _ _ => ?_) ?_ | apply State.modSwd_keep | split | intro _ | dsimp only)
theorem State.restoreWriting_keep {s : State} {t : Nat} (hk : Keeps s0 s) : Keeps s0 (State.restoreWriting s t) := by
  refine hk.trans ?_
  clear hk
  unfold State.restoreWriting
  with_reducible repeat' (first | exact Keeps.refl _ | apply ite_keep | refine foldl_keep (fun _ _ => ?_) ?_ | apply State.modSwd_keep | split | intro _ | dsimp only)
theorem State.tellPublished_keep {s : State} {n : Net} {a : Nat} (hk : Keeps s0 s) : Keeps s0 (State.tellPublished s n a) := by
  refine hk.trans ?_
  clear hk
  unfold State.tellPublished
  with_reducible repeat' (first | exact Keeps.refl _ | apply ite_keep | refine foldl_keep (fun _ _ => ?_) ?_ | apply State.event_keep | apply State.modStation_keep | split | intro _ | dsimp only)
theorem State.undelivered_keep {s : State} {n : Net} {a : Nat} (hk : Keeps s0 s) : Keeps s0 (State.undelivered s n a) := by
  refine hk.trans ?_
  clear hk
  unfold State.undelivered
  with_reducible repeat' (first | exact Keeps.refl _ | apply ite_keep | apply State.modStation_keep | apply State.tellPublished_keep | split | intro _ | dsimp only)
theorem State.fixSegs_keep {s : State} {n : Net} (hk : Keeps s0 s) : Keeps s0 (State.fixSegs s n) := by
  refine hk.trans ?_
  clear hk
  unfold State.fixSegs
  with_reducible repeat' (first | exact Keeps.refl _ | apply ite_keep | refine foldl_keep (fun _ _ => ?_) ?_ | apply State.modSwd_keep | split | intro _ | dsimp only)
theorem State.fix_keep {s : State} {n : Net} (hk : Keeps s0 s) : Keeps s0 (State.fix s n) := by
  refine hk.trans ?_
  clear hk
  unfold State.fix
  with_reducible repeat' (first | exact Keeps.refl _ | refine foldl_keep (fun _ _ => ?_) ?_ | apply State.undelivered_keep | apply State.fixSegs_keep | intro _ | dsimp only)
theorem State.refix_keep {s : State} {n : Net} (hk : Keeps s0 s) : Keeps s0 (State.refix s n) := by
  refine hk.trans ?_
  clear hk
  unfold State.refix
  with_reducible repeat' (first | exact Keeps.refl _ | apply ite_keep | refine foldl_keep (fun _ _ => ?_) ?_ | apply State.tellPublished_keep | apply State.fixSegs_keep | split | intro _ | dsimp only)
theorem State.refixAll_keep {s : State} (hk : Keeps s0 s) : Keeps s0 (State.refixAll s) := by
  refine hk.trans ?_
  clear hk
  unfold State.refixAll
  with_reducible repeat' (first | exact Keeps.refl _ | apply State.refix_keep | apply State.refixLocal_keep | dsimp only)
theorem State.publish_keep {s : State} {t : Nat} (hk : Keeps s0 s) : Keeps s0 (State.publish s t) := by
  refine hk.trans ?_
  clear hk
  unfold State.publish
  with_reducible repeat' (first | exact Keeps.refl _ | apply State.publishOwn_keep | apply State.refixAll_keep | dsimp only)
theorem State.publishStop_keep {s : State} {t : Nat} (hk : Keeps s0 s) : Keeps s0 (State.publishStop s t) := by
  refine hk.trans ?_
  clear hk
  unfold State.publishStop
  with_reducible repeat' (first | exact Keeps.refl _ | apply State.stopOwn_keep | apply State.refixAll_keep | dsimp only)
theorem State.declare_keep {s : State} {n : Net} {a : Nat} (hk : Keeps s0 s) : Keeps s0 (State.declare s n a) := by
  refine hk.trans ?_
  clear hk
  unfold State.declare
  with_reducible repeat' (first | exact Keeps.refl _ | apply State.modStation_keep | apply State.undelivered_keep | apply State.substituteStation_keep | apply State.stationEvent_keep | intro _ | dsimp only)
theorem State.missedNow_keep {s : State} {n : Net} {a i : Nat} (hk : Keeps s0 s) : Keeps s0 (State.missedNow s n a i) := by
  refine hk.trans ?_
  clear hk
  unfold State.missedNow
  with_reducible repeat' (first | exact Keeps.refl _ | apply ite_keep | apply State.modIn_keep | apply State.modStation_keep | apply State.missed_keep | apply State.declare_keep | split | intro _ | dsimp only)
theorem State.missed_keep {s : State} {n : Net} {a i : Nat} (hk : Keeps s0 s) : Keeps s0 (State.missed s n a i) := by
  refine hk.trans ?_
  clear hk
  unfold State.missed
  with_reducible repeat' (first | exact Keeps.refl _ | apply State.missedNow_keep | apply State.refreeze_keep | dsimp only)
theorem State.stationGood_keep {s : State} {n : Net} {a : Nat} (hk : Keeps s0 s) : Keeps s0 (State.stationGood s n a) := by
  refine hk.trans ?_
  clear hk
  unfold State.stationGood
  with_reducible repeat' (first | exact Keeps.refl _ | apply ite_keep | apply State.modStation_keep | apply State.missed_keep | apply State.reviveStation_keep | apply State.stationEvent_keep | split | intro _ | dsimp only)
theorem State.segGood_keep {s : State} {n : Net} {a i : Nat} {b : Bytes} {ch : BitVec 2} (hk : Keeps s0 s) : Keeps s0 (State.segGood s n a i b ch) := by
  refine hk.trans ?_
  clear hk
  unfold State.segGood
  with_reducible repeat' (first | exact Keeps.refl _ | apply ite_keep | apply State.modIn_keep | apply State.modStation_keep | apply State.stationGood_keep | apply State.refreeze_keep | split | intro _ | dsimp only)
theorem State.segAgain_keep {s : State} {i : Nat} {b : Bytes} {ch : BitVec 2} (hk : Keeps s0 s) : Keeps s0 (State.segAgain s i b ch) := by
  refine hk.trans ?_
  clear hk
  unfold State.segAgain
  with_reducible repeat' (first | exact Keeps.refl _ | apply ite_keep | apply State.modIn_keep | apply State.refreeze_keep | split | intro _ | dsimp only)
theorem State.stationsCycle_keep {s : State} {n : Net} (hk : Keeps s0 s) : Keeps s0 (State.stationsCycle s n) := by
  refine hk.trans ?_
  clear hk
  unfold State.stationsCycle
  with_reducible repeat' (first | exact Keeps.refl _ | refine foldl_keep (fun _ _ => ?_) ?_ | apply State.modStation_keep | intro _ | dsimp only)
theorem State.modConn_keep {s : State} {k : Nat} {f : SafConn → SafConn} (hk : Keeps s0 s) : Keeps s0 (State.modConn s k f) := by
  refine hk.trans ?_
  clear hk
  unfold State.modConn
  with_reducible repeat' (first | exact Keeps.refl _ | apply State.modSaf_keep | intro _ | dsimp only)
theorem State.judgeConn_keep {s : State} {c : Conn} (hk : Keeps s0 s) : Keeps s0 (State.judgeConn s c) := by
  refine hk.trans ?_
  clear hk
  unfold State.judgeConn
  with_reducible repeat' (first | exact Keeps.refl _ | apply ite_keep | apply State.modConn_keep | apply State.fail_keep | split | intro _ | dsimp only)
theorem State.judgeConns_keep {s : State} (hk : Keeps s0 s) : Keeps s0 (State.judgeConns s) := by
  refine hk.trans ?_
  clear hk
  unfold State.judgeConns
  with_reducible repeat' (first | exact Keeps.refl _ | refine foldl_keep (fun _ _ => ?_) ?_ | apply State.judgeConn_keep | intro _ | dsimp only)
theorem State.formMessage_keep {s : State} {c : Conn} (hk : Keeps s0 s) : Keeps s0 (State.formMessage s c) := by
  refine hk.trans ?_
  clear hk
  unfold State.formMessage
  with_reducible repeat' (first | exact Keeps.refl _ | apply ite_keep | apply State.modConn_keep | apply State.modSwd_keep | split | intro _ | dsimp only)
theorem State.formMessages_keep {s : State} (hk : Keeps s0 s) : Keeps s0 (State.formMessages s) := by
  refine hk.trans ?_
  clear hk
  unfold State.formMessages
  with_reducible repeat' (first | exact Keeps.refl _ | refine foldl_keep (fun _ _ => ?_) ?_ | apply State.formMessage_keep | intro _ | dsimp only)
theorem State.setRole_keep {s : State} {role standby : BitVec 2} (hk : Keeps s0 s) : Keeps s0 (State.setRole s role standby) := by
  refine hk.trans ?_
  clear hk
  unfold State.setRole
  with_reducible repeat' (first | exact Keeps.refl _ | apply ite_keep | apply State.modDpx_keep | apply State.setEvent_keep | apply State.fuseMark_keep | split | intro _ | dsimp only)
theorem State.releaseClaim_keep {s : State} (hk : Keeps s0 s) : Keeps s0 (State.releaseClaim s) := by
  refine hk.trans ?_
  clear hk
  unfold State.releaseClaim
  with_reducible repeat' (first | exact Keeps.refl _ | apply ite_keep | apply State.modDpx_keep | split | intro _ | dsimp only)
theorem State.assertClaim_keep {s : State} (hk : Keeps s0 s) : Keeps s0 (State.assertClaim s) := by
  refine hk.trans ?_
  clear hk
  unfold State.assertClaim
  with_reducible repeat' (first | exact Keeps.refl _ | apply State.modDpx_keep | intro _ | dsimp only)
theorem State.disarm_keep {s : State} {ev : Nat} {sev : BitVec 4} (hk : Keeps s0 s) : Keeps s0 (State.disarm s ev sev) := by
  refine hk.trans ?_
  clear hk
  unfold State.disarm
  with_reducible repeat' (first | exact Keeps.refl _ | apply State.modUpd_keep | apply State.raise_keep | split | intro _ | dsimp only)
theorem State.cancelArmed_keep {s : State} {ev : Nat} {sev : BitVec 4} (hk : Keeps s0 s) : Keeps s0 (State.cancelArmed s ev sev) := by
  refine hk.trans ?_
  clear hk
  unfold State.cancelArmed
  with_reducible repeat' (first | exact Keeps.refl _ | apply ite_keep | apply State.disarm_keep | apply State.setEvent_keep | split | dsimp only)
theorem State.modSlot_keep {s : State} {b : Bool} {f : FwSlot → FwSlot} (hk : Keeps s0 s) : Keeps s0 (State.modSlot s b f) := by
  refine hk.trans ?_
  clear hk
  unfold State.modSlot
  with_reducible repeat' (first | exact Keeps.refl _ | apply ite_keep | apply State.modUpd_keep | split | intro _ | dsimp only)
theorem State.swapSlots_keep {s : State} {pending : Bool} (hk : Keeps s0 s) : Keeps s0 (State.swapSlots s pending) := by
  refine hk.trans ?_
  clear hk
  unfold State.swapSlots
  with_reducible repeat' (first | exact Keeps.refl _ | apply State.modSlot_keep | apply State.modUpd_keep | intro _ | dsimp only)
theorem State.fallBack_keep {s : State} (hk : Keeps s0 s) : Keeps s0 (State.fallBack s) := by
  refine hk.trans ?_
  clear hk
  unfold State.fallBack
  with_reducible repeat' (first | exact Keeps.refl _ | apply ite_keep | apply State.swapSlots_keep | apply State.modUpd_keep | apply State.raise_keep | apply State.setEvent_keep | split | intro _ | dsimp only)
theorem State.modAllTasks_keep {s : State} {f : Nat → Task → Task} (hk : Keeps s0 s) : Keeps s0 (State.modAllTasks s f) := by
  refine hk.trans ?_
  clear hk
  unfold State.modAllTasks; try dsimp only
  repeat' (first | with_reducible assumption | with_reducible exact Keeps.refl _ | with_reducible apply ite_keep | with_reducible refine foldl_keep (fun _ _ => ?_) ?_ | with_reducible apply State.modTasks_keep | (intro k; (try dsimp only); (first | with_reducible exact k | with_reducible exact Tbl.wf_updAll _ _ _ _ k | with_reducible exact Tbl.wf_upd _ _ _ _ k | with_reducible exact Tbl.wf_store _ _ _ k | exact ⟨k.1, k.2.1, k.2.2.1, k.2.2.2⟩ | exact ⟨Tbl.wf_store _ _ _ k.1, k.2.1, k.2.2.1, k.2.2.2⟩ | exact ⟨k.1, Tbl.wf_store _ _ _ k.2.1, k.2.2.1, k.2.2.2⟩ | exact ⟨k.1, rfl, k.2.2.1, k.2.2.2⟩ | exact ⟨rfl, k.2.1, rfl, k.2.2.2⟩ | exact ⟨rfl, k.2.1, k.2.2.1, k.2.2.2⟩ | exact ⟨k.1, k.2.1, k.2.2.1, rfl⟩ | rfl)) | split | intro _ | dsimp only)
theorem State.forceProgress_keep {s : State} {done : Nat × Bool → Bool} (hk : Keeps s0 s) : Keeps s0 (State.forceProgress s done) := by
  refine hk.trans ?_
  clear hk
  unfold State.forceProgress
  with_reducible repeat' (first | exact Keeps.refl _ | apply ite_keep | apply State.modProg_keep | apply State.complete_keep | split | intro _ | dsimp only)
theorem State.forceEnds_keep {s : State} (hk : Keeps s0 s) : Keeps s0 (State.forceEnds s) := by
  refine hk.trans ?_
  clear hk
  unfold State.forceEnds
  with_reducible repeat' (first | exact Keeps.refl _ | apply State.modProg_keep | apply State.commitOnly_keep | split | intro _ | dsimp only)
theorem State.haltNow_keep {s : State} {cause : Byte} {latched : Bool} (hk : Keeps s0 s) : Keeps s0 (State.haltNow s cause latched) := by
  refine hk.trans ?_
  clear hk
  unfold State.haltNow
  with_reducible repeat' (first | exact Keeps.refl _ | apply ite_keep | apply State.forceEnds_keep | apply State.raise_keep | apply State.cancelArmed_keep | apply State.lastFrames_keep | apply State.modHl1_keep | apply State.modHl2_keep | apply State.modAllTasks_keep | apply State.releaseClaim_keep | apply State.modDpx_keep | apply State.setRole_keep | apply State.modProg_keep | apply State.modBst_keep | apply State.modSys_keep | apply State.raiseMode_keep | apply State.event_keep | apply State.msix_keep | apply State.modPwr_keep | split | intro _ | dsimp only)
theorem State.startSward_keep {s : State} (hk : Keeps s0 s) : Keeps s0 (State.startSward s) := by
  refine hk.trans ?_
  clear hk
  unfold State.startSward
  with_reducible repeat' (first | exact Keeps.refl _ | refine foldl_keep (fun _ _ => ?_) ?_ | apply State.modSwd_keep | apply State.poolFor_keep | apply State.substituteStation_keep | apply State.publishStops_keep | intro _ | dsimp only)
theorem State.beginStart_keep {s : State} {requested : StartKind} {trigger : Nat} (hk : Keeps s0 s) : Keeps s0 (State.beginStart s requested trigger) := by
  refine hk.trans ?_
  clear hk
  unfold State.beginStart; try dsimp only
  repeat' (first | with_reducible assumption | with_reducible exact Keeps.refl _ | with_reducible apply ite_keep | with_reducible refine foldl_keep (fun _ _ => ?_) ?_ | with_reducible apply State.cancelArmed_keep | with_reducible apply State.forceEnds_keep | with_reducible apply State.modSys_keep | with_reducible apply State.raiseMode_keep | with_reducible apply State.setEvent_keep | with_reducible apply State.releaseClaim_keep | with_reducible apply State.setRole_keep | with_reducible apply State.raise_keep | with_reducible apply State.modPwr_keep | with_reducible apply State.modCfg_keep | with_reducible apply State.modRings_keep | with_reducible apply State.modJournal_keep | with_reducible apply State.executing_keep | with_reducible apply State.modEntry_keep | with_reducible apply State.modUpd_keep | with_reducible apply State.modSaf_keep | with_reducible apply State.modMem_keep | with_reducible apply State.modBst_keep | with_reducible apply State.modProg_keep | with_reducible apply State.modAllTasks_keep | with_reducible apply State.modHl1_keep | with_reducible apply State.modHl2_keep | with_reducible apply State.startSward_keep | with_reducible apply State.startField_keep | with_reducible apply State.lanesAtStart_keep | with_reducible apply State.modTri_keep | with_reducible apply State.voterFault_keep | with_reducible apply State.modCpr_keep | with_reducible apply State.modDpx_keep | with_reducible apply State.modStl_keep | with_reducible apply State.modTbu_keep | (intro k; (try dsimp only); (first | with_reducible exact k | with_reducible exact Tbl.wf_updAll _ _ _ _ k | with_reducible exact Tbl.wf_upd _ _ _ _ k | with_reducible exact Tbl.wf_store _ _ _ k | exact ⟨k.1, k.2.1, k.2.2.1, k.2.2.2⟩ | exact ⟨Tbl.wf_store _ _ _ k.1, k.2.1, k.2.2.1, k.2.2.2⟩ | exact ⟨k.1, Tbl.wf_store _ _ _ k.2.1, k.2.2.1, k.2.2.2⟩ | exact ⟨k.1, rfl, k.2.2.1, k.2.2.2⟩ | exact ⟨rfl, k.2.1, rfl, k.2.2.2⟩ | exact ⟨rfl, k.2.1, k.2.2.1, k.2.2.2⟩ | exact ⟨k.1, k.2.1, k.2.2.1, rfl⟩ | rfl)) | split | intro _ | dsimp only)
theorem State.enterStart_keep {s : State} {requested : StartKind} {trigger : Nat} (hk : Keeps s0 s) : Keeps s0 (State.enterStart s requested trigger) := by
  refine hk.trans ?_
  clear hk
  unfold State.enterStart; try dsimp only
  repeat' (first | with_reducible assumption | with_reducible exact Keeps.refl _ | with_reducible apply ite_keep | with_reducible refine foldl_keep (fun _ _ => ?_) ?_ | with_reducible apply State.modHyk_keep | with_reducible apply State.beginStart_keep | (intro k; (try dsimp only); (first | with_reducible exact k | with_reducible exact Tbl.wf_updAll _ _ _ _ k | with_reducible exact Tbl.wf_upd _ _ _ _ k | with_reducible exact Tbl.wf_store _ _ _ k | exact ⟨k.1, k.2.1, k.2.2.1, k.2.2.2⟩ | exact ⟨Tbl.wf_store _ _ _ k.1, k.2.1, k.2.2.1, k.2.2.2⟩ | exact ⟨k.1, Tbl.wf_store _ _ _ k.2.1, k.2.2.1, k.2.2.2⟩ | exact ⟨k.1, rfl, k.2.2.1, k.2.2.2⟩ | exact ⟨rfl, k.2.1, rfl, k.2.2.2⟩ | exact ⟨rfl, k.2.1, k.2.2.1, k.2.2.2⟩ | exact ⟨k.1, k.2.1, k.2.2.1, rfl⟩ | rfl)) | split | intro _ | dsimp only)
theorem State.countFailure_keep {s : State} {r : StartReq} {cause : Nat} (hk : Keeps s0 s) : Keeps s0 (State.countFailure s r cause) := by
  refine hk.trans ?_
  clear hk
  unfold State.countFailure
  with_reducible repeat' (first | exact Keeps.refl _ | apply ite_keep | apply State.raise_keep | apply State.modSys_keep | split | intro _ | dsimp only)
theorem State.startFailed_keep {s : State} {cause : Nat} (hk : Keeps s0 s) : Keeps s0 (State.startFailed s cause) := by
  refine hk.trans ?_
  clear hk
  unfold State.startFailed
  with_reducible repeat' (first | exact Keeps.refl _ | apply ite_keep | apply State.countFailure_keep | apply State.haltNow_keep | apply State.fallBack_keep | apply State.enterStart_keep | split | dsimp only)
theorem State.fault_keep {s : State} {cause : Byte} (hk : Keeps s0 s) : Keeps s0 (State.fault s cause) := by
  refine hk.trans ?_
  clear hk
  unfold State.fault
  with_reducible repeat' (first | exact Keeps.refl _ | apply ite_keep | apply State.startFailed_keep | apply State.haltNow_keep | split | dsimp only)
theorem State.powerOff_keep {s : State} (hk : Keeps s0 s) : Keeps s0 (State.powerOff s) := by
  refine hk.trans ?_
  clear hk
  unfold State.powerOff; try dsimp only
  repeat' (first | with_reducible assumption | with_reducible exact Keeps.refl _ | with_reducible apply ite_keep | with_reducible refine foldl_keep (fun _ _ => ?_) ?_ | with_reducible apply State.modHyk_keep | with_reducible apply State.releaseClaim_keep | with_reducible apply State.modPwr_keep | (intro k; (try dsimp only); (first | with_reducible exact k | with_reducible exact Tbl.wf_updAll _ _ _ _ k | with_reducible exact Tbl.wf_upd _ _ _ _ k | with_reducible exact Tbl.wf_store _ _ _ k | exact ⟨k.1, k.2.1, k.2.2.1, k.2.2.2⟩ | exact ⟨Tbl.wf_store _ _ _ k.1, k.2.1, k.2.2.1, k.2.2.2⟩ | exact ⟨k.1, Tbl.wf_store _ _ _ k.2.1, k.2.2.1, k.2.2.2⟩ | exact ⟨k.1, rfl, k.2.2.1, k.2.2.2⟩ | exact ⟨rfl, k.2.1, rfl, k.2.2.2⟩ | exact ⟨rfl, k.2.1, k.2.2.1, k.2.2.2⟩ | exact ⟨k.1, k.2.1, k.2.2.1, rfl⟩ | rfl)) | split | intro _ | dsimp only)
theorem State.powerLost_keep {s : State} (hk : Keeps s0 s) : Keeps s0 (State.powerLost s) := by
  refine hk.trans ?_
  clear hk
  unfold State.powerLost
  with_reducible repeat' (first | exact Keeps.refl _ | apply State.releaseClaim_keep | apply State.modPwr_keep | intro _ | dsimp only)
theorem State.volatileReset_keep {s : State} (hk : Keeps s0 s) : Keeps s0 (State.volatileReset s) := by
  refine hk.trans ?_
  clear hk
  refine ⟨rfl, rfl, rfl, Nat.le_refl _, by simp [State.volatileReset], fun k => ⟨⟨rfl, rfl, rfl, fun _ _ h => by simp [State.volatileReset, Mem.reset] at h⟩, ?_, rfl, rfl, k.5, rfl, rfl, ?_⟩⟩
  · dsimp only [State.volatileReset]
    with_reducible exact Tbl.wf_updAll _ _ _ _ k.2
  · exact ⟨k.8.1, k.8.2.1, k.8.2.2.1, rfl⟩
theorem State.sense_keep {s : State} {l1 l2 : Byte} {slotPos : Bool} {lbase : Byte} {mv : BitVec 12} {t : BitVec 16} (hk : Keeps s0 s) : Keeps s0 (State.sense s l1 l2 slotPos lbase mv t) := by
  refine hk.trans ?_
  clear hk
  exact ⟨rfl, rfl, rfl, Nat.le_refl _, by simp [State.sense], fun k => ⟨k.1, k.2, k.3, k.4, k.5, k.6, k.7, k.8⟩⟩
theorem State.comeUp_keep {s : State} {l1 l2 : Byte} {slotPos : Bool} {lbase : Byte} {mv : BitVec 12} {t : BitVec 16} (hk : Keeps s0 s) : Keeps s0 (State.comeUp s l1 l2 slotPos lbase mv t) := by
  refine hk.trans ?_
  clear hk
  unfold State.comeUp; try dsimp only
  repeat' (first | with_reducible assumption | with_reducible exact Keeps.refl _ | with_reducible apply ite_keep | with_reducible refine foldl_keep (fun _ _ => ?_) ?_ | with_reducible apply State.volatileReset_keep | with_reducible apply State.sense_keep | with_reducible apply State.raise_keep | with_reducible apply State.modHyk_keep | with_reducible apply State.modPwr_keep | with_reducible apply State.haltNow_keep | with_reducible apply State.beginStart_keep | (intro k; (try dsimp only); (first | with_reducible exact k | with_reducible exact Tbl.wf_updAll _ _ _ _ k | with_reducible exact Tbl.wf_upd _ _ _ _ k | with_reducible exact Tbl.wf_store _ _ _ k | exact ⟨k.1, k.2.1, k.2.2.1, k.2.2.2⟩ | exact ⟨Tbl.wf_store _ _ _ k.1, k.2.1, k.2.2.1, k.2.2.2⟩ | exact ⟨k.1, Tbl.wf_store _ _ _ k.2.1, k.2.2.1, k.2.2.2⟩ | exact ⟨k.1, rfl, k.2.2.1, k.2.2.2⟩ | exact ⟨rfl, k.2.1, rfl, k.2.2.2⟩ | exact ⟨rfl, k.2.1, k.2.2.1, k.2.2.2⟩ | exact ⟨k.1, k.2.1, k.2.2.1, rfl⟩ | rfl)) | split | intro _ | dsimp only)
theorem effPowerUp_keep {l1 l2 : Byte} {slotPos : Bool} {lbase : Byte} {coreMv : BitVec 12} {temp : BitVec 16} {s : State} (hk : Keeps s0 s) : Keeps s0 (effPowerUp l1 l2 slotPos lbase coreMv temp s) := by
  refine hk.trans ?_
  clear hk
  unfold effPowerUp
  with_reducible repeat' (first | exact Keeps.refl _ | apply ite_keep | apply State.comeUp_keep | split | dsimp only)
theorem effJunctionCooled_keep {l1 l2 : Byte} {slotPos : Bool} {lbase : Byte} {coreMv : BitVec 12} {temp : BitVec 16} {s : State} (hk : Keeps s0 s) : Keeps s0 (effJunctionCooled l1 l2 slotPos lbase coreMv temp s) := by
  refine hk.trans ?_
  clear hk
  unfold effJunctionCooled
  with_reducible repeat' (first | exact Keeps.refl _ | apply ite_keep | apply State.comeUp_keep | split | dsimp only)
theorem effReserveReady_keep {s : State} (hk : Keeps s0 s) : Keeps s0 (effReserveReady s) := by
  refine hk.trans ?_
  clear hk
  unfold effReserveReady
  with_reducible repeat' (first | exact Keeps.refl _ | apply ite_keep | apply State.modPwr_keep | split | intro _ | dsimp only)
theorem effHoldupReady_keep {s : State} (hk : Keeps s0 s) : Keeps s0 (effHoldupReady s) := by
  refine hk.trans ?_
  clear hk
  unfold effHoldupReady
  with_reducible repeat' (first | exact Keeps.refl _ | apply ite_keep | apply State.modPwr_keep | apply State.bump_keep | split | intro _ | dsimp only)
theorem effFeedLoss_keep {f : Feed} {v : Byte} {s : State} (hk : Keeps s0 s) : Keeps s0 (effFeedLoss f v s) := by
  refine hk.trans ?_
  clear hk
  unfold effFeedLoss
  with_reducible repeat' (first | exact Keeps.refl _ | apply ite_keep | apply State.modPwr_keep | apply State.raise_keep | apply State.setEvent_keep | split | intro _ | dsimp only)
theorem effFeedRestored_keep {f : Feed} {v : Byte} {s : State} (hk : Keeps s0 s) : Keeps s0 (effFeedRestored f v s) := by
  refine hk.trans ?_
  clear hk
  unfold effFeedRestored
  with_reducible repeat' (first | exact Keeps.refl _ | apply ite_keep | apply State.modPwr_keep | apply State.raise_keep | apply State.setEvent_keep | split | intro _ | dsimp only)
theorem effOnHoldup_keep {v : Byte} {s : State} (hk : Keeps s0 s) : Keeps s0 (effOnHoldup v s) := by
  refine hk.trans ?_
  clear hk
  unfold effOnHoldup
  with_reducible repeat' (first | exact Keeps.refl _ | apply ite_keep | apply State.modPwr_keep | apply State.bump_keep | apply State.powerLost_keep | split | intro _ | dsimp only)
theorem effSupplyReturn_keep {v : Byte} {s : State} (hk : Keeps s0 s) : Keeps s0 (effSupplyReturn v s) := by
  refine hk.trans ?_
  clear hk
  unfold effSupplyReturn
  with_reducible repeat' (first | exact Keeps.refl _ | apply ite_keep | apply State.modPwr_keep | split | intro _ | dsimp only)
theorem State.powerFail_keep {s : State} {cause : Byte} {v : Byte} (hk : Keeps s0 s) : Keeps s0 (State.powerFail s cause v) := by
  refine hk.trans ?_
  clear hk
  unfold State.powerFail; try dsimp only
  repeat' (first | with_reducible assumption | with_reducible exact Keeps.refl _ | with_reducible apply ite_keep | with_reducible refine foldl_keep (fun _ _ => ?_) ?_ | with_reducible apply State.modDpx_keep | with_reducible apply State.releaseClaim_keep | with_reducible apply State.modProg_keep | with_reducible apply State.disarm_keep | with_reducible apply State.raise_keep | with_reducible apply State.modHyk_keep | with_reducible apply State.powerOff_keep | (intro k; (try dsimp only); (first | with_reducible exact k | with_reducible exact Tbl.wf_updAll _ _ _ _ k | with_reducible exact Tbl.wf_upd _ _ _ _ k | with_reducible exact Tbl.wf_store _ _ _ k | exact ⟨k.1, k.2.1, k.2.2.1, k.2.2.2⟩ | exact ⟨Tbl.wf_store _ _ _ k.1, k.2.1, k.2.2.1, k.2.2.2⟩ | exact ⟨k.1, Tbl.wf_store _ _ _ k.2.1, k.2.2.1, k.2.2.2⟩ | exact ⟨k.1, rfl, k.2.2.1, k.2.2.2⟩ | exact ⟨rfl, k.2.1, rfl, k.2.2.2⟩ | exact ⟨rfl, k.2.1, k.2.2.1, k.2.2.2⟩ | exact ⟨k.1, k.2.1, k.2.2.1, rfl⟩ | rfl)) | split | intro _ | dsimp only)
theorem effPowerFailSequence_keep {v : Byte} {s : State} (hk : Keeps s0 s) : Keeps s0 (effPowerFailSequence v s) := by
  refine hk.trans ?_
  clear hk
  unfold effPowerFailSequence
  with_reducible repeat' (first | exact Keeps.refl _ | apply ite_keep | apply State.powerFail_keep | split | dsimp only)
theorem effTemperatureWarning_keep {t : BitVec 16} {s : State} (hk : Keeps s0 s) : Keeps s0 (effTemperatureWarning t s) := by
  refine hk.trans ?_
  clear hk
  unfold effTemperatureWarning
  with_reducible repeat' (first | exact Keeps.refl _ | apply ite_keep | apply State.modPwr_keep | apply State.raise_keep | split | intro _ | dsimp only)
theorem effOvertemperature_keep {t : BitVec 16} {s : State} (hk : Keeps s0 s) : Keeps s0 (effOvertemperature t s) := by
  refine hk.trans ?_
  clear hk
  unfold effOvertemperature
  with_reducible repeat' (first | exact Keeps.refl _ | apply ite_keep | apply State.modPwr_keep | apply State.powerFail_keep | split | intro _ | dsimp only)
theorem effRootPllLoss_keep {s : State} (hk : Keeps s0 s) : Keeps s0 (effRootPllLoss s) := by
  refine hk.trans ?_
  clear hk
  unfold effRootPllLoss
  with_reducible repeat' (first | exact Keeps.refl _ | apply ite_keep | apply State.modPwr_keep | apply State.raise_keep | apply State.fault_keep | split | intro _ | dsimp only)
theorem effReferenceOscillatorLoss_keep {s : State} (hk : Keeps s0 s) : Keeps s0 (effReferenceOscillatorLoss s) := by
  refine hk.trans ?_
  clear hk
  unfold effReferenceOscillatorLoss
  with_reducible repeat' (first | exact Keeps.refl _ | apply ite_keep | apply State.modPwr_keep | apply State.raise_keep | apply State.fault_keep | split | intro _ | dsimp only)
theorem effCrossingReset_keep {_n : Byte} {s : State} (hk : Keeps s0 s) : Keeps s0 (effCrossingReset _n s) := by
  refine hk.trans ?_
  clear hk
  unfold effCrossingReset
  with_reducible repeat' (first | exact Keeps.refl _ | apply ite_keep | apply State.modPwr_keep | split | intro _ | dsimp only)
theorem effSramScrub_keep {sram pd0 : Nat} {s : State} (hk : Keeps s0 s) : Keeps s0 (effSramScrub sram pd0 s) := by
  refine hk.trans ?_
  clear hk
  unfold effSramScrub
  with_reducible repeat' (first | exact Keeps.refl _ | apply ite_keep | apply State.modPwr_keep | split | intro _ | dsimp only)
theorem effMemoryUncorrectable_keep {mem : Byte} {addr : Word} {s : State} (hk : Keeps s0 s) : Keeps s0 (effMemoryUncorrectable mem addr s) := by
  refine hk.trans ?_
  clear hk
  unfold effMemoryUncorrectable
  with_reducible repeat' (first | exact Keeps.refl _ | apply ite_keep | apply State.raise_keep | apply State.fault_keep | split | dsimp only)
theorem effSupervisorSelfCheckFail_keep {s : State} (hk : Keeps s0 s) : Keeps s0 (effSupervisorSelfCheckFail s) := by
  refine hk.trans ?_
  clear hk
  unfold effSupervisorSelfCheckFail
  with_reducible repeat' (first | exact Keeps.refl _ | apply ite_keep | apply State.haltNow_keep | split | dsimp only)
theorem State.newSegments_keep {s : State} (hk : Keeps s0 s) : Keeps s0 (State.newSegments s) := by
  refine hk.trans ?_
  clear hk
  unfold State.newSegments
  with_reducible repeat' (first | exact Keeps.refl _ | apply ite_keep | refine foldl_keep (fun _ _ => ?_) ?_ | apply State.modSwd_keep | apply State.poolFor_keep | apply State.substituteStation_keep | apply State.publishStops_keep | split | intro _ | dsimp only)
theorem State.applyConfig_keep {s : State} {c : ConfigSet} (hk : Keeps s0 s) : Keeps s0 (State.applyConfig s c) := by
  refine hk.trans ?_
  clear hk
  unfold State.applyConfig
  with_reducible repeat' (first | exact Keeps.refl _ | apply ite_keep | refine foldl_keep (fun _ _ => ?_) ?_ | apply State.modCfg_keep | apply State.applyChannels_keep | apply State.newSegments_keep | apply State.modStl_keep | split | intro _ | dsimp only)
theorem effConfigLoad_keep {h : Quad} {b : SentBuf} {s : State} (hk : Keeps s0 s) : Keeps s0 (effConfigLoad h b s) := by
  refine hk.trans ?_
  clear hk
  unfold effConfigLoad
  with_reducible repeat' (first | exact Keeps.refl _ | apply ite_keep | apply State.begin_keep | apply State.fail_keep | apply State.refuseLoad_keep | apply State.sendItem_keep | apply State.modCfg_keep | apply State.applyConfig_keep | apply State.complete_keep | split | intro _ | dsimp only)
theorem State.submit_keep {s : State} {t r : Nat} {entry : Bytes} (hk : Keeps s0 s) : Keeps s0 (State.submit s t r entry) := by
  refine hk.trans ?_
  clear hk
  unfold State.submit; try dsimp only
  repeat' (first | with_reducible assumption | with_reducible exact Keeps.refl _ | with_reducible apply ite_keep | with_reducible refine foldl_keep (fun _ _ => ?_) ?_ | with_reducible apply State.modMem_keep | with_reducible apply State.store_keep | with_reducible apply State.modRing_keep | with_reducible apply State.modTask_keep | (intro k; (try dsimp only); (first | with_reducible exact k | with_reducible exact Tbl.wf_updAll _ _ _ _ k | with_reducible exact Tbl.wf_upd _ _ _ _ k | with_reducible exact Tbl.wf_store _ _ _ k | exact ⟨k.1, k.2.1, k.2.2.1, k.2.2.2⟩ | exact ⟨Tbl.wf_store _ _ _ k.1, k.2.1, k.2.2.1, k.2.2.2⟩ | exact ⟨k.1, Tbl.wf_store _ _ _ k.2.1, k.2.2.1, k.2.2.2⟩ | exact ⟨k.1, rfl, k.2.2.1, k.2.2.2⟩ | exact ⟨rfl, k.2.1, rfl, k.2.2.2⟩ | exact ⟨rfl, k.2.1, k.2.2.1, k.2.2.2⟩ | exact ⟨k.1, k.2.1, k.2.2.1, rfl⟩ | rfl)) | split | intro _ | dsimp only)
theorem State.writeDoorbell_keep {s : State} {r : Nat} {v : Word} (hk : Keeps s0 s) : Keeps s0 (State.writeDoorbell s r v) := by
  refine hk.trans ?_
  clear hk
  unfold State.writeDoorbell
  with_reducible repeat' (first | exact Keeps.refl _ | apply ite_keep | apply State.modRing_keep | split | intro _ | dsimp only)
theorem State.cover_keep {s : State} {r : Nat} {i : Word} (hk : Keeps s0 s) : Keeps s0 (State.cover s r i) := by
  refine hk.trans ?_
  clear hk
  unfold State.cover
  with_reducible repeat' (first | exact Keeps.refl _ | apply ite_keep | apply State.modRing_keep | apply State.writeDoorbell_keep | split | intro _ | dsimp only)
theorem State.consume_keep {s : State} {r : Nat} {v : Word} (hk : Keeps s0 s) : Keeps s0 (State.consume s r v) := by
  refine hk.trans ?_
  clear hk
  unfold State.consume
  with_reducible repeat' (first | exact Keeps.refl _ | apply ite_keep | apply State.modRing_keep | apply State.undelivered_keep | apply State.modJournal_keep | apply State.drainRecords_keep | split | intro _ | dsimp only)
theorem State.writeCons_keep {s : State} {r : Nat} {v : Word} (hk : Keeps s0 s) : Keeps s0 (State.writeCons s r v) := by
  refine hk.trans ?_
  clear hk
  unfold State.writeCons
  with_reducible repeat' (first | exact Keeps.refl _ | apply ite_keep | apply State.consume_keep | apply State.signal_keep | apply State.modRing_keep | split | intro _ | dsimp only)
theorem State.logEvent_keep {s : State} {t : Nat} {code : BitVec 16} {data : Bytes} (hk : Keeps s0 s) : Keeps s0 (State.logEvent s t code data).1 := by
  refine hk.trans ?_
  clear hk
  unfold State.logEvent
  with_reducible repeat' (first | exact Keeps.refl _ | apply ite_keep | apply State.offer_keep | apply State.bump_keep | split | dsimp only)
theorem State.raiseFault_keep {s : State} {t : Nat} {reaction : Nat} {data : Bytes} (hk : Keeps s0 s) : Keeps s0 (State.raiseFault s t reaction data) := by
  refine hk.trans ?_
  clear hk
  unfold State.raiseFault
  with_reducible repeat' (first | exact Keeps.refl _ | apply ite_keep | apply State.raise_keep | apply State.offer_keep | apply State.modTask_keep | split | intro _ | dsimp only)
theorem State.mismatch_keep {s : State} {lane : Option Nat} {kind : BitVec 4} (hk : Keeps s0 s) : Keeps s0 (State.mismatch s lane kind) := by
  refine hk.trans ?_
  clear hk
  unfold State.mismatch
  with_reducible repeat' (first | exact Keeps.refl _ | apply ite_keep | apply State.modTri_keep | apply State.modLane_keep | apply State.laneState_keep | apply State.fault_keep | split | intro _ | dsimp only)
theorem State.askSwap_keep {s : State} (hk : Keeps s0 s) : Keeps s0 (State.askSwap s) := by
  refine hk.trans ?_
  clear hk
  unfold State.askSwap
  with_reducible repeat' (first | exact Keeps.refl _ | apply ite_keep | apply State.modDpx_keep | apply State.bump_keep | split | intro _ | dsimp only)
theorem State.exclude_keep {s : State} {l : Nat} (hk : Keeps s0 s) : Keeps s0 (State.exclude s l) := by
  refine hk.trans ?_
  clear hk
  unfold State.exclude
  with_reducible repeat' (first | exact Keeps.refl _ | apply ite_keep | apply State.modLane_keep | apply State.laneState_keep | apply State.repairStart_keep | apply State.setEvent_keep | apply State.askSwap_keep | split | intro _ | dsimp only)
theorem State.readmitReady_keep {s : State} (hk : Keeps s0 s) : Keeps s0 (State.readmitReady s) := by
  refine hk.trans ?_
  clear hk
  unfold State.readmitReady
  with_reducible repeat' (first | exact Keeps.refl _ | apply ite_keep | refine foldl_keep (fun _ _ => ?_) ?_ | apply State.modLane_keep | apply State.laneState_keep | split | intro _ | dsimp only)
theorem State.voterFault_keep {s : State} (hk : Keeps s0 s) : Keeps s0 (State.voterFault s) := by
  refine hk.trans ?_
  clear hk
  unfold State.voterFault; try dsimp only
  repeat' (first | with_reducible assumption | with_reducible exact Keeps.refl _ | with_reducible apply ite_keep | with_reducible refine foldl_keep (fun _ _ => ?_) ?_ | with_reducible apply State.modTri_keep | with_reducible apply State.modFld_keep | with_reducible apply State.fault_keep | (intro k; (try dsimp only); (first | with_reducible exact k | with_reducible exact Tbl.wf_updAll _ _ _ _ k | with_reducible exact Tbl.wf_upd _ _ _ _ k | with_reducible exact Tbl.wf_store _ _ _ k | exact ⟨k.1, k.2.1, k.2.2.1, k.2.2.2⟩ | exact ⟨Tbl.wf_store _ _ _ k.1, k.2.1, k.2.2.1, k.2.2.2⟩ | exact ⟨k.1, Tbl.wf_store _ _ _ k.2.1, k.2.2.1, k.2.2.2⟩ | exact ⟨k.1, rfl, k.2.2.1, k.2.2.2⟩ | exact ⟨rfl, k.2.1, rfl, k.2.2.2⟩ | exact ⟨rfl, k.2.1, k.2.2.1, k.2.2.2⟩ | exact ⟨k.1, k.2.1, k.2.2.1, rfl⟩ | rfl)) | split | intro _ | dsimp only)
theorem State.giveExport_keep {s : State} (hk : Keeps s0 s) : Keeps s0 (State.giveExport s) := by
  refine hk.trans ?_
  clear hk
  unfold State.giveExport
  with_reducible repeat' (first | exact Keeps.refl _ | apply ite_keep | apply State.modAllTasks_keep | split | intro _ | dsimp only)
theorem State.release_keep {s : State} {c : EgressCopy} (hk : Keeps s0 s) : Keeps s0 (State.release s c) := by
  refine hk.trans ?_
  clear hk
  unfold State.release
  with_reducible repeat' (first | exact Keeps.refl _ | apply ite_keep | refine foldl_keep (fun _ _ => ?_) ?_ | apply State.output_keep | apply State.store_keep | apply State.modTri_keep | apply State.submit_keep | apply State.writeCons_keep | apply State.logEvent_keep | apply State.raiseFault_keep | apply State.publish_keep | apply State.giveExport_keep | split | intro _ | dsimp only)
theorem State.restate_keep {s : State} (hk : Keeps s0 s) : Keeps s0 (State.restate s) := by
  refine hk.trans ?_
  clear hk
  unfold State.restate
  with_reducible repeat' (first | exact Keeps.refl _ | apply ite_keep | refine foldl_keep (fun _ _ => ?_) ?_ | apply State.modTask_keep | split | intro _ | dsimp only)
theorem State.programRefused_keep {s : State} {t : Nat} {access : Byte} {addr : Quad} (hk : Keeps s0 s) : Keeps s0 (State.programRefused s t access addr) := by
  refine hk.trans ?_
  clear hk
  unfold State.programRefused
  with_reducible repeat' (first | exact Keeps.refl _ | apply State.raise_keep | apply State.modTask_keep | intro _ | dsimp only)
theorem State.errorsEnd_keep {s : State} (hk : Keeps s0 s) : Keeps s0 (State.errorsEnd s) := by
  refine hk.trans ?_
  clear hk
  unfold State.errorsEnd
  with_reducible repeat' (first | exact Keeps.refl _ | apply ite_keep | refine foldl_keep (fun _ _ => ?_) ?_ | apply State.modTask_keep | split | intro _ | dsimp only)
theorem State.holdStd_keep {s : State} (hk : Keeps s0 s) : Keeps s0 (State.holdStd s) := by
  refine hk.trans ?_
  clear hk
  unfold State.holdStd
  with_reducible repeat' (first | exact Keeps.refl _ | refine foldl_keep (fun _ _ => ?_) ?_ | apply State.modTask_keep | intro _ | dsimp only)
theorem State.pairLost_keep {s : State} {kind : BitVec 4} (hk : Keeps s0 s) : Keeps s0 (State.pairLost s kind) := by
  refine hk.trans ?_
  clear hk
  unfold State.pairLost
  with_reducible repeat' (first | exact Keeps.refl _ | apply State.raisePairState_keep | apply State.fault_keep | dsimp only)
theorem State.noteLog_keep {s : State} {kib : Nat} (hk : Keeps s0 s) : Keeps s0 (State.noteLog s kib) := by
  refine hk.trans ?_
  clear hk
  unfold State.noteLog
  with_reducible repeat' (first | exact Keeps.refl _ | apply ite_keep | apply State.modCpr_keep | split | intro _ | dsimp only)
theorem State.pairMismatch_keep {s : State} {k : PairKind} {kib : Nat} (hk : Keeps s0 s) : Keeps s0 (State.pairMismatch s k kib) := by
  refine hk.trans ?_
  clear hk
  unfold State.pairMismatch
  with_reducible repeat' (first | exact Keeps.refl _ | apply ite_keep | apply State.fault_keep | apply State.noteLog_keep | apply State.modCpr_keep | apply State.pairLost_keep | apply State.raisePairState_keep | apply State.holdStd_keep | split | intro _ | dsimp only)
theorem State.pairExclude_keep {s : State} {l : Nat} (hk : Keeps s0 s) : Keeps s0 (State.pairExclude s l) := by
  refine hk.trans ?_
  clear hk
  unfold State.pairExclude
  with_reducible repeat' (first | exact Keeps.refl _ | apply ite_keep | apply State.modExclusions_keep | apply State.modCpr_keep | apply State.setEvent_keep | apply State.askSwap_keep | split | intro _ | dsimp only)
theorem State.restore_keep {s : State} (hk : Keeps s0 s) : Keeps s0 (State.restore s) := by
  refine hk.trans ?_
  clear hk
  unfold State.restore
  with_reducible repeat' (first | exact Keeps.refl _ | refine foldl_keep (fun _ _ => ?_) ?_ | apply State.modTask_keep | apply State.restoreWriting_keep | apply State.restate_keep | intro _ | dsimp only)
theorem State.setTasks_keep {s : State} (hk : Keeps s0 s) : Keeps s0 (State.setTasks s) := by
  refine hk.trans ?_
  clear hk
  unfold State.setTasks
  with_reducible repeat' (first | exact Keeps.refl _ | apply ite_keep | apply State.modAllTasks_keep | split | intro _ | dsimp only)
theorem State.standbyTo_keep {s : State} {st : BitVec 2} {cause : Nat} (hk : Keeps s0 s) : Keeps s0 (State.standbyTo s st cause) := by
  refine hk.trans ?_
  clear hk
  unfold State.standbyTo
  with_reducible repeat' (first | exact Keeps.refl _ | apply ite_keep | apply State.modDpx_keep | apply State.setRole_keep | apply State.raise_keep | split | intro _ | dsimp only)
theorem State.lag_keep {s : State} {cause : Nat} (hk : Keeps s0 s) : Keeps s0 (State.lag s cause) := by
  refine hk.trans ?_
  clear hk
  unfold State.lag
  with_reducible repeat' (first | exact Keeps.refl _ | apply ite_keep | apply State.standbyTo_keep | apply State.modDpx_keep | split | intro _ | dsimp only)
theorem State.mirrorMissed_keep {s : State} {cause : Nat} (hk : Keeps s0 s) : Keeps s0 (State.mirrorMissed s cause) := by
  refine hk.trans ?_
  clear hk
  unfold State.mirrorMissed
  with_reducible repeat' (first | exact Keeps.refl _ | apply ite_keep | apply State.lag_keep | apply State.modDpx_keep | split | intro _ | dsimp only)
theorem State.latchEvents_keep {s : State} {t : Nat} (hk : Keeps s0 s) : Keeps s0 (State.latchEvents s t) := by
  refine hk.trans ?_
  clear hk
  unfold State.latchEvents
  with_reducible repeat' (first | exact Keeps.refl _ | apply ite_keep | apply State.event_keep | split | dsimp only)
theorem State.latch_keep {s : State} {t : Nat} {re : Bool} (hk : Keeps s0 s) : Keeps s0 (State.latch s t re) := by
  refine hk.trans ?_
  clear hk
  unfold State.latch
  with_reducible repeat' (first | exact Keeps.refl _ | apply ite_keep | apply State.readmitReady_keep | apply State.promote_keep | apply State.latchEvents_keep | apply State.modTask_keep | apply State.modTri_keep | apply State.modLanes_keep | apply State.judgeConns_keep | apply State.restate_keep | apply State.prune_keep | apply State.forceProgress_keep | split | intro _ | dsimp only)
theorem State.constantsDone_keep {s : State} (hk : Keeps s0 s) : Keeps s0 (State.constantsDone s) := by
  refine hk.trans ?_
  clear hk
  unfold State.constantsDone
  with_reducible repeat' (first | exact Keeps.refl _ | apply ite_keep | apply State.writeConsts_keep | apply State.changeDone_keep | split | dsimp only)
theorem State.finishStop_keep {s : State} (hk : Keeps s0 s) : Keeps s0 (State.finishStop s) := by
  refine hk.trans ?_
  clear hk
  unfold State.finishStop
  with_reducible repeat' (first | exact Keeps.refl _ | apply ite_keep | apply State.modSys_keep | apply State.modAllTasks_keep | apply State.forceProgress_keep | apply State.prune_keep | apply State.constantsDone_keep | apply State.setMode_keep | apply State.complete_keep | split | intro _ | dsimp only)
theorem State.stopTask_keep {s : State} {t : Nat} (hk : Keeps s0 s) : Keeps s0 (State.stopTask s t) := by
  refine hk.trans ?_
  clear hk
  unfold State.stopTask
  with_reducible repeat' (first | exact Keeps.refl _ | apply ite_keep | apply State.publishStop_keep | apply State.modTask_keep | apply State.finishStop_keep | apply State.prune_keep | split | intro _ | dsimp only)
theorem State.resume_keep {s : State} {l : List Nat} {re : Bool} (hk : Keeps s0 s) : Keeps s0 (State.resume s l re) := by
  refine hk.trans ?_
  clear hk
  unfold State.resume
  with_reducible repeat' (first | exact Keeps.refl _ | apply ite_keep | refine foldl_keep (fun _ _ => ?_) ?_ | apply State.modAllTasks_keep | apply State.stopTask_keep | apply State.latch_keep | split | intro _ | dsimp only)
theorem State.holdLatch_keep {s : State} {t : Nat} (hk : Keeps s0 s) : Keeps s0 (State.holdLatch s t) := by
  refine hk.trans ?_
  clear hk
  unfold State.holdLatch
  with_reducible repeat' (first | exact Keeps.refl _ | apply ite_keep | apply State.modTask_keep | split | intro _ | dsimp only)
theorem State.overrun_keep {s : State} {t : Nat} (hk : Keeps s0 s) : Keeps s0 (State.overrun s t) := by
  refine hk.trans ?_
  clear hk
  unfold State.overrun
  with_reducible repeat' (first | exact Keeps.refl _ | apply ite_keep | apply State.modTask_keep | apply State.fault_keep | split | intro _ | dsimp only)
theorem State.mirrorHold_keep {s : State} {t : Nat} (hk : Keeps s0 s) : Keeps s0 (State.mirrorHold s t) := by
  refine hk.trans ?_
  clear hk
  unfold State.mirrorHold
  with_reducible repeat' (first | exact Keeps.refl _ | apply State.modTask_keep | apply State.modDpx_keep | intro _ | dsimp only)
theorem State.commitDue_keep {s : State} {t : Nat} (hk : Keeps s0 s) : Keeps s0 (State.commitDue s t) := by
  refine hk.trans ?_
  clear hk
  unfold State.commitDue
  with_reducible repeat' (first | exact Keeps.refl _ | apply ite_keep | refine foldl_keep (fun _ _ => ?_) ?_ | apply State.modProg_keep | apply State.event_keep | split | intro _ | dsimp only)
theorem State.commitMade_keep {s : State} {vals : List (Word × Word × Bytes)} (hk : Keeps s0 s) : Keeps s0 (State.commitMade s vals) := by
  refine hk.trans ?_
  clear hk
  unfold State.commitMade
  with_reducible repeat' (first | exact Keeps.refl _ | apply ite_keep | apply State.modProg_keep | split | intro _ | dsimp only)
theorem State.commitOlder_keep {s : State} (hk : Keeps s0 s) : Keeps s0 (State.commitOlder s) := by
  refine hk.trans ?_
  clear hk
  unfold State.commitOlder
  with_reducible repeat' (first | exact Keeps.refl _ | apply ite_keep | refine foldl_keep (fun _ _ => ?_) ?_ | apply State.commitMade_keep | apply State.modProg_keep | split | intro _ | dsimp only)
theorem State.commitAll_keep {s : State} (hk : Keeps s0 s) : Keeps s0 (State.commitAll s) := by
  refine hk.trans ?_
  clear hk
  unfold State.commitAll
  with_reducible repeat' (first | exact Keeps.refl _ | apply State.commitOlder_keep | apply State.commitMade_keep | intro _ | dsimp only)
theorem State.drainHold_keep {s : State} {t : Nat} {l : List Nat} {drained : Bool} (hk : Keeps s0 s) : Keeps s0 (State.drainHold s t l drained).1 := by
  refine hk.trans ?_
  clear hk
  unfold State.drainHold
  with_reducible repeat' (first | exact Keeps.refl _ | apply ite_keep | refine foldl_keep (fun _ _ => ?_) ?_ | apply State.modTask_keep | split | intro _ | dsimp only)
theorem State.drains_keep {s : State} {t : Nat} (hk : Keeps s0 s) : Keeps s0 (State.drains s t) := by
  refine hk.trans ?_
  clear hk
  unfold State.drains
  with_reducible repeat' (first | exact Keeps.refl _ | apply ite_keep | apply State.drainHold_keep | apply State.modProg_keep | apply State.modDpx_keep | split | intro _ | dsimp only)
theorem State.recovered_keep {s : State} (hk : Keeps s0 s) : Keeps s0 (State.recovered s) := by
  refine hk.trans ?_
  clear hk
  unfold State.recovered
  with_reducible repeat' (first | exact Keeps.refl _ | apply ite_keep | apply State.modCpr_keep | apply State.raisePairState_keep | apply State.resume_keep | split | intro _ | dsimp only)
theorem State.noteMirrored_keep {s : State} {l : List (Nat × Bytes × BitVec 16)} (hk : Keeps s0 s) : Keeps s0 (State.noteMirrored s l) := by
  refine hk.trans ?_
  clear hk
  unfold State.noteMirrored
  with_reducible repeat' (first | exact Keeps.refl _ | refine foldl_keep (fun _ _ => ?_) ?_ | apply State.modDpx_keep | intro _ | dsimp only)
theorem State.mirrorOut_keep {s : State} {t : Nat} {vars : List (Word × Bytes)} (hk : Keeps s0 s) : Keeps s0 (State.mirrorOut s t vars) := by
  refine hk.trans ?_
  clear hk
  unfold State.mirrorOut
  with_reducible repeat' (first | exact Keeps.refl _ | apply ite_keep | apply State.modDpx_keep | apply State.modTask_keep | apply State.noteMirrored_keep | apply State.emit_keep | apply State.bump_keep | split | intro _ | dsimp only)
theorem State.bodyDone_keep {s : State} {t : Nat} {b : Body} (hk : Keeps s0 s) : Keeps s0 (State.bodyDone s t b) := by
  refine hk.trans ?_
  clear hk
  unfold State.bodyDone
  with_reducible repeat' (first | exact Keeps.refl _ | apply ite_keep | refine foldl_keep (fun _ _ => ?_) ?_ | apply State.programRefused_keep | apply State.store_keep | apply State.modProg_keep | apply State.storeVars_keep | apply State.modCpr_keep | apply State.noteLog_keep | split | intro _ | dsimp only)
theorem State.handOver_keep {s : State} (hk : Keeps s0 s) : Keeps s0 (State.handOver s) := by
  refine hk.trans ?_
  clear hk
  unfold State.handOver
  with_reducible repeat' (first | exact Keeps.refl _ | apply ite_keep | apply State.modTri_keep | split | intro _ | dsimp only)
theorem State.publishPoint_keep {s : State} {t : Nat} {b : Body} (hk : Keeps s0 s) : Keeps s0 (State.publishPoint s t b) := by
  refine hk.trans ?_
  clear hk
  unfold State.publishPoint
  with_reducible repeat' (first | exact Keeps.refl _ | apply ite_keep | refine foldl_keep (fun _ _ => ?_) ?_ | apply State.bodyDone_keep | apply State.formMessages_keep | apply State.publish_keep | apply State.stopUnowned_keep | apply State.cover_keep | apply State.writeCons_keep | apply State.modCpr_keep | apply State.handOver_keep | apply State.modTask_keep | apply State.restate_keep | apply State.commitDue_keep | apply State.mirrorOut_keep | apply State.drains_keep | apply State.forceProgress_keep | apply State.constantsDone_keep | apply State.fault_keep | apply State.recovered_keep | split | intro _ | dsimp only)
theorem State.tickReadmit_keep {s : State} (hk : Keeps s0 s) : Keeps s0 (State.tickReadmit s) := by
  refine hk.trans ?_
  clear hk
  unfold State.tickReadmit
  with_reducible repeat' (first | exact Keeps.refl _ | apply ite_keep | apply State.readmitReady_keep | split | dsimp only)
theorem State.tickScrub_keep {s : State} (hk : Keeps s0 s) : Keeps s0 (State.tickScrub s) := by
  refine hk.trans ?_
  clear hk
  unfold State.tickScrub
  with_reducible repeat' (first | exact Keeps.refl _ | apply ite_keep | apply State.modTri_keep | split | intro _ | dsimp only)
theorem State.tickStretch_keep {s : State} (hk : Keeps s0 s) : Keeps s0 (State.tickStretch s) := by
  refine hk.trans ?_
  clear hk
  unfold State.tickStretch
  with_reducible repeat' (first | exact Keeps.refl _ | apply ite_keep | refine foldl_keep (fun _ _ => ?_) ?_ | apply State.modTask_keep | split | intro _ | dsimp only)
theorem State.setDue_keep {s : State} (hk : Keeps s0 s) : Keeps s0 (State.setDue s) := by
  refine hk.trans ?_
  clear hk
  unfold State.setDue
  with_reducible repeat' (first | exact Keeps.refl _ | apply ite_keep | refine foldl_keep (fun _ _ => ?_) ?_ | apply State.modTask_keep | split | intro _ | dsimp only)
theorem State.stileChanged_keep {s : State} (hk : Keeps s0 s) : Keeps s0 (State.stileChanged s) := by
  refine hk.trans ?_
  clear hk
  unfold State.stileChanged
  with_reducible repeat' (first | exact Keeps.refl _ | apply ite_keep | apply State.modDpx_keep | apply State.sendState_keep | split | intro _ | dsimp only)
theorem effBaseTick_keep {s : State} (hk : Keeps s0 s) : Keeps s0 (effBaseTick s) := by
  refine hk.trans ?_
  clear hk
  unfold effBaseTick
  with_reducible repeat' (first | exact Keeps.refl _ | apply ite_keep | apply State.tickStretch_keep | apply State.modSys_keep | apply State.setDue_keep | apply State.tickReadmit_keep | apply State.tickScrub_keep | apply State.stileChanged_keep | split | intro _ | dsimp only)
theorem State.firstLatch_keep {s : State} (hk : Keeps s0 s) : Keeps s0 (State.firstLatch s) := by
  refine hk.trans ?_
  clear hk
  unfold State.firstLatch
  with_reducible repeat' (first | exact Keeps.refl _ | apply State.modSys_keep | apply State.complete_keep | split | intro _ | dsimp only)
theorem State.latchPoint_keep {s : State} {t : Nat} (hk : Keeps s0 s) : Keeps s0 (State.latchPoint s t) := by
  refine hk.trans ?_
  clear hk
  unfold State.latchPoint
  with_reducible repeat' (first | exact Keeps.refl _ | apply ite_keep | apply State.stopTask_keep | apply State.holdLatch_keep | apply State.overrun_keep | apply State.mirrorMissed_keep | apply State.latch_keep | apply State.mirrorHold_keep | split | dsimp only)
theorem State.gapEnds_keep {s : State} {t : Nat} (hk : Keeps s0 s) : Keeps s0 (State.gapEnds s t) := by
  refine hk.trans ?_
  clear hk
  unfold State.gapEnds
  with_reducible repeat' (first | exact Keeps.refl _ | apply ite_keep | apply State.modDpx_keep | apply State.bump_keep | split | intro _ | dsimp only)
theorem State.latchFalls_keep {s : State} {t : Nat} (hk : Keeps s0 s) : Keeps s0 (State.latchFalls s t) := by
  refine hk.trans ?_
  clear hk
  unfold State.latchFalls
  with_reducible repeat' (first | exact Keeps.refl _ | apply State.modTask_keep | intro _ | dsimp only)
theorem effLatchPoint_keep {t : Fin 17} {s : State} (hk : Keeps s0 s) : Keeps s0 (effLatchPoint t s) := by
  refine hk.trans ?_
  clear hk
  unfold effLatchPoint
  with_reducible repeat' (first | exact Keeps.refl _ | apply ite_keep | apply State.latchFalls_keep | apply State.gapEnds_keep | apply State.firstLatch_keep | apply State.latchPoint_keep | split | dsimp only)
theorem effPublishPoint_keep {t : Fin 17} {b : Body} {s : State} (hk : Keeps s0 s) : Keeps s0 (effPublishPoint t b s) := by
  refine hk.trans ?_
  clear hk
  unfold effPublishPoint
  with_reducible repeat' (first | exact Keeps.refl _ | apply ite_keep | apply State.publishPoint_keep | split | dsimp only)
theorem effRetentiveCommit_keep {s : State} (hk : Keeps s0 s) : Keeps s0 (effRetentiveCommit s) := by
  refine hk.trans ?_
  clear hk
  unfold effRetentiveCommit
  with_reducible repeat' (first | exact Keeps.refl _ | apply ite_keep | apply State.modProg_keep | split | intro _ | dsimp only)
theorem State.persistMade_keep {s : State} {j : CommitJob} {h : Quad} {i : Word} (hk : Keeps s0 s) : Keeps s0 (State.persistMade s j h i) := by
  refine hk.trans ?_
  clear hk
  unfold State.persistMade
  with_reducible repeat' (first | exact Keeps.refl _ | apply ite_keep | refine foldl_keep (fun _ _ => ?_) ?_ | apply State.modProg_keep | apply State.fail_keep | apply State.commitMade_keep | apply State.complete_keep | apply State.storeVars_keep | split | intro _ | dsimp only)
theorem effCommitMade_keep {s : State} (hk : Keeps s0 s) : Keeps s0 (effCommitMade s) := by
  refine hk.trans ?_
  clear hk
  unfold effCommitMade
  with_reducible repeat' (first | exact Keeps.refl _ | apply ite_keep | apply State.persistMade_keep | apply State.commitMade_keep | apply State.modProg_keep | split | intro _ | dsimp only)
theorem effInitTaskTimeout_keep {s : State} (hk : Keeps s0 s) : Keeps s0 (effInitTaskTimeout s) := by
  refine hk.trans ?_
  clear hk
  unfold effInitTaskTimeout
  with_reducible repeat' (first | exact Keeps.refl _ | apply ite_keep | apply State.fault_keep | split | dsimp only)
theorem effLockstepMismatch_keep {k : PairKind} {logKib : Nat} {s : State} (hk : Keeps s0 s) : Keeps s0 (effLockstepMismatch k logKib s) := by
  refine hk.trans ?_
  clear hk
  unfold effLockstepMismatch
  with_reducible repeat' (first | exact Keeps.refl _ | apply State.pairMismatch_keep | split | dsimp only)
theorem State.pairUncorrectable_keep {s : State} (hk : Keeps s0 s) : Keeps s0 (State.pairUncorrectable s) := by
  refine hk.trans ?_
  clear hk
  unfold State.pairUncorrectable
  with_reducible repeat' (first | exact Keeps.refl _ | apply ite_keep | apply State.pairLost_keep | apply State.fault_keep | split | dsimp only)
theorem State.countL2_keep {s : State} {dram : Bool} {n : Nat} (hk : Keeps s0 s) : Keeps s0 (State.countL2 s dram n) := by
  refine hk.trans ?_
  clear hk
  unfold State.countL2
  with_reducible repeat' (first | exact Keeps.refl _ | apply ite_keep | apply State.modCpr_keep | split | intro _ | dsimp only)
theorem effCacheEccError_keep {e : CacheEvent} {s : State} (hk : Keeps s0 s) : Keeps s0 (effCacheEccError e s) := by
  refine hk.trans ?_
  clear hk
  unfold effCacheEccError
  with_reducible repeat' (first | exact Keeps.refl _ | apply ite_keep | apply State.modCpr_keep | apply State.countL2_keep | apply State.pairMismatch_keep | apply State.pairUncorrectable_keep | split | intro _ | dsimp only)
theorem effDramPatrolScrub_keep {corrected : Nat} {uncorrectable : Bool} {s : State} (hk : Keeps s0 s) : Keeps s0 (effDramPatrolScrub corrected uncorrectable s) := by
  refine hk.trans ?_
  clear hk
  unfold effDramPatrolScrub
  with_reducible repeat' (first | exact Keeps.refl _ | apply ite_keep | apply State.modCpr_keep | apply State.countL2_keep | apply State.pairUncorrectable_keep | split | intro _ | dsimp only)
theorem effPairSelfTestComplete_keep {pass : BitVec 2} {s : State} (hk : Keeps s0 s) : Keeps s0 (effPairSelfTestComplete pass s) := by
  refine hk.trans ?_
  clear hk
  unfold effPairSelfTestComplete
  with_reducible repeat' (first | exact Keeps.refl _ | apply ite_keep | apply State.pairLost_keep | apply State.modCpr_keep | apply State.raisePairState_keep | apply State.pairExclude_keep | split | intro _ | dsimp only)
theorem effCheckpointRestore_keep {s : State} (hk : Keeps s0 s) : Keeps s0 (effCheckpointRestore s) := by
  refine hk.trans ?_
  clear hk
  unfold effCheckpointRestore
  with_reducible repeat' (first | exact Keeps.refl _ | apply ite_keep | apply State.restore_keep | apply State.recovered_keep | split | intro _ | dsimp only)
theorem effProgramAccessRefused_keep {t : Fin 17} {access : Byte} {addr : Quad} {s : State} (hk : Keeps s0 s) : Keeps s0 (effProgramAccessRefused t access addr s) := by
  refine hk.trans ?_
  clear hk
  unfold effProgramAccessRefused
  with_reducible repeat' (first | exact Keeps.refl _ | apply ite_keep | apply State.programRefused_keep | split | dsimp only)
theorem State.bistSkip_keep {s : State} {occ : Nat} {cause : BitVec 2} (hk : Keeps s0 s) : Keeps s0 (State.bistSkip s occ cause) := by
  refine hk.trans ?_
  clear hk
  unfold State.bistSkip
  with_reducible repeat' (first | exact Keeps.refl _ | apply State.modBst_keep | apply State.raise_keep | intro _ | dsimp only)
theorem State.bistStore_keep {s : State} {occ : Nat} {o : BistOutcome} {logic mem : Bool} (hk : Keeps s0 s) : Keeps s0 (State.bistStore s occ o logic mem) := by
  refine hk.trans ?_
  clear hk
  unfold State.bistStore
  with_reducible repeat' (first | exact Keeps.refl _ | apply ite_keep | apply State.modBst_keep | apply State.raise_keep | split | intro _ | dsimp only)
theorem State.bist_keep {s : State} {occ : Nat} {o : BistOutcome} {logic mem : Bool} (hk : Keeps s0 s) : Keeps s0 (State.bist s occ o logic mem) := by
  refine hk.trans ?_
  clear hk
  unfold State.bist
  with_reducible repeat' (first | exact Keeps.refl _ | apply ite_keep | apply State.bistSkip_keep | apply State.bistStore_keep | split | dsimp only)
theorem State.writeRecord_keep {s : State} {added : Nat} (hk : Keeps s0 s) : Keeps s0 (State.writeRecord s added) := by
  refine hk.trans ?_
  clear hk
  unfold State.writeRecord
  with_reducible repeat' (first | exact Keeps.refl _ | apply State.modBst_keep | intro _ | dsimp only)
theorem State.startBist_keep {s : State} {o : BistOutcome} (hk : Keeps s0 s) : Keeps s0 (State.startBist s o).1 := by
  refine hk.trans ?_
  clear hk
  unfold State.startBist
  with_reducible repeat' (first | exact Keeps.refl _ | apply ite_keep | apply State.modBst_keep | apply State.bist_keep | split | intro _ | dsimp only)
theorem State.startBist_eq_keep {s t : State} {o : BistOutcome} {b : Bool} (e : s.startBist o = (t, b)) (hk : Keeps s0 s) :
    Keeps s0 t := by
  have h := State.startBist_keep (o := o) hk
  rw [e] at h; exact h
theorem effBistDue_keep {s : State} (hk : Keeps s0 s) : Keeps s0 (effBistDue s) := by
  refine hk.trans ?_
  clear hk
  unfold effBistDue
  with_reducible repeat' (first | exact Keeps.refl _ | apply ite_keep | apply State.modBst_keep | apply State.raise_keep | apply State.iff_keep | apply State.setEvent_keep | split | intro _ | dsimp only)
theorem State.logPart_keep {s : State} {code : BitVec 16} {part : Nat} {payload : Bytes} (hk : Keeps s0 s) : Keeps s0 (State.logPart s code part payload) := by
  refine hk.trans ?_
  clear hk
  unfold State.logPart
  with_reducible repeat' (first | exact Keeps.refl _ | apply State.raise_keep | apply State.bump_keep | dsimp only)
theorem State.nextChange_keep {s : State} (hk : Keeps s0 s) : Keeps s0 (State.nextChange s) := by
  refine hk.trans ?_
  clear hk
  unfold State.nextChange
  with_reducible repeat' (first | exact Keeps.refl _ | apply State.modSaf_keep | intro _ | dsimp only)
theorem State.logUser_keep {s : State} {user : Bytes} (hk : Keeps s0 s) : Keeps s0 (State.logUser s user) := by
  refine hk.trans ?_
  clear hk
  unfold State.logUser; try dsimp only
  repeat' (first | with_reducible assumption | with_reducible exact Keeps.refl _ | with_reducible apply ite_keep | with_reducible refine foldl_keep (fun _ _ => ?_) ?_ | with_reducible apply State.logPart_keep | (intro k; (try dsimp only); (first | with_reducible exact k | with_reducible exact Tbl.wf_updAll _ _ _ _ k | with_reducible exact Tbl.wf_upd _ _ _ _ k | with_reducible exact Tbl.wf_store _ _ _ k | exact ⟨k.1, k.2.1, k.2.2.1, k.2.2.2⟩ | exact ⟨Tbl.wf_store _ _ _ k.1, k.2.1, k.2.2.1, k.2.2.2⟩ | exact ⟨k.1, Tbl.wf_store _ _ _ k.2.1, k.2.2.1, k.2.2.2⟩ | exact ⟨k.1, rfl, k.2.2.1, k.2.2.2⟩ | exact ⟨rfl, k.2.1, rfl, k.2.2.2⟩ | exact ⟨rfl, k.2.1, k.2.2.1, k.2.2.2⟩ | exact ⟨k.1, k.2.1, k.2.2.1, rfl⟩ | rfl)) | split | intro _ | dsimp only)
theorem State.logFailed_keep {s : State} {n : Nat} {locks : Bool} {user : Bytes} (hk : Keeps s0 s) : Keeps s0 (State.logFailed s n locks user) := by
  refine hk.trans ?_
  clear hk
  unfold State.logFailed
  with_reducible repeat' (first | exact Keeps.refl _ | apply ite_keep | apply State.nextChange_keep | apply State.logPart_keep | apply State.logUser_keep | split | dsimp only)
theorem State.logChange_keep {s : State} {items : Nat} {kind : Byte} {user : Bytes} {old new : BitVec 256} (hk : Keeps s0 s) : Keeps s0 (State.logChange s items kind user old new).1 := by
  refine hk.trans ?_
  clear hk
  unfold State.logChange
  with_reducible repeat' (first | exact Keeps.refl _ | apply ite_keep | refine foldl_keep (fun _ _ => ?_) ?_ | apply State.nextChange_keep | apply State.logPart_keep | apply State.logUser_keep | split | intro _ | dsimp only)
theorem State.logContainer_keep {s : State} {c : Container} (hk : Keeps s0 s) : Keeps s0 (State.logContainer s c) := by
  refine hk.trans ?_
  clear hk
  unfold State.logContainer
  with_reducible repeat' (first | exact Keeps.refl _ | refine foldl_keep (fun _ _ => ?_) ?_ | apply State.nextChange_keep | apply State.logPart_keep | intro _ | dsimp only)
theorem State.passFailed_keep {s : State} {h : Quad} {user : Bytes} (hk : Keeps s0 s) : Keeps s0 (State.passFailed s h user) := by
  refine hk.trans ?_
  clear hk
  unfold State.passFailed
  with_reducible repeat' (first | exact Keeps.refl _ | apply ite_keep | apply State.modSaf_keep | apply State.logFailed_keep | apply State.fail_keep | split | intro _ | dsimp only)
theorem State.changeCommit_keep {s : State} {h : Quad} {b : Bytes} (hk : Keeps s0 s) : Keeps s0 (State.changeCommit s h b) := by
  refine hk.trans ?_
  clear hk
  unfold State.changeCommit
  with_reducible repeat' (first | exact Keeps.refl _ | apply ite_keep | apply State.modSaf_keep | apply State.bump_keep | apply State.logChange_keep | apply State.executing_keep | apply State.applyChannels_keep | apply State.constantsDone_keep | split | intro _ | dsimp only)
theorem effSafetyParamChange_keep {h : Quad} {b : SentBuf} {s : State} (hk : Keeps s0 s) : Keeps s0 (effSafetyParamChange h b s) := by
  refine hk.trans ?_
  clear hk
  unfold effSafetyParamChange
  with_reducible repeat' (first | exact Keeps.refl _ | apply ite_keep | apply State.begin_keep | apply State.fail_keep | apply State.passFailed_keep | apply State.modSaf_keep | apply State.sendItem_keep | apply State.changeCommit_keep | split | intro _ | dsimp only)
theorem effPasswordLockoutEnd_keep {s : State} (hk : Keeps s0 s) : Keeps s0 (effPasswordLockoutEnd s) := by
  refine hk.trans ?_
  clear hk
  unfold effPasswordLockoutEnd
  with_reducible repeat' (first | exact Keeps.refl _ | apply ite_keep | apply State.modSaf_keep | split | intro _ | dsimp only)
theorem State.recordLossy_keep {s : State} {l : List (Word × Nat)} (hk : Keeps s0 s) : Keeps s0 (State.recordLossy s l) := by
  refine hk.trans ?_
  clear hk
  unfold State.recordLossy
  with_reducible repeat' (first | exact Keeps.refl _ | refine foldl_keep (fun _ _ => ?_) ?_ | apply State.raise_keep | intro _ | dsimp only)
theorem State.dropForces_keep {s : State} {ring : Nat} {desc : Bytes} {x : ForceFate} {cause : Byte} (hk : Keeps s0 s) : Keeps s0 (State.dropForces s ring desc x cause) := by
  refine hk.trans ?_
  clear hk
  unfold State.dropForces
  with_reducible repeat' (first | exact Keeps.refl _ | apply ite_keep | refine foldl_keep (fun _ _ => ?_) ?_ | apply State.modProg_keep | apply State.output_keep | apply State.raise_keep | split | intro _ | dsimp only)
theorem State.installContainer_keep {s : State} {c : Container} {b : Bytes} {old : Option Container} (hk : Keeps s0 s) : Keeps s0 (State.installContainer s c b old) := by
  refine hk.trans ?_
  clear hk
  unfold State.installContainer
  with_reducible repeat' (first | exact Keeps.refl _ | apply ite_keep | apply State.modProg_keep | apply State.fresh_keep | apply State.store_keep | apply State.modSys_keep | apply State.recordLossy_keep | apply State.setTasks_keep | apply State.publishStops_keep | apply State.loadLanes_keep | apply State.holdAll_keep | apply State.logContainer_keep | split | intro _ | dsimp only)
theorem State.doLoad_keep {s : State} {e : JEntry} {b : SentBuf} {kind part : Byte} {outOk lanesAgree : Bool} (hk : Keeps s0 s) : Keeps s0 (State.doLoad s e b kind part outOk lanesAgree) := by
  refine hk.trans ?_
  clear hk
  unfold State.doLoad
  with_reducible repeat' (first | exact Keeps.refl _ | apply ite_keep | apply State.fail_keep | apply State.refuseLoad_keep | apply State.refuse_keep | apply State.sendItem_keep | apply State.dropForces_keep | apply State.complete_keep | apply State.installContainer_keep | split | dsimp only)
theorem effContainerLoad_keep {h : Quad} {b : SentBuf} {outOk lanesAgree : Bool} {s : State} (hk : Keeps s0 s) : Keeps s0 (effContainerLoad h b outOk lanesAgree s) := by
  refine hk.trans ?_
  clear hk
  unfold effContainerLoad
  with_reducible repeat' (first | exact Keeps.refl _ | apply State.begin_keep | apply State.doLoad_keep | intro _ | dsimp only)
theorem effProgLoad_keep {h : Quad} {b : SentBuf} {outOk : Bool} {s : State} (hk : Keeps s0 s) : Keeps s0 (effProgLoad h b outOk s) := by
  refine hk.trans ?_
  clear hk
  unfold effProgLoad
  with_reducible repeat' (first | exact Keeps.refl _ | apply State.begin_keep | apply State.doLoad_keep | intro _ | dsimp only)
theorem State.startChange_keep {s : State} {e : JEntry} {c old : Container} {p : Byte} {x : Bytes} {partnerOk : Bool} (hk : Keeps s0 s) : Keeps s0 (State.startChange s e c old p x partnerOk) := by
  refine hk.trans ?_
  clear hk
  unfold State.startChange
  with_reducible repeat' (first | exact Keeps.refl _ | apply ite_keep | apply State.sendItem_keep | apply State.executing_keep | apply State.modProg_keep | apply State.dropForces_keep | split | intro _ | dsimp only)
theorem effOnlineChange_keep {h : Quad} {b : SentBuf} {s : State} (hk : Keeps s0 s) : Keeps s0 (effOnlineChange h b s) := by
  refine hk.trans ?_
  clear hk
  unfold effOnlineChange
  with_reducible repeat' (first | exact Keeps.refl _ | apply ite_keep | apply State.begin_keep | apply State.fail_keep | apply State.refuse_keep | apply State.fresh_keep | apply State.refuseLoad_keep | apply State.dropForces_keep | apply State.startChange_keep | apply State.complete_keep | split | intro _ | dsimp only)
theorem State.modOlc_keep {s : State} {f : Olc → Olc} (hk : Keeps s0 s) : Keeps s0 (State.modOlc s f) := by
  refine hk.trans ?_
  clear hk
  unfold State.modOlc
  with_reducible repeat' (first | exact Keeps.refl _ | apply State.modProg_keep | intro _ | dsimp only)
theorem effPreCopyPass_keep {residueKib : Nat} {s : State} (hk : Keeps s0 s) : Keeps s0 (effPreCopyPass residueKib s) := by
  refine hk.trans ?_
  clear hk
  unfold effPreCopyPass
  with_reducible repeat' (first | exact Keeps.refl _ | apply ite_keep | apply State.modProg_keep | apply State.modOlc_keep | apply State.refuse_keep | split | intro _ | dsimp only)
theorem effDrain_keep {s : State} (hk : Keeps s0 s) : Keeps s0 (effDrain s) := by
  refine hk.trans ?_
  clear hk
  unfold effDrain
  with_reducible repeat' (first | exact Keeps.refl _ | apply ite_keep | apply State.modOlc_keep | split | intro _ | dsimp only)
theorem State.unbindOld_keep {s : State} {old new : Container} (hk : Keeps s0 s) : Keeps s0 (State.unbindOld s old new) := by
  refine hk.trans ?_
  clear hk
  unfold State.unbindOld
  with_reducible repeat' (first | exact Keeps.refl _ | apply ite_keep | refine foldl_keep (fun _ _ => ?_) ?_ | apply State.modSwd_keep | split | intro _ | dsimp only)
theorem State.resumeChanged_keep {s : State} {part : Byte} (hk : Keeps s0 s) : Keeps s0 (State.resumeChanged s part) := by
  refine hk.trans ?_
  clear hk
  unfold State.resumeChanged
  with_reducible repeat' (first | exact Keeps.refl _ | apply ite_keep | refine foldl_keep (fun _ _ => ?_) ?_ | apply State.setTasks_keep | apply State.modTask_keep | apply State.resume_keep | split | intro _ | dsimp only)
theorem State.switchTo_keep {s : State} {o : Olc} {old : Container} {c : Container} {lossy : List (Word × Nat)} {outOk : Bool} (hk : Keeps s0 s) : Keeps s0 (State.switchTo s o old c lossy outOk) := by
  refine hk.trans ?_
  clear hk
  unfold State.switchTo
  with_reducible repeat' (first | exact Keeps.refl _ | apply ite_keep | apply State.modProg_keep | apply State.fail_keep | apply State.store_keep | apply State.recordLossy_keep | apply State.dropForces_keep | apply State.unbindOld_keep | apply State.publishStops_keep | apply State.stopUnowned_keep | apply State.commitAll_keep | apply State.resumeChanged_keep | apply State.complete_keep | split | intro _ | dsimp only)
theorem effSwitchWindow_keep {partnerAck outOk : Bool} {s : State} (hk : Keeps s0 s) : Keeps s0 (effSwitchWindow partnerAck outOk s) := by
  refine hk.trans ?_
  clear hk
  unfold effSwitchWindow
  with_reducible repeat' (first | exact Keeps.refl _ | apply ite_keep | apply State.modProg_keep | apply State.fail_keep | apply State.refuse_keep | apply State.switchTo_keep | split | intro _ | dsimp only)
theorem State.awaitPoints_keep {s : State} {h : Quad} {fs : List Force} (hk : Keeps s0 s) : Keeps s0 (State.awaitPoints s h fs) := by
  refine hk.trans ?_
  clear hk
  unfold State.awaitPoints
  with_reducible repeat' (first | exact Keeps.refl _ | apply State.refreeze_keep | apply State.executing_keep | apply State.modProg_keep | apply State.forceProgress_keep | intro _ | dsimp only)
theorem State.doForceSet_keep {s : State} {e : JEntry} (hk : Keeps s0 s) : Keeps s0 (State.doForceSet s e) := by
  refine hk.trans ?_
  clear hk
  unfold State.doForceSet
  with_reducible repeat' (first | exact Keeps.refl _ | apply ite_keep | apply State.fail_keep | apply State.refuse_keep | apply State.modProg_keep | apply State.awaitPoints_keep | split | intro _ | dsimp only)
theorem effForceSet_keep {h : Quad} {s : State} (hk : Keeps s0 s) : Keeps s0 (effForceSet h s) := by
  refine hk.trans ?_
  clear hk
  unfold effForceSet
  with_reducible repeat' (first | exact Keeps.refl _ | apply State.begin_keep | apply State.doForceSet_keep | intro _ | dsimp only)
theorem effForceAddr_keep {h : Quad} {s : State} (hk : Keeps s0 s) : Keeps s0 (effForceAddr h s) := by
  refine hk.trans ?_
  clear hk
  unfold effForceAddr
  with_reducible repeat' (first | exact Keeps.refl _ | apply State.begin_keep | apply State.doForceSet_keep | intro _ | dsimp only)
theorem State.doForceClear_keep {s : State} {e : JEntry} (hk : Keeps s0 s) : Keeps s0 (State.doForceClear s e) := by
  refine hk.trans ?_
  clear hk
  unfold State.doForceClear
  with_reducible repeat' (first | exact Keeps.refl _ | apply ite_keep | apply State.fail_keep | apply State.modProg_keep | apply State.awaitPoints_keep | split | intro _ | dsimp only)
theorem effForceClear_keep {h : Quad} {s : State} (hk : Keeps s0 s) : Keeps s0 (effForceClear h s) := by
  refine hk.trans ?_
  clear hk
  unfold effForceClear
  with_reducible repeat' (first | exact Keeps.refl _ | apply State.begin_keep | apply State.doForceClear_keep | intro _ | dsimp only)
theorem effUnforceAddr_keep {h : Quad} {s : State} (hk : Keeps s0 s) : Keeps s0 (effUnforceAddr h s) := by
  refine hk.trans ?_
  clear hk
  unfold effUnforceAddr
  with_reducible repeat' (first | exact Keeps.refl _ | apply State.begin_keep | apply State.doForceClear_keep | intro _ | dsimp only)
theorem State.doForceList_keep {s : State} {e : JEntry} {outOk : Bool} (hk : Keeps s0 s) : Keeps s0 (State.doForceList s e outOk) := by
  refine hk.trans ?_
  clear hk
  unfold State.doForceList
  with_reducible repeat' (first | exact Keeps.refl _ | apply ite_keep | apply State.fail_keep | apply State.output_keep | apply State.complete_keep | split | dsimp only)
theorem effForceList_keep {h : Quad} {outOk : Bool} {s : State} (hk : Keeps s0 s) : Keeps s0 (effForceList h outOk s) := by
  refine hk.trans ?_
  clear hk
  unfold effForceList
  with_reducible repeat' (first | exact Keeps.refl _ | apply State.begin_keep | apply State.doForceList_keep | intro _ | dsimp only)
theorem effPersistentReset_keep {h : Quad} {s : State} (hk : Keeps s0 s) : Keeps s0 (effPersistentReset h s) := by
  refine hk.trans ?_
  clear hk
  unfold effPersistentReset
  with_reducible repeat' (first | exact Keeps.refl _ | apply State.begin_keep | apply State.fail_keep | apply State.executing_keep | apply State.modProg_keep | split | intro _ | dsimp only)
theorem State.doManifest_keep {s : State} {h : Quad} {x : Bytes} (hk : Keeps s0 s) : Keeps s0 (State.doManifest s h x) := by
  refine hk.trans ?_
  clear hk
  unfold State.doManifest
  with_reducible repeat' (first | exact Keeps.refl _ | apply ite_keep | apply State.fail_keep | apply State.refuse_keep | apply State.modSlot_keep | apply State.complete_keep | split | intro _ | dsimp only)
theorem effUpdateManifest_keep {h : Quad} {b : Buf} {s : State} (hk : Keeps s0 s) : Keeps s0 (effUpdateManifest h b s) := by
  refine hk.trans ?_
  clear hk
  unfold effUpdateManifest
  with_reducible repeat' (first | exact Keeps.refl _ | apply State.begin_keep | apply State.fail_keep | apply State.doManifest_keep | split | intro _ | dsimp only)
theorem effUpdateBlock_keep {h : Quad} {b : Buf} {readBackOk : Bool} {s : State} (hk : Keeps s0 s) : Keeps s0 (effUpdateBlock h b readBackOk s) := by
  refine hk.trans ?_
  clear hk
  unfold effUpdateBlock
  with_reducible repeat' (first | exact Keeps.refl _ | apply ite_keep | apply State.begin_keep | apply State.fail_keep | apply State.refuse_keep | apply State.modSlot_keep | apply State.complete_keep | split | intro _ | dsimp only)
theorem State.armRecord_keep {s : State} {ev : Nat} {sev : BitVec 4} {a : Arming} (hk : Keeps s0 s) : Keeps s0 (State.armRecord s ev sev a) := by
  refine hk.trans ?_
  clear hk
  unfold State.armRecord
  with_reducible exact State.raise_keep (Keeps.refl _)
theorem effUpdateArm_keep {h : Quad} {s : State} (hk : Keeps s0 s) : Keeps s0 (effUpdateArm h s) := by
  refine hk.trans ?_
  clear hk
  unfold effUpdateArm
  with_reducible repeat' (first | exact Keeps.refl _ | apply ite_keep | apply State.begin_keep | apply State.fail_keep | apply State.modUpd_keep | apply State.armRecord_keep | apply State.complete_keep | split | intro _ | dsimp only)
theorem effUpdateCancel_keep {h : Quad} {s : State} (hk : Keeps s0 s) : Keeps s0 (effUpdateCancel h s) := by
  refine hk.trans ?_
  clear hk
  unfold effUpdateCancel
  with_reducible repeat' (first | exact Keeps.refl _ | apply ite_keep | apply State.begin_keep | apply State.cancelArmed_keep | apply State.complete_keep | split | intro _ | dsimp only)
theorem effCheckPoint_keep {beacon : Option (BitVec 256)} {s : State} (hk : Keeps s0 s) : Keeps s0 (effCheckPoint beacon s) := by
  refine hk.trans ?_
  clear hk
  unfold effCheckPoint
  with_reducible repeat' (first | exact Keeps.refl _ | apply ite_keep | apply State.cancelArmed_keep | apply State.modUpd_keep | split | intro _ | dsimp only)
theorem State.activate_keep {s : State} (hk : Keeps s0 s) : Keeps s0 (State.activate s) := by
  refine hk.trans ?_
  clear hk
  unfold State.activate
  with_reducible repeat' (first | exact Keeps.refl _ | apply ite_keep | apply State.modAllTasks_keep | apply State.publishStops_keep | apply State.setMode_keep | apply State.modUpd_keep | apply State.armRecord_keep | apply State.swapSlots_keep | apply State.enterStart_keep | split | intro _ | dsimp only)
theorem effActivationBoundary_keep {s : State} (hk : Keeps s0 s) : Keeps s0 (effActivationBoundary s) := by
  refine hk.trans ?_
  clear hk
  unfold effActivationBoundary
  with_reducible exact State.activate_keep (Keeps.refl _)
theorem effFuseRule_keep {s : State} (hk : Keeps s0 s) : Keeps s0 (effFuseRule s) := by
  refine hk.trans ?_
  clear hk
  unfold effFuseRule; dsimp only
  split
  · refine State.raise_keep (State.modUpd_keep (State.blow_keep ?_ ?_ (Keeps.refl _)))
    · split <;> omega
    · ext i; simp; exact fun a => Or.inl a
  · exact Keeps.refl _
theorem State.doIdentity_keep {s : State} {e : JEntry} {outOk : Bool} (hk : Keeps s0 s) : Keeps s0 (State.doIdentity s e outOk) := by
  refine hk.trans ?_
  clear hk
  unfold State.doIdentity
  with_reducible repeat' (first | exact Keeps.refl _ | apply ite_keep | apply State.fail_keep | apply State.output_keep | apply State.complete_keep | split | dsimp only)
theorem effIdentityGet_keep {h : Quad} {outOk : Bool} {s : State} (hk : Keeps s0 s) : Keeps s0 (effIdentityGet h outOk s) := by
  refine hk.trans ?_
  clear hk
  unfold effIdentityGet
  with_reducible repeat' (first | exact Keeps.refl _ | apply State.begin_keep | apply State.doIdentity_keep | intro _ | dsimp only)
theorem effAttest_keep {h : Quad} {outOk : Bool} {s : State} (hk : Keeps s0 s) : Keeps s0 (effAttest h outOk s) := by
  refine hk.trans ?_
  clear hk
  unfold effAttest
  with_reducible repeat' (first | exact Keeps.refl _ | apply ite_keep | apply State.begin_keep | apply State.fail_keep | apply State.output_keep | apply State.complete_keep | split | intro _ | dsimp only)
theorem State.openScopes_keep {s : State} {sc : Byte} {expiry : Quad} (hk : Keeps s0 s) : Keeps s0 (State.openScopes s sc expiry) := by
  refine hk.trans ?_
  clear hk
  unfold State.openScopes; try dsimp only
  repeat' (first | with_reducible assumption | with_reducible exact Keeps.refl _ | with_reducible apply ite_keep | with_reducible refine foldl_keep (fun _ _ => ?_) ?_ | with_reducible apply State.modUpd_keep | with_reducible apply State.modSys_keep | with_reducible apply State.modTri_keep | with_reducible apply State.modFld_keep | (intro k; (try dsimp only); (first | with_reducible exact k | with_reducible exact Tbl.wf_updAll _ _ _ _ k | with_reducible exact Tbl.wf_upd _ _ _ _ k | with_reducible exact Tbl.wf_store _ _ _ k | exact ⟨k.1, k.2.1, k.2.2.1, k.2.2.2⟩ | exact ⟨Tbl.wf_store _ _ _ k.1, k.2.1, k.2.2.1, k.2.2.2⟩ | exact ⟨k.1, Tbl.wf_store _ _ _ k.2.1, k.2.2.1, k.2.2.2⟩ | exact ⟨k.1, rfl, k.2.2.1, k.2.2.2⟩ | exact ⟨rfl, k.2.1, rfl, k.2.2.2⟩ | exact ⟨rfl, k.2.1, k.2.2.1, k.2.2.2⟩ | exact ⟨k.1, k.2.1, k.2.2.1, rfl⟩ | rfl)) | split | intro _ | dsimp only)
theorem effDebugToken_keep {h : Quad} {b : Buf} {s : State} (hk : Keeps s0 s) : Keeps s0 (effDebugToken h b s) := by
  refine hk.trans ?_
  clear hk
  unfold effDebugToken
  with_reducible repeat' (first | exact Keeps.refl _ | apply ite_keep | apply State.begin_keep | apply State.fail_keep | apply State.refuse_keep | apply State.openScopes_keep | apply State.complete_keep | split | intro _ | dsimp only)
theorem effDebugExpiry_keep {s : State} (hk : Keeps s0 s) : Keeps s0 (effDebugExpiry s) := by
  refine hk.trans ?_
  clear hk
  unfold effDebugExpiry
  with_reducible repeat' (first | exact Keeps.refl _ | apply ite_keep | apply State.modUpd_keep | apply State.modTri_keep | split | intro _ | dsimp only)
theorem effUsbRecoveryImage_keep {manifest : Bytes} {blocks : List Bytes} {s : State} (hk : Keeps s0 s) : Keeps s0 (effUsbRecoveryImage manifest blocks s) := by
  refine hk.trans ?_
  clear hk
  unfold effUsbRecoveryImage
  with_reducible repeat' (first | exact Keeps.refl _ | apply ite_keep | refine foldl_keep (fun _ _ => ?_) ?_ | apply State.modSlot_keep | apply State.swapSlots_keep | apply State.modUpd_keep | apply State.recovered_keep | split | intro _ | dsimp only)
theorem State.runInits_keep {s : State} {cs : List Container} {b : Body} (hk : Keeps s0 s) : Keeps s0 (State.runInits s cs b) := by
  refine hk.trans ?_
  clear hk
  unfold State.runInits
  with_reducible repeat' (first | exact Keeps.refl _ | refine foldl_keep (fun _ _ => ?_) ?_ | apply State.promote_keep | apply State.store_keep | apply State.modProg_keep | apply State.storeVars_keep | apply State.prune_keep | intro _ | dsimp only)
theorem State.enterRun_keep {s : State} {trigger : Nat} (hk : Keeps s0 s) : Keeps s0 (State.enterRun s trigger) := by
  refine hk.trans ?_
  clear hk
  unfold State.enterRun
  with_reducible repeat' (first | exact Keeps.refl _ | apply ite_keep | apply State.setMode_keep | apply State.modAllTasks_keep | split | intro _ | dsimp only)
theorem State.goRun_keep {s : State} {h : Quad} (hk : Keeps s0 s) : Keeps s0 (State.goRun s h) := by
  refine hk.trans ?_
  clear hk
  unfold State.goRun
  with_reducible repeat' (first | exact Keeps.refl _ | apply ite_keep | apply State.modProg_keep | apply State.fresh_keep | apply State.enterRun_keep | apply State.modSys_keep | apply State.complete_keep | split | intro _ | dsimp only)
theorem State.doRun_keep {s : State} {e : JEntry} {b : Body} (hk : Keeps s0 s) : Keeps s0 (State.doRun s e b) := by
  refine hk.trans ?_
  clear hk
  unfold State.doRun
  with_reducible repeat' (first | exact Keeps.refl _ | apply ite_keep | apply State.refuseLoad_keep | apply State.executing_keep | apply State.goRun_keep | apply State.modSys_keep | apply State.bump_keep | split | intro _ | dsimp only)
theorem State.initEnded_keep {s : State} (hk : Keeps s0 s) : Keeps s0 (State.initEnded s) := by
  refine hk.trans ?_
  clear hk
  unfold State.initEnded
  with_reducible repeat' (first | exact Keeps.refl _ | apply ite_keep | apply State.modSys_keep | apply State.fail_keep | apply State.runInits_keep | apply State.goRun_keep | split | intro _ | dsimp only)
theorem State.modeTrigger_keep {s : State} {h : Quad} {op : BitVec 16} {v1 : Bool} {f : JEntry → State} (hf : ∀ e, Keeps s (f e)) (hk : Keeps s0 s) : Keeps s0 (State.modeTrigger s h op v1 f) := by
  refine hk.trans ?_
  clear hk
  unfold State.modeTrigger
  split
  · exact State.activate_keep (State.begin_keep (fun _ => State.fail_keep (Keeps.refl _)) (Keeps.refl _))
  · exact State.begin_keep hf (Keeps.refl _)
theorem effModeRun_keep {h : Quad} {b : Body} {s : State} (hk : Keeps s0 s) : Keeps s0 (effModeRun h b s) := by
  refine hk.trans ?_
  clear hk
  unfold effModeRun
  with_reducible repeat' (first | exact Keeps.refl _ | apply State.modeTrigger_keep | apply State.doRun_keep | intro _ | dsimp only)
theorem effGoV1_keep {h : Quad} {b : Body} {s : State} (hk : Keeps s0 s) : Keeps s0 (effGoV1 h b s) := by
  refine hk.trans ?_
  clear hk
  unfold effGoV1
  with_reducible repeat' (first | exact Keeps.refl _ | apply State.modeTrigger_keep | apply State.doRun_keep | intro _ | dsimp only)
theorem State.doStop_keep {s : State} {e : JEntry} (hk : Keeps s0 s) : Keeps s0 (State.doStop s e) := by
  refine hk.trans ?_
  clear hk
  unfold State.doStop
  with_reducible repeat' (first | exact Keeps.refl _ | apply ite_keep | apply State.executing_keep | apply State.modSys_keep | apply State.finishStop_keep | split | intro _ | dsimp only)
theorem effModeStop_keep {h : Quad} {s : State} (hk : Keeps s0 s) : Keeps s0 (effModeStop h s) := by
  refine hk.trans ?_
  clear hk
  unfold effModeStop
  with_reducible repeat' (first | exact Keeps.refl _ | apply State.modeTrigger_keep | apply State.doStop_keep | intro _ | dsimp only)
theorem effHoldV1_keep {h : Quad} {s : State} (hk : Keeps s0 s) : Keeps s0 (effHoldV1 h s) := by
  refine hk.trans ?_
  clear hk
  unfold effHoldV1
  with_reducible repeat' (first | exact Keeps.refl _ | apply State.modeTrigger_keep | apply State.doStop_keep | intro _ | dsimp only)
theorem effServiceEnter_keep {h : Quad} {s : State} (hk : Keeps s0 s) : Keeps s0 (effServiceEnter h s) := by
  refine hk.trans ?_
  clear hk
  unfold effServiceEnter
  with_reducible repeat' (first | exact Keeps.refl _ | apply State.modeTrigger_keep | apply State.setMode_keep | apply State.complete_keep | intro _ | dsimp only)
theorem effServiceLeave_keep {h : Quad} {s : State} (hk : Keeps s0 s) : Keeps s0 (effServiceLeave h s) := by
  refine hk.trans ?_
  clear hk
  unfold effServiceLeave
  with_reducible repeat' (first | exact Keeps.refl _ | apply ite_keep | apply State.begin_keep | apply State.fail_keep | apply State.refuse_keep | apply State.setMode_keep | apply State.complete_keep | split | intro _ | dsimp only)
theorem State.ringStart_keep {s : State} {k : StartKind} {e : JEntry} (hk : Keeps s0 s) : Keeps s0 (State.ringStart s k e) := by
  refine hk.trans ?_
  clear hk
  unfold State.ringStart
  with_reducible repeat' (first | exact Keeps.refl _ | apply State.commitOnly_keep | apply State.enterStart_keep | dsimp only)
theorem State.usbStart_keep {s : State} {k : StartKind} (hk : Keeps s0 s) : Keeps s0 (State.usbStart s k) := by
  refine hk.trans ?_
  clear hk
  unfold State.usbStart
  with_reducible repeat' (first | exact Keeps.refl _ | apply ite_keep | apply State.recovered_keep | apply State.modSys_keep | apply State.enterStart_keep | split | intro _ | dsimp only)
theorem effStartWarm_keep {src : Source} {s : State} (hk : Keeps s0 s) : Keeps s0 (effStartWarm src s) := by
  refine hk.trans ?_
  clear hk
  unfold effStartWarm
  split
  · exact State.begin_keep (fun _ => State.ringStart_keep (Keeps.refl _)) (Keeps.refl _)
  · exact State.usbStart_keep (Keeps.refl _)
theorem effStartCold_keep {src : Source} {s : State} (hk : Keeps s0 s) : Keeps s0 (effStartCold src s) := by
  refine hk.trans ?_
  clear hk
  unfold effStartCold
  split
  · exact State.begin_keep (fun _ => State.ringStart_keep (Keeps.refl _)) (Keeps.refl _)
  · exact State.usbStart_keep (Keeps.refl _)
theorem effRestartV1_keep {h : Quad} {s : State} (hk : Keeps s0 s) : Keeps s0 (effRestartV1 h s) := by
  refine hk.trans ?_
  clear hk
  unfold effRestartV1
  exact State.begin_keep (fun _ => State.ringStart_keep (Keeps.refl _)) (Keeps.refl _)
theorem effInitV1_keep {h : Quad} {s : State} (hk : Keeps s0 s) : Keeps s0 (effInitV1 h s) := by
  refine hk.trans ?_
  clear hk
  unfold effInitV1
  exact State.begin_keep (fun _ => State.ringStart_keep (Keeps.refl _)) (Keeps.refl _)
theorem State.shutdownRecord_keep {s : State} {stage : Nat} {left : Nat} (hk : Keeps s0 s) : Keeps s0 (State.shutdownRecord s stage left) := by
  refine hk.trans ?_
  clear hk
  unfold State.shutdownRecord
  with_reducible repeat' (first | exact Keeps.refl _ | apply State.raise_keep | apply State.stage_keep | dsimp only)
theorem State.shutdownTest_keep {s : State} {o : BistOutcome} (hk : Keeps s0 s) : Keeps s0 (State.shutdownTest s o) := by
  refine hk.trans ?_
  clear hk
  unfold State.shutdownTest
  with_reducible repeat' (first | exact Keeps.refl _ | apply State.commitAll_keep | apply State.modHl1_keep | apply State.modHl2_keep | apply State.bist_keep | apply State.writeRecord_keep | dsimp only)
theorem State.shutdownAnswer_keep {s : State} {h : Quad} {left : Nat} (hk : Keeps s0 s) : Keeps s0 (State.shutdownAnswer s h left) := by
  refine hk.trans ?_
  clear hk
  exact State.free_keep (State.complete_keep (Keeps.refl _))
theorem State.shutdownOff_keep {s : State} {left : Nat} (hk : Keeps s0 s) : Keeps s0 (State.shutdownOff s left) := by
  refine hk.trans ?_
  clear hk
  unfold State.shutdownOff; try dsimp only
  repeat' (first | with_reducible assumption | with_reducible exact Keeps.refl _ | with_reducible apply ite_keep | with_reducible refine foldl_keep (fun _ _ => ?_) ?_ | with_reducible apply State.modPwr_keep | with_reducible apply State.modSys_keep | with_reducible apply State.shutdownRecord_keep | with_reducible apply State.modHyk_keep | (intro k; (try dsimp only); (first | with_reducible exact k | with_reducible exact Tbl.wf_updAll _ _ _ _ k | with_reducible exact Tbl.wf_upd _ _ _ _ k | with_reducible exact Tbl.wf_store _ _ _ k | exact ⟨k.1, k.2.1, k.2.2.1, k.2.2.2⟩ | exact ⟨Tbl.wf_store _ _ _ k.1, k.2.1, k.2.2.1, k.2.2.2⟩ | exact ⟨k.1, Tbl.wf_store _ _ _ k.2.1, k.2.2.1, k.2.2.2⟩ | exact ⟨k.1, rfl, k.2.2.1, k.2.2.2⟩ | exact ⟨rfl, k.2.1, rfl, k.2.2.2⟩ | exact ⟨rfl, k.2.1, k.2.2.1, k.2.2.2⟩ | exact ⟨k.1, k.2.1, k.2.2.1, rfl⟩ | rfl)) | split | intro _ | dsimp only)
theorem State.shutdownEnd_keep {s : State} {j : ShutJob} (hk : Keeps s0 s) : Keeps s0 (State.shutdownEnd s j) := by
  refine hk.trans ?_
  clear hk
  unfold State.shutdownEnd
  with_reducible repeat' (first | exact Keeps.refl _ | apply State.shutdownTest_keep | apply State.bist_keep | apply State.shutdownRecord_keep | apply State.shutdownAnswer_keep | apply State.shutdownOff_keep | dsimp only)
theorem State.shutdownDrained_keep {s : State} (hk : Keeps s0 s) : Keeps s0 (State.shutdownDrained s) := by
  refine hk.trans ?_
  clear hk
  unfold State.shutdownDrained
  with_reducible repeat' (first | exact Keeps.refl _ | apply ite_keep | apply State.shutdownEnd_keep | split | dsimp only)
theorem effShutdown_keep {h : Quad} {o : BistOutcome} {s : State} (hk : Keeps s0 s) : Keeps s0 (effShutdown h o s) := by
  refine hk.trans ?_
  clear hk
  unfold effShutdown
  with_reducible repeat' (first | exact Keeps.refl _ | apply ite_keep | apply State.modeTrigger_keep | apply State.fail_keep | apply State.executing_keep | apply State.modSys_keep | apply State.finishStop_keep | apply State.setRole_keep | apply State.setMode_keep | split | intro _ | dsimp only)
theorem effShutdownDrainLimit_keep {s : State} (hk : Keeps s0 s) : Keeps s0 (effShutdownDrainLimit s) := by
  refine hk.trans ?_
  clear hk
  unfold effShutdownDrainLimit
  with_reducible repeat' (first | exact Keeps.refl _ | apply ite_keep | apply State.shutdownEnd_keep | split | dsimp only)
theorem effRoleSwap_keep {h : Quad} {s : State} (hk : Keeps s0 s) : Keeps s0 (effRoleSwap h s) := by
  refine hk.trans ?_
  clear hk
  unfold effRoleSwap
  with_reducible repeat' (first | exact Keeps.refl _ | apply ite_keep | apply State.begin_keep | apply State.refuse_keep | apply State.bump_keep | apply State.executing_keep | apply State.modDpx_keep | split | intro _ | dsimp only)
theorem State.referenceRate_keep {s : State} {n : Net} (hk : Keeps s0 s) : Keeps s0 (State.referenceRate s n) := by
  refine hk.trans ?_
  clear hk
  unfold State.referenceRate
  with_reducible repeat' (first | exact Keeps.refl _ | apply ite_keep | apply State.modTbu_keep | split | intro _ | dsimp only)
theorem State.plantFeed_keep {s : State} {e : Int} {delta : Nat} (hk : Keeps s0 s) : Keeps s0 (State.plantFeed s e delta) := by
  refine hk.trans ?_
  clear hk
  unfold State.plantFeed
  with_reducible repeat' (first | exact Keeps.refl _ | apply ite_keep | apply State.modTbu_keep | apply State.bump_keep | apply State.referenceRate_keep | split | intro _ | dsimp only)
theorem State.plantRefuse_keep {s : State} {e : Int} (hk : Keeps s0 s) : Keeps s0 (State.plantRefuse s e) := by
  refine hk.trans ?_
  clear hk
  unfold State.plantRefuse
  with_reducible repeat' (first | exact Keeps.refl _ | apply State.modTbu_keep | apply State.iff_keep | apply State.raise_keep | apply State.setEvent_keep | split | intro _ | dsimp only)
theorem effPtpSample_keep {e : Int} {delta : Nat} {s : State} (hk : Keeps s0 s) : Keeps s0 (effPtpSample e delta s) := by
  refine hk.trans ?_
  clear hk
  unfold effPtpSample
  with_reducible repeat' (first | exact Keeps.refl _ | apply ite_keep | apply State.plantRefuse_keep | apply State.plantFeed_keep | split | dsimp only)
theorem State.doJumpAccept_keep {s : State} {e : JEntry} (hk : Keeps s0 s) : Keeps s0 (State.doJumpAccept s e) := by
  refine hk.trans ?_
  clear hk
  unfold State.doJumpAccept
  with_reducible repeat' (first | exact Keeps.refl _ | apply State.fail_keep | apply State.modTbu_keep | apply State.raise_keep | apply State.complete_keep | split | intro _ | dsimp only)
theorem effPlantJumpAccept_keep {h : Quad} {s : State} (hk : Keeps s0 s) : Keeps s0 (effPlantJumpAccept h s) := by
  refine hk.trans ?_
  clear hk
  unfold effPlantJumpAccept
  with_reducible repeat' (first | exact Keeps.refl _ | apply State.begin_keep | apply State.doJumpAccept_keep | intro _ | dsimp only)
theorem effPtpMessage_keep {d : PtpDecision} {answerTo : Option Byte} {s : State} (hk : Keeps s0 s) : Keeps s0 (effPtpMessage d answerTo s) := by
  refine hk.trans ?_
  clear hk
  unfold effPtpMessage
  with_reducible repeat' (first | exact Keeps.refl _ | apply ite_keep | apply State.modTbu_keep | apply State.emit_keep | split | intro _ | dsimp only)
theorem effPlantEthernetLinkChange_keep {port : Fin 2} {up : Bool} {s : State} (hk : Keeps s0 s) : Keeps s0 (effPlantEthernetLinkChange port up s) := by
  refine hk.trans ?_
  clear hk
  unfold effPlantEthernetLinkChange
  with_reducible repeat' (first | exact Keeps.refl _ | apply ite_keep | apply State.modTbu_keep | split | intro _ | dsimp only)
theorem State.netFeed_keep {s : State} {e : Int} {delta : Nat} {limit : Nat} (hk : Keeps s0 s) : Keeps s0 (State.netFeed s e delta limit) := by
  refine hk.trans ?_
  clear hk
  unfold State.netFeed
  with_reducible repeat' (first | exact Keeps.refl _ | apply State.modTbu_keep | apply State.bump_keep | intro _ | dsimp only)
theorem State.netStep_keep {s : State} {d : Int} (hk : Keeps s0 s) : Keeps s0 (State.netStep s d) := by
  refine hk.trans ?_
  clear hk
  unfold State.netStep
  with_reducible repeat' (first | exact Keeps.refl _ | apply State.modTbu_keep | apply Going.step_keep | intro _ | dsimp only)
theorem State.refuseWrite_keep {s : State} {p : Party} {reason : Byte} {off : Nat} {v : Word} (hk : Keeps s0 s) : Keeps s0 (State.refuseWrite s p reason off v) := by
  refine hk.trans ?_
  clear hk
  unfold State.refuseWrite
  with_reducible repeat' (first | exact Keeps.refl _ | apply State.raise_keep | split | dsimp only)
theorem State.forbid_keep {s : State} {p : Party} {reason : Byte} {off : Nat} {v : Word} (hk : Keeps s0 s) : Keeps s0 (State.forbid s p reason off v) := by
  refine hk.trans ?_
  clear hk
  unfold State.forbid
  with_reducible repeat' (first | exact Keeps.refl _ | apply State.refuseWrite_keep | apply State.programRefused_keep | apply State.firewallRefused_keep | split | dsimp only)
theorem State.ringWrite_keep {s : State} {p : Party} {n off : Nat} {v : Word} {f : State → State} (hf : ∀ x, Keeps x (f x)) (hk : Keeps s0 s) : Keeps s0 (State.ringWrite s p n off v f) := by
  refine hk.trans ?_
  clear hk
  unfold State.ringWrite; try dsimp only
  repeat' (first | with_reducible assumption | with_reducible exact Keeps.refl _ | with_reducible apply ite_keep | with_reducible refine foldl_keep (fun _ _ => ?_) ?_ | with_reducible apply State.forbid_keep | with_reducible apply State.refuseWrite_keep | exact hf _ | (intro k; (try dsimp only); (first | with_reducible exact k | with_reducible exact Tbl.wf_updAll _ _ _ _ k | with_reducible exact Tbl.wf_upd _ _ _ _ k | with_reducible exact Tbl.wf_store _ _ _ k | exact ⟨k.1, k.2.1, k.2.2.1, k.2.2.2⟩ | exact ⟨Tbl.wf_store _ _ _ k.1, k.2.1, k.2.2.1, k.2.2.2⟩ | exact ⟨k.1, Tbl.wf_store _ _ _ k.2.1, k.2.2.1, k.2.2.2⟩ | exact ⟨k.1, rfl, k.2.2.1, k.2.2.2⟩ | exact ⟨rfl, k.2.1, rfl, k.2.2.2⟩ | exact ⟨rfl, k.2.1, k.2.2.1, k.2.2.2⟩ | exact ⟨k.1, k.2.1, k.2.2.1, rfl⟩ | rfl)) | split | intro _ | dsimp only)
theorem effDoorbellWrite_keep {p : Party} {n : Fin 32} {v : Word} {s : State} (hk : Keeps s0 s) : Keeps s0 (effDoorbellWrite p n v s) := by
  refine hk.trans ?_
  clear hk
  unfold effDoorbellWrite
  with_reducible repeat' (first | exact Keeps.refl _ | apply State.ringWrite_keep | apply State.writeDoorbell_keep | intro _ | dsimp only)
theorem effCplConsWrite_keep {p : Party} {n : Fin 32} {v : Word} {s : State} (hk : Keeps s0 s) : Keeps s0 (effCplConsWrite p n v s) := by
  refine hk.trans ?_
  clear hk
  unfold effCplConsWrite
  with_reducible repeat' (first | exact Keeps.refl _ | apply State.ringWrite_keep | apply State.writeCons_keep | intro _ | dsimp only)
theorem effIrqTimerExpiry_keep {n : Fin 32} {s : State} (hk : Keeps s0 s) : Keeps s0 (effIrqTimerExpiry n s) := by
  refine hk.trans ?_
  clear hk
  unfold effIrqTimerExpiry
  with_reducible repeat' (first | exact Keeps.refl _ | apply ite_keep | apply State.signal_keep | split | dsimp only)
theorem State.reject_keep {s : State} {e : Entry} {st : BitVec 16} (hk : Keeps s0 s) : Keeps s0 (State.reject s e st) := by
  refine hk.trans ?_
  clear hk
  unfold State.reject
  with_reducible exact State.putRecord_keep (Keeps.refl _)
theorem State.doStatus_keep {s : State} {e : JEntry} (hk : Keeps s0 s) : Keeps s0 (State.doStatus s e) := by
  refine hk.trans ?_
  clear hk
  unfold State.doStatus
  with_reducible repeat' (first | exact Keeps.refl _ | apply ite_keep | apply State.complete_keep | split | dsimp only)
theorem State.doQuery_keep {s : State} {e : JEntry} (hk : Keeps s0 s) : Keeps s0 (State.doQuery s e) := by
  refine hk.trans ?_
  clear hk
  unfold State.doQuery
  with_reducible repeat' (first | exact Keeps.refl _ | apply ite_keep | apply State.complete_keep | split | dsimp only)
theorem State.doNop_keep {s : State} {e : JEntry} (hk : Keeps s0 s) : Keeps s0 (State.doNop s e) := by
  refine hk.trans ?_
  clear hk
  unfold State.doNop
  with_reducible exact State.complete_keep (Keeps.refl _)
theorem State.performQ_keep {s : State} {e : JEntry} {outOk : Bool} (hk : Keeps s0 s) : Keeps s0 (State.performQ s e outOk) := by
  refine hk.trans ?_
  clear hk
  unfold State.performQ
  with_reducible repeat' (first | exact Keeps.refl _ | apply State.begin_keep | apply State.doStatus_keep | apply State.doQuery_keep | apply State.doForceList_keep | apply State.doIdentity_keep | apply State.doJumpAccept_keep | apply State.doNop_keep | split | intro _ | dsimp only)
theorem effNop_keep {h : Quad} {s : State} (hk : Keeps s0 s) : Keeps s0 (effNop h s) := by
  refine hk.trans ?_
  clear hk
  unfold effNop
  with_reducible repeat' (first | exact Keeps.refl _ | apply State.begin_keep | apply State.doNop_keep | intro _ | dsimp only)
theorem effStatusGet_keep {h : Quad} {s : State} (hk : Keeps s0 s) : Keeps s0 (effStatusGet h s) := by
  refine hk.trans ?_
  clear hk
  unfold effStatusGet
  with_reducible repeat' (first | exact Keeps.refl _ | apply State.begin_keep | apply State.doStatus_keep | intro _ | dsimp only)
theorem effHandleQuery_keep {h : Quad} {s : State} (hk : Keeps s0 s) : Keeps s0 (effHandleQuery h s) := by
  refine hk.trans ?_
  clear hk
  unfold effHandleQuery
  with_reducible repeat' (first | exact Keeps.refl _ | apply State.begin_keep | apply State.doQuery_keep | intro _ | dsimp only)
theorem effV1Nop_keep {h : Quad} {s : State} (hk : Keeps s0 s) : Keeps s0 (effV1Nop h s) := by
  refine hk.trans ?_
  clear hk
  unfold effV1Nop
  with_reducible repeat' (first | exact Keeps.refl _ | apply State.begin_keep | apply State.doNop_keep | intro _ | dsimp only)
theorem effStatusV1_keep {h : Quad} {s : State} (hk : Keeps s0 s) : Keeps s0 (effStatusV1 h s) := by
  refine hk.trans ?_
  clear hk
  unfold effStatusV1
  with_reducible repeat' (first | exact Keeps.refl _ | apply State.begin_keep | apply State.doStatus_keep | intro _ | dsimp only)
theorem State.passVoids_keep {s : State} (hk : Keeps s0 s) : Keeps s0 (State.passVoids s) := by
  refine hk.trans ?_
  clear hk
  unfold State.passVoids
  with_reducible repeat' (first | exact Keeps.refl _ | refine foldl_keep (fun _ _ => ?_) ?_ | apply State.modRing_keep | intro _ | dsimp only)
theorem State.markHeld_keep {s : State} (hk : Keeps s0 s) : Keeps s0 (State.markHeld s) := by
  refine hk.trans ?_
  clear hk
  unfold State.markHeld
  with_reducible repeat' (first | exact Keeps.refl _ | apply ite_keep | refine foldl_keep (fun _ _ => ?_) ?_ | apply State.modRing_keep | split | intro _ | dsimp only)
theorem State.advance_keep {s : State} {n : Nat} (hk : Keeps s0 s) : Keeps s0 (State.advance s n) := by
  refine hk.trans ?_
  clear hk
  unfold State.advance
  with_reducible repeat' (first | exact Keeps.refl _ | apply ite_keep | apply State.modRing_keep | apply State.modSys_keep | split | intro _ | dsimp only)
theorem State.accept_keep {s : State} {j : JEntry} {outOk : Bool} (hk : Keeps s0 s) : Keeps s0 (State.accept s j outOk) := by
  refine hk.trans ?_
  clear hk
  unfold State.accept
  with_reducible repeat' (first | exact Keeps.refl _ | apply ite_keep | apply State.modJournal_keep | apply State.modRing_keep | apply State.emit_keep | apply State.shutdownRecord_keep | apply State.performQ_keep | apply State.putAccepted_keep | split | intro _ | dsimp only)
theorem State.takeEntry_keep {s : State} {journalOk ack outOk : Bool} (hk : Keeps s0 s) : Keeps s0 (State.takeEntry s journalOk ack outOk) := by
  refine hk.trans ?_
  clear hk
  unfold State.takeEntry
  with_reducible repeat' (first | exact Keeps.refl _ | apply ite_keep | apply State.passVoids_keep | apply State.markHeld_keep | apply State.advance_keep | apply State.reject_keep | apply State.raise_keep | apply State.emit_keep | apply State.lag_keep | apply State.accept_keep | split | intro _ | dsimp only)
theorem effTakeEntry_keep {journalOk outOk : Bool} {s : State} (hk : Keeps s0 s) : Keeps s0 (effTakeEntry journalOk outOk s) := by
  refine hk.trans ?_
  clear hk
  unfold effTakeEntry
  with_reducible exact State.takeEntry_keep (Keeps.refl _)
theorem effPartnerNoAck_keep {s : State} (hk : Keeps s0 s) : Keeps s0 (effPartnerNoAck s) := by
  refine hk.trans ?_
  clear hk
  unfold effPartnerNoAck
  with_reducible repeat' (first | exact Keeps.refl _ | apply ite_keep | apply State.takeEntry_keep | split | dsimp only)
theorem State.ret_keep {s : State} {c : Caller} {code : Word} {results : List Quad} {buffer : Bytes} (hk : Keeps s0 s) : Keeps s0 (State.ret s c code results buffer) := by
  refine hk.trans ?_
  clear hk
  unfold State.ret
  with_reducible repeat' (first | exact Keeps.refl _ | apply State.modTask_keep | intro _ | dsimp only)
theorem State.call_keep {s : State} {c : Caller} {may : Bool} {f : State → State} (hf : ∀ x, Keeps x (f x)) (hk : Keeps s0 s) : Keeps s0 (State.call s c may f) := by
  refine hk.trans ?_
  clear hk
  unfold State.call; try dsimp only
  repeat' (first | with_reducible assumption | with_reducible exact Keeps.refl _ | with_reducible apply ite_keep | with_reducible refine foldl_keep (fun _ _ => ?_) ?_ | with_reducible apply State.ret_keep | exact hf _ | (intro k; (try dsimp only); (first | with_reducible exact k | with_reducible exact Tbl.wf_updAll _ _ _ _ k | with_reducible exact Tbl.wf_upd _ _ _ _ k | with_reducible exact Tbl.wf_store _ _ _ k | exact ⟨k.1, k.2.1, k.2.2.1, k.2.2.2⟩ | exact ⟨Tbl.wf_store _ _ _ k.1, k.2.1, k.2.2.1, k.2.2.2⟩ | exact ⟨k.1, Tbl.wf_store _ _ _ k.2.1, k.2.2.1, k.2.2.2⟩ | exact ⟨k.1, rfl, k.2.2.1, k.2.2.2⟩ | exact ⟨rfl, k.2.1, rfl, k.2.2.2⟩ | exact ⟨rfl, k.2.1, k.2.2.1, k.2.2.2⟩ | exact ⟨k.1, k.2.1, k.2.2.1, rfl⟩ | rfl)) | split | intro _ | dsimp only)
theorem effCycleInfo_keep {c : Caller} {s : State} (hk : Keeps s0 s) : Keeps s0 (effCycleInfo c s) := by
  refine hk.trans ?_
  clear hk
  unfold effCycleInfo
  with_reducible repeat' (first | exact Keeps.refl _ | apply ite_keep | apply State.call_keep | apply State.ret_keep | apply State.tick_keep | split | intro _ | dsimp only)
theorem effTimeGet_keep {c : Caller} {scale : Quad} {s : State} (hk : Keeps s0 s) : Keeps s0 (effTimeGet c scale s) := by
  refine hk.trans ?_
  clear hk
  unfold effTimeGet
  with_reducible repeat' (first | exact Keeps.refl _ | apply ite_keep | apply State.call_keep | apply State.ret_keep | split | intro _ | dsimp only)
theorem effTbuRead_keep {c : Caller} {s : State} (hk : Keeps s0 s) : Keeps s0 (effTbuRead c s) := by
  refine hk.trans ?_
  clear hk
  unfold effTbuRead
  with_reducible repeat' (first | exact Keeps.refl _ | apply State.call_keep | apply State.ret_keep | intro _ | dsimp only)
theorem effCmdSubmit_keep {c : Caller} {ring : Quad} {entry : Bytes} {s : State} (hk : Keeps s0 s) : Keeps s0 (effCmdSubmit c ring entry s) := by
  refine hk.trans ?_
  clear hk
  unfold effCmdSubmit
  with_reducible repeat' (first | exact Keeps.refl _ | apply ite_keep | apply State.call_keep | apply State.ret_keep | apply State.submit_keep | split | intro _ | dsimp only)
theorem effCplNext_keep {c : Caller} {ring : Quad} {s : State} (hk : Keeps s0 s) : Keeps s0 (effCplNext c ring s) := by
  refine hk.trans ?_
  clear hk
  unfold effCplNext
  with_reducible repeat' (first | exact Keeps.refl _ | apply ite_keep | apply State.call_keep | apply State.ret_keep | apply State.modTask_keep | split | intro _ | dsimp only)
theorem effErrEvents_keep {c : Caller} {limit : Nat} {s : State} (hk : Keeps s0 s) : Keeps s0 (effErrEvents c limit s) := by
  refine hk.trans ?_
  clear hk
  unfold effErrEvents
  with_reducible repeat' (first | exact Keeps.refl _ | apply ite_keep | apply State.call_keep | apply State.modTask_keep | apply State.ret_keep | split | intro _ | dsimp only)
theorem effCommitInfo_keep {c : Caller} {s : State} (hk : Keeps s0 s) : Keeps s0 (effCommitInfo c s) := by
  refine hk.trans ?_
  clear hk
  unfold effCommitInfo
  with_reducible repeat' (first | exact Keeps.refl _ | apply ite_keep | apply State.call_keep | apply State.ret_keep | split | intro _ | dsimp only)
theorem effForceInfo_keep {c : Caller} {var elem : Word} {s : State} (hk : Keeps s0 s) : Keeps s0 (effForceInfo c var elem s) := by
  refine hk.trans ?_
  clear hk
  unfold effForceInfo
  with_reducible repeat' (first | exact Keeps.refl _ | apply ite_keep | apply State.call_keep | apply State.ret_keep | split | intro _ | dsimp only)
theorem effEventLog_keep {c : Caller} {code : BitVec 16} {data : Bytes} {s : State} (hk : Keeps s0 s) : Keeps s0 (effEventLog c code data s) := by
  refine hk.trans ?_
  clear hk
  unfold effEventLog
  with_reducible repeat' (first | exact Keeps.refl _ | apply ite_keep | apply State.call_keep | apply State.ret_keep | apply State.logEvent_keep | split | intro _ | dsimp only)
theorem effChangeInfo_keep {c : Caller} {s : State} (hk : Keeps s0 s) : Keeps s0 (effChangeInfo c s) := by
  refine hk.trans ?_
  clear hk
  unfold effChangeInfo
  with_reducible repeat' (first | exact Keeps.refl _ | apply ite_keep | apply State.call_keep | apply State.ret_keep | split | intro _ | dsimp only)
theorem effFaultRaise_keep {c : Caller} {reaction : Quad} {data : Bytes} {s : State} (hk : Keeps s0 s) : Keeps s0 (effFaultRaise c reaction data s) := by
  refine hk.trans ?_
  clear hk
  unfold effFaultRaise
  with_reducible repeat' (first | exact Keeps.refl _ | apply ite_keep | apply State.call_keep | apply State.ret_keep | apply State.raiseFault_keep | split | intro _ | dsimp only)
theorem State.forward_keep {s : State} {port : Nat} {ident : Word} {m : Bytes} (hk : Keeps s0 s) : Keeps s0 (State.forward s port ident m) := by
  refine hk.trans ?_
  clear hk
  unfold State.forward
  with_reducible repeat' (first | exact Keeps.refl _ | apply ite_keep | apply State.modStl_keep | apply State.modPort_keep | split | intro _ | dsimp only)
theorem State.route_keep {s : State} {port : Nat} {ident : Word} {m : Bytes} (hk : Keeps s0 s) : Keeps s0 (State.route s port ident m).1 := by
  refine hk.trans ?_
  clear hk
  unfold State.route
  with_reducible repeat' (first | exact Keeps.refl _ | apply ite_keep | refine foldl_keep (fun _ _ => ?_) ?_ | apply State.modStl_keep | apply State.forward_keep | split | intro _ | dsimp only)
theorem State.ctxError_keep {s : State} {x : Nat} (hk : Keeps s0 s) : Keeps s0 (State.ctxError s x) := by
  refine hk.trans ?_
  clear hk
  unfold State.ctxError
  with_reducible repeat' (first | exact Keeps.refl _ | apply ite_keep | apply State.modCtx_keep | apply State.msix_keep | apply State.emit_keep | split | intro _ | dsimp only)
theorem State.modReqs_keep {s : State} {f : List Req → List Req} (hk : Keeps s0 s) : Keeps s0 (State.modReqs s f) := by
  refine hk.trans ?_
  clear hk
  unfold State.modReqs
  with_reducible repeat' (first | exact Keeps.refl _ | apply State.modStl_keep | intro _ | dsimp only)
theorem State.dropReqs_keep {s : State} {p : Req → Bool} (hk : Keeps s0 s) : Keeps s0 (State.dropReqs s p) := by
  refine hk.trans ?_
  clear hk
  unfold State.dropReqs
  with_reducible repeat' (first | exact Keeps.refl _ | apply ite_keep | refine foldl_keep (fun _ _ => ?_) ?_ | apply State.modReqs_keep | apply State.modCtx_keep | split | intro _ | dsimp only)
theorem State.postedFail_keep {s : State} {r : Req} {cause : BitVec 4} {far : Byte} (hk : Keeps s0 s) : Keeps s0 (State.postedFail s r cause far) := by
  refine hk.trans ?_
  clear hk
  unfold State.postedFail
  with_reducible repeat' (first | exact Keeps.refl _ | apply ite_keep | apply State.dropReqs_keep | apply State.modStl_keep | apply State.modCtx_keep | apply State.ctxError_keep | apply State.raise_keep | split | intro _ | dsimp only)
theorem State.liftFences_keep {s : State} {x : Nat} (hk : Keeps s0 s) : Keeps s0 (State.liftFences s x) := by
  refine hk.trans ?_
  clear hk
  unfold State.liftFences
  with_reducible repeat' (first | exact Keeps.refl _ | apply ite_keep | apply State.modCtx_keep | split | intro _ | dsimp only)
theorem State.transferDone_keep {s : State} {h : Quad} {st : BitVec 16} {len : Nat} {tag : Word} {far : Nat} (hk : Keeps s0 s) : Keeps s0 (State.transferDone s h st len tag far) := by
  refine hk.trans ?_
  clear hk
  unfold State.transferDone
  with_reducible repeat' (first | exact Keeps.refl _ | apply ite_keep | apply State.complete_keep | apply State.fail_keep | split | dsimp only)
theorem State.loadFailed_keep {s : State} {r : Req} {task win kind : Nat} (hk : Keeps s0 s) : Keeps s0 (State.loadFailed s r task win kind) := by
  refine hk.trans ?_
  clear hk
  unfold State.loadFailed
  with_reducible repeat' (first | exact Keeps.refl _ | apply State.modTask_keep | apply State.ctxError_keep | apply State.raise_keep | intro _ | dsimp only)
theorem State.reqError_keep {s : State} {r : Req} {st : BitVec 16} {far : Nat} (hk : Keeps s0 s) : Keeps s0 (State.reqError s r st far) := by
  refine hk.trans ?_
  clear hk
  unfold State.reqError
  with_reducible repeat' (first | exact Keeps.refl _ | apply ite_keep | apply State.modReqs_keep | apply State.transferDone_keep | apply State.loadFailed_keep | split | intro _ | dsimp only)
theorem State.stall_keep {s : State} {r : Req} {far : Nat} (hk : Keeps s0 s) : Keeps s0 (State.stall s r far) := by
  refine hk.trans ?_
  clear hk
  unfold State.stall
  with_reducible repeat' (first | exact Keeps.refl _ | apply ite_keep | apply State.modStl_keep | apply State.reqError_keep | split | intro _ | dsimp only)
theorem State.unsentLost_keep {s : State} {n : Net} (hk : Keeps s0 s) : Keeps s0 (State.unsentLost s n) := by
  refine hk.trans ?_
  clear hk
  unfold State.unsentLost
  with_reducible repeat' (first | exact Keeps.refl _ | apply ite_keep | refine foldl_keep (fun _ _ => ?_) ?_ | apply State.modReqs_keep | apply State.refuse_keep | apply State.loadFailed_keep | split | intro _ | dsimp only)
theorem State.targetLost_keep {s : State} {hl2 : Bool} {a : Nat} {cause : BitVec 4} {far : Byte} {others : Bool} (hk : Keeps s0 s) : Keeps s0 (State.targetLost s hl2 a cause far others) := by
  refine hk.trans ?_
  clear hk
  unfold State.targetLost
  with_reducible repeat' (first | exact Keeps.refl _ | apply ite_keep | refine foldl_keep (fun _ _ => ?_) ?_ | apply State.postedFail_keep | apply State.reqError_keep | split | intro _ | dsimp only)
theorem State.request_keep {s : State} {r : Req} (hk : Keeps s0 s) : Keeps s0 (State.request s r) := by
  refine hk.trans ?_
  clear hk
  unfold State.request
  with_reducible repeat' (first | exact Keeps.refl _ | apply ite_keep | apply State.modCtx_keep | apply State.modStl_keep | apply State.modReqs_keep | split | intro _ | dsimp only)
theorem State.answer_keep {s : State} {n : Net} {a : Nat} {x : Answer} (hk : Keeps s0 s) : Keeps s0 (State.answer s n a x) := by
  refine hk.trans ?_
  clear hk
  unfold State.answer
  with_reducible repeat' (first | exact Keeps.refl _ | apply ite_keep | refine foldl_keep (fun _ _ => ?_) ?_ | apply State.dropReqs_keep | apply State.modReqs_keep | apply State.output_keep | apply State.transferDone_keep | apply State.modTask_keep | apply State.stall_keep | apply State.postedFail_keep | apply State.reqError_keep | split | intro _ | dsimp only)
theorem State.acyclicMessage_keep {s : State} {n : Net} {src : Byte} {ident : BitVec 16} {m : Bytes} (hk : Keeps s0 s) : Keeps s0 (State.acyclicMessage s n src ident m) := by
  refine hk.trans ?_
  clear hk
  unfold State.acyclicMessage
  with_reducible repeat' (first | exact Keeps.refl _ | apply ite_keep | refine foldl_keep (fun _ _ => ?_) ?_ | apply State.route_keep | apply State.answer_keep | split | intro _ | dsimp only)
theorem State.acyclicIn_keep {s : State} {n : Net} {src : Byte} {p : Bytes} (hk : Keeps s0 s) : Keeps s0 (State.acyclicIn s n src p) := by
  refine hk.trans ?_
  clear hk
  unfold State.acyclicIn
  with_reducible repeat' (first | exact Keeps.refl _ | apply ite_keep | apply State.modStl_keep | apply State.acyclicMessage_keep | split | intro _ | dsimp only)
theorem State.markSent_keep {s : State} {n : Net} {l : List Req} (hk : Keeps s0 s) : Keeps s0 (State.markSent s n l) := by
  refine hk.trans ?_
  clear hk
  unfold State.markSent
  with_reducible repeat' (first | exact Keeps.refl _ | apply ite_keep | apply State.modReqs_keep | split | intro _ | dsimp only)
theorem State.packRequests_keep {s : State} {n : Net} {room : Nat} (hk : Keeps s0 s) : Keeps s0 (State.packRequests s n room) := by
  refine hk.trans ?_
  clear hk
  unfold State.packRequests
  with_reducible repeat' (first | exact Keeps.refl _ | apply ite_keep | apply State.modStl_keep | apply State.markSent_keep | split | intro _ | dsimp only)
theorem State.packMessage_keep {s : State} {n : Net} {room : Nat} (hk : Keeps s0 s) : Keeps s0 (State.packMessage s n room) := by
  refine hk.trans ?_
  clear hk
  unfold State.packMessage
  with_reducible repeat' (first | exact Keeps.refl _ | apply State.modPort_keep | apply State.modStl_keep | split | intro _ | dsimp only)
theorem State.acyclicOut_keep {s : State} {n : Net} {room : Nat} {hub : Bool} (hk : Keeps s0 s) : Keeps s0 (State.acyclicOut s n room hub).1 := by
  refine hk.trans ?_
  clear hk
  unfold State.acyclicOut
  with_reducible repeat' (first | exact Keeps.refl _ | apply ite_keep | apply State.packRequests_keep | apply State.packMessage_keep | apply State.modStl_keep | split | intro _ | dsimp only)
theorem State.acyclicOut_eq_keep {s t : State} {n : Net} {r : Nat} {b : Bool} {x : Option Bytes}
    (e : s.acyclicOut n r b = (t, x)) (hk : Keeps s0 s) : Keeps s0 t := by
  have h := State.acyclicOut_keep (n := n) (room := r) (hub := b) hk
  rw [e] at h; exact h
theorem State.remoteTransfer_keep {s : State} {e : JEntry} {b : Buf} {n : Net} (hk : Keeps s0 s) : Keeps s0 (State.remoteTransfer s e b n) := by
  refine hk.trans ?_
  clear hk
  unfold State.remoteTransfer
  with_reducible repeat' (first | exact Keeps.refl _ | apply ite_keep | apply State.transferDone_keep | apply State.refuse_keep | apply State.fail_keep | apply State.executing_keep | apply State.request_keep | apply State.postedFail_keep | apply State.reqError_keep | apply State.stall_keep | split | intro _ | dsimp only)
theorem State.sendTransfer_keep {s : State} {e : JEntry} {b : Buf} {port : Nat} (hk : Keeps s0 s) : Keeps s0 (State.sendTransfer s e b port) := by
  refine hk.trans ?_
  clear hk
  unfold State.sendTransfer
  with_reducible repeat' (first | exact Keeps.refl _ | apply ite_keep | apply State.refuse_keep | apply State.fail_keep | apply State.executing_keep | apply State.modPort_keep | split | intro _ | dsimp only)
theorem State.boxTransfer_keep {s : State} {e : JEntry} {b : Buf} (hk : Keeps s0 s) : Keeps s0 (State.boxTransfer s e b) := by
  refine hk.trans ?_
  clear hk
  unfold State.boxTransfer
  with_reducible repeat' (first | exact Keeps.refl _ | apply ite_keep | apply State.fail_keep | apply State.modStl_keep | apply State.output_keep | apply State.transferDone_keep | apply State.route_keep | split | intro _ | dsimp only)
theorem State.doTransfer_keep {s : State} {e : JEntry} {b : Buf} (hk : Keeps s0 s) : Keeps s0 (State.doTransfer s e b) := by
  refine hk.trans ?_
  clear hk
  unfold State.doTransfer
  with_reducible repeat' (first | exact Keeps.refl _ | apply ite_keep | apply State.remoteTransfer_keep | apply State.boxTransfer_keep | apply State.sendTransfer_keep | split | dsimp only)
theorem effStileTransfer_keep {h : Quad} {b : Buf} {s : State} (hk : Keeps s0 s) : Keeps s0 (effStileTransfer h b s) := by
  refine hk.trans ?_
  clear hk
  unfold effStileTransfer
  with_reducible repeat' (first | exact Keeps.refl _ | apply State.begin_keep | apply State.doTransfer_keep | intro _ | dsimp only)
theorem effRemoteXfer_keep {h : Quad} {b : Buf} {s : State} (hk : Keeps s0 s) : Keeps s0 (effRemoteXfer h b s) := by
  refine hk.trans ?_
  clear hk
  unfold effRemoteXfer
  with_reducible repeat' (first | exact Keeps.refl _ | apply State.begin_keep | apply State.doTransfer_keep | intro _ | dsimp only)
theorem effStileLogAck_keep {h : Quad} {s : State} (hk : Keeps s0 s) : Keeps s0 (effStileLogAck h s) := by
  refine hk.trans ?_
  clear hk
  unfold effStileLogAck
  with_reducible repeat' (first | exact Keeps.refl _ | apply ite_keep | apply State.begin_keep | apply State.modCtx_keep | apply State.liftFences_keep | apply State.complete_keep | apply State.modStl_keep | apply State.fail_keep | split | intro _ | dsimp only)
theorem effRemoteAnswer_keep {n : Net} {station : Byte} {a : Answer} {s : State} (hk : Keeps s0 s) : Keeps s0 (effRemoteAnswer n station a s) := by
  refine hk.trans ?_
  clear hk
  unfold effRemoteAnswer
  with_reducible repeat' (first | exact Keeps.refl _ | apply ite_keep | apply State.answer_keep | split | dsimp only)
theorem effResponseLimit_keep {n : Net} {station : Byte} {x : Fin 128} {tag : Word} {s : State} (hk : Keeps s0 s) : Keeps s0 (effResponseLimit n station x tag s) := by
  refine hk.trans ?_
  clear hk
  unfold effResponseLimit
  with_reducible repeat' (first | exact Keeps.refl _ | apply ite_keep | apply State.postedFail_keep | apply State.stall_keep | apply State.modReqs_keep | apply State.fail_keep | split | intro _ | dsimp only)
theorem effReadTimeout_keep {x : Fin 128} {s : State} (hk : Keeps s0 s) : Keeps s0 (effReadTimeout x s) := by
  refine hk.trans ?_
  clear hk
  unfold effReadTimeout
  with_reducible repeat' (first | exact Keeps.refl _ | apply ite_keep | apply State.modReqs_keep | apply State.loadFailed_keep | split | intro _ | dsimp only)
theorem effRemoteWindowLoad_keep {t : Fin 17} {addr : Quad} {size : Nat} {s : State} (hk : Keeps s0 s) : Keeps s0 (effRemoteWindowLoad t addr size s) := by
  refine hk.trans ?_
  clear hk
  unfold effRemoteWindowLoad
  with_reducible repeat' (first | exact Keeps.refl _ | apply ite_keep | apply State.programRefused_keep | apply State.request_keep | apply State.loadFailed_keep | split | dsimp only)
theorem effRemoteWindowStore_keep {t : Fin 17} {addr : Quad} {data : Bytes} {s : State} (hk : Keeps s0 s) : Keeps s0 (effRemoteWindowStore t addr data s) := by
  refine hk.trans ?_
  clear hk
  unfold effRemoteWindowStore
  with_reducible repeat' (first | exact Keeps.refl _ | apply ite_keep | apply State.programRefused_keep | apply State.raise_keep | apply State.request_keep | apply State.postedFail_keep | apply State.reqError_keep | split | dsimp only)
theorem effMessageReceived_keep {port : Fin 10} {ident : Word} {m : Bytes} {s : State} (hk : Keeps s0 s) : Keeps s0 (effMessageReceived port ident m s) := by
  refine hk.trans ?_
  clear hk
  unfold effMessageReceived
  with_reducible repeat' (first | exact Keeps.refl _ | apply ite_keep | apply State.route_keep | split | dsimp only)
theorem effMessageTransmitted_keep {port : Fin 10} {s : State} (hk : Keeps s0 s) : Keeps s0 (effMessageTransmitted port s) := by
  refine hk.trans ?_
  clear hk
  unfold effMessageTransmitted
  with_reducible repeat' (first | exact Keeps.refl _ | apply ite_keep | apply State.modPort_keep | apply State.emit_keep | apply State.transferDone_keep | split | intro _ | dsimp only)
theorem effBusOff_keep {port : Fin 4} {s : State} (hk : Keeps s0 s) : Keeps s0 (effBusOff port s) := by
  refine hk.trans ?_
  clear hk
  unfold effBusOff
  with_reducible repeat' (first | exact Keeps.refl _ | apply ite_keep | refine foldl_keep (fun _ _ => ?_) ?_ | apply State.modPort_keep | apply State.transferDone_keep | apply State.bump_keep | split | intro _ | dsimp only)
theorem effBusOffRecovery_keep {port : Fin 4} {s : State} (hk : Keeps s0 s) : Keeps s0 (effBusOffRecovery port s) := by
  refine hk.trans ?_
  clear hk
  unfold effBusOffRecovery
  with_reducible repeat' (first | exact Keeps.refl _ | apply ite_keep | apply State.modPort_keep | split | intro _ | dsimp only)
theorem State.semWrite_keep {s : State} {p : Party} {k x : Nat} {v : Word} {f : State → State} (hf : ∀ x, Keeps x (f x)) (hk : Keeps s0 s) : Keeps s0 (State.semWrite s p k x v f) := by
  refine hk.trans ?_
  clear hk
  unfold State.semWrite; try dsimp only
  repeat' (first | with_reducible assumption | with_reducible exact Keeps.refl _ | with_reducible apply ite_keep | with_reducible refine foldl_keep (fun _ _ => ?_) ?_ | with_reducible apply State.refuseWrite_keep | with_reducible apply State.forbid_keep | exact hf _ | (intro k; (try dsimp only); (first | with_reducible exact k | with_reducible exact Tbl.wf_updAll _ _ _ _ k | with_reducible exact Tbl.wf_upd _ _ _ _ k | with_reducible exact Tbl.wf_store _ _ _ k | exact ⟨k.1, k.2.1, k.2.2.1, k.2.2.2⟩ | exact ⟨Tbl.wf_store _ _ _ k.1, k.2.1, k.2.2.1, k.2.2.2⟩ | exact ⟨k.1, Tbl.wf_store _ _ _ k.2.1, k.2.2.1, k.2.2.2⟩ | exact ⟨k.1, rfl, k.2.2.1, k.2.2.2⟩ | exact ⟨rfl, k.2.1, rfl, k.2.2.2⟩ | exact ⟨rfl, k.2.1, k.2.2.1, k.2.2.2⟩ | exact ⟨k.1, k.2.1, k.2.2.1, rfl⟩ | rfl)) | split | intro _ | dsimp only)
theorem State.semAcquire_keep {s : State} {k x : Nat} (hk : Keeps s0 s) : Keeps s0 (State.semAcquire s k x) := by
  refine hk.trans ?_
  clear hk
  unfold State.semAcquire
  with_reducible repeat' (first | exact Keeps.refl _ | apply ite_keep | apply State.modSem_keep | split | intro _ | dsimp only)
theorem State.semRelease_keep {s : State} {k x : Nat} (hk : Keeps s0 s) : Keeps s0 (State.semRelease s k x) := by
  refine hk.trans ?_
  clear hk
  unfold State.semRelease
  with_reducible repeat' (first | exact Keeps.refl _ | apply ite_keep | apply State.modSem_keep | split | intro _ | dsimp only)
theorem effSemaphoreAcquire_keep {p : Party} {k : Fin 64} {x : Fin 128} {s : State} (hk : Keeps s0 s) : Keeps s0 (effSemaphoreAcquire p k x s) := by
  refine hk.trans ?_
  clear hk
  unfold effSemaphoreAcquire
  with_reducible repeat' (first | exact Keeps.refl _ | apply State.semWrite_keep | apply State.semAcquire_keep | intro _ | dsimp only)
theorem effSemaphoreRelease_keep {p : Party} {k : Fin 64} {x : Fin 128} {s : State} (hk : Keeps s0 s) : Keeps s0 (effSemaphoreRelease p k x s) := by
  refine hk.trans ?_
  clear hk
  unfold effSemaphoreRelease
  with_reducible repeat' (first | exact Keeps.refl _ | apply State.semWrite_keep | apply State.semRelease_keep | intro _ | dsimp only)
theorem effSemaphoreHoldLimit_keep {k : Fin 64} {s : State} (hk : Keeps s0 s) : Keeps s0 (effSemaphoreHoldLimit k s) := by
  refine hk.trans ?_
  clear hk
  unfold effSemaphoreHoldLimit
  with_reducible repeat' (first | exact Keeps.refl _ | apply ite_keep | apply State.modSem_keep | apply State.raise_keep | split | intro _ | dsimp only)
theorem State.spRestart_keep {s : State} (hk : Keeps s0 s) : Keeps s0 (State.spRestart s) := by
  refine hk.trans ?_
  clear hk
  unfold State.spRestart
  with_reducible repeat' (first | exact Keeps.refl _ | apply ite_keep | refine foldl_keep (fun _ _ => ?_) ?_ | apply State.modStl_keep | apply State.bump_keep | apply State.executing_keep | apply State.modReqs_keep | apply State.fail_keep | apply State.postedFail_keep | apply State.raise_keep | apply Going.on_keep | apply Going.ended_keep | split | intro _ | dsimp only)
theorem effServiceWatchdogExpiry_keep {s : State} (hk : Keeps s0 s) : Keeps s0 (effServiceWatchdogExpiry s) := by
  refine hk.trans ?_
  clear hk
  unfold effServiceWatchdogExpiry
  with_reducible repeat' (first | exact Keeps.refl _ | apply ite_keep | apply State.spRestart_keep | split | dsimp only)
theorem State.sendOn_keep {s : State} {n : Net} {chanB : Bool} {ports : List Nat} {ty slot : Nat} {cycle : Word} {out trailer ready : Bool} {len : Nat} {body : Bytes} (hk : Keeps s0 s) : Keeps s0 (State.sendOn s n chanB ports ty slot cycle out trailer ready len body) := by
  refine hk.trans ?_
  clear hk
  unfold State.sendOn
  with_reducible repeat' (first | exact Keeps.refl _ | refine foldl_keep (fun _ _ => ?_) ?_ | apply State.emit_keep | intro _ | dsimp only)
theorem State.sendSlot_keep {s : State} {n : Net} {okA okB : Bool} {ty : Nat} {c : SlotDesc} {trailer : Bool} {len : Nat} {body : Bytes} (hk : Keeps s0 s) : Keeps s0 (State.sendSlot s n okA okB ty c trailer len body) := by
  refine hk.trans ?_
  clear hk
  unfold State.sendSlot; try dsimp only
  repeat' (first | with_reducible assumption | with_reducible exact Keeps.refl _ | with_reducible apply ite_keep | with_reducible refine foldl_keep (fun _ _ => ?_) ?_ | with_reducible apply State.sendOn_keep | with_reducible apply State.iff_keep | (intro k; (try dsimp only); (first | with_reducible exact k | with_reducible exact Tbl.wf_updAll _ _ _ _ k | with_reducible exact Tbl.wf_upd _ _ _ _ k | with_reducible exact Tbl.wf_store _ _ _ k | exact ⟨k.1, k.2.1, k.2.2.1, k.2.2.2⟩ | exact ⟨Tbl.wf_store _ _ _ k.1, k.2.1, k.2.2.1, k.2.2.2⟩ | exact ⟨k.1, Tbl.wf_store _ _ _ k.2.1, k.2.2.1, k.2.2.2⟩ | exact ⟨k.1, rfl, k.2.2.1, k.2.2.2⟩ | exact ⟨rfl, k.2.1, rfl, k.2.2.2⟩ | exact ⟨rfl, k.2.1, k.2.2.1, k.2.2.2⟩ | exact ⟨k.1, k.2.1, k.2.2.1, rfl⟩ | rfl)) | split | intro _ | dsimp only)
theorem State.sendColdstart_keep {s : State} {n : Net} (hk : Keeps s0 s) : Keeps s0 (State.sendColdstart s n) := by
  refine hk.trans ?_
  clear hk
  unfold State.sendColdstart
  with_reducible repeat' (first | exact Keeps.refl _ | refine foldl_keep (fun _ _ => ?_) ?_ | apply State.sendOn_keep | apply State.modNet_keep | intro _ | dsimp only)
theorem State.askDelay_keep {s : State} {n : Net} {okA okB : Bool} {ta tb : Int} (hk : Keeps s0 s) : Keeps s0 (State.askDelay s n okA okB ta tb) := by
  refine hk.trans ?_
  clear hk
  unfold State.askDelay
  with_reducible repeat' (first | exact Keeps.refl _ | apply State.sendOn_keep | apply State.iff_keep | apply State.modNet_keep | split | intro _ | dsimp only)
theorem State.searchAsk_keep {s : State} {n : Net} (hk : Keeps s0 s) : Keeps s0 (State.searchAsk s n) := by
  refine hk.trans ?_
  clear hk
  unfold State.searchAsk
  with_reducible repeat' (first | exact Keeps.refl _ | apply State.askDelay_keep | apply State.modNet_keep | split | intro _ | dsimp only)
theorem State.netEvent_keep {s : State} {n : Net} {before : HlNet} (hk : Keeps s0 s) : Keeps s0 (State.netEvent s n before) := by
  refine hk.trans ?_
  clear hk
  unfold State.netEvent
  with_reducible repeat' (first | exact Keeps.refl _ | apply ite_keep | apply State.setEvent_keep | split | dsimp only)
theorem State.integrate_keep {s : State} {n : Net} {st : NodeState} (hk : Keeps s0 s) : Keeps s0 (State.integrate s n st) := by
  refine hk.trans ?_
  clear hk
  unfold State.integrate
  with_reducible repeat' (first | exact Keeps.refl _ | apply ite_keep | apply State.modNet_keep | apply State.modSys_keep | apply State.netEvent_keep | split | intro _ | dsimp only)
theorem State.leave_keep {s : State} {n : Net} {cause : BitVec 2} (hk : Keeps s0 s) : Keeps s0 (State.leave s n cause) := by
  refine hk.trans ?_
  clear hk
  unfold State.leave
  with_reducible repeat' (first | exact Keeps.refl _ | apply ite_keep | refine foldl_keep (fun _ _ => ?_) ?_ | apply State.raise_keep | apply State.modNet_keep | apply State.netEvent_keep | apply State.targetLost_keep | apply State.unsentLost_keep | split | intro _ | dsimp only)
theorem State.gotD_keep {s : State} {n : Net} {chanB : Bool} {d : Nat} (hk : Keeps s0 s) : Keeps s0 (State.gotD s n chanB d) := by
  refine hk.trans ?_
  clear hk
  unfold State.gotD
  with_reducible repeat' (first | exact Keeps.refl _ | apply ite_keep | apply State.netStep_keep | apply State.modNet_keep | split | intro _ | dsimp only)
theorem State.filterD_keep {s : State} {n : Net} {chanB : Bool} {r : Nat} (hk : Keeps s0 s) : Keeps s0 (State.filterD s n chanB r) := by
  refine hk.trans ?_
  clear hk
  unfold State.filterD
  with_reducible repeat' (first | exact Keeps.refl _ | apply ite_keep | apply State.gotD_keep | apply State.modNet_keep | apply State.bump_keep | split | intro _ | dsimp only)
theorem State.enterSync_keep {s : State} {n : Net} {p : Fin 4} {f : Bytes} (hk : Keeps s0 s) : Keeps s0 (State.enterSync s n p f) := by
  refine hk.trans ?_
  clear hk
  unfold State.enterSync
  with_reducible repeat' (first | exact Keeps.refl _ | apply ite_keep | apply State.netStep_keep | apply State.modNet_keep | split | intro _ | dsimp only)
theorem State.forwardFrame_keep {s : State} {n : Net} {p : Fin 4} {at_ : Nat} {f : Bytes} (hk : Keeps s0 s) : Keeps s0 (State.forwardFrame s n p at_ f) := by
  refine hk.trans ?_
  clear hk
  unfold State.forwardFrame
  with_reducible repeat' (first | exact Keeps.refl _ | apply ite_keep | apply State.emit_keep | split | intro _ | dsimp only)
theorem State.undone_keep {s : State} (hk : Keeps s0 s) : Keeps s0 (State.undone s) := by
  refine hk.trans ?_
  clear hk
  unfold State.undone
  with_reducible repeat' (first | exact Keeps.refl _ | apply State.modSwd_keep | intro _ | dsimp only)
theorem State.arrive_keep {s : State} {n : Net} {p : Fin 4} {at_ : Nat} {f : Bytes} (hk : Keeps s0 s) : Keeps s0 (State.arrive s n p at_ f).1 := by
  refine hk.trans ?_
  clear hk
  unfold State.arrive
  with_reducible repeat' (first | exact Keeps.refl _ | apply ite_keep | apply State.modNet_keep | apply State.iff_keep | apply State.undone_keep | split | intro _ | dsimp only)
theorem State.arrive_eq_keep {s t : State} {n : Net} {p : Fin 4} {a : Nat} {f : Bytes} {x : Option (SlotDesc × Bool)}
    (e : s.arrive n p a f = (t, x)) (hk : Keeps s0 s) : Keeps s0 t := by
  have h := State.arrive_keep (n := n) (p := p) (at_ := a) (f := f) hk
  rw [e] at h; exact h
theorem State.heard_keep {s : State} {n : Net} {f : Bytes} (hk : Keeps s0 s) : Keeps s0 (State.heard s n f) := by
  refine hk.trans ?_
  clear hk
  unfold State.heard
  with_reducible repeat' (first | exact Keeps.refl _ | apply ite_keep | apply State.modNet_keep | apply State.mismatch_keep | split | intro _ | dsimp only)
theorem State.passive_keep {s : State} {n : Net} {b out : Bool} {c : SlotDesc} {at_ : Nat} (hk : Keeps s0 s) : Keeps s0 (State.passive s n b out c at_) := by
  refine hk.trans ?_
  clear hk
  unfold State.passive
  with_reducible repeat' (first | exact Keeps.refl _ | apply ite_keep | apply State.modNet_keep | apply State.gotD_keep | apply State.bump_keep | split | intro _ | dsimp only)
theorem State.passing_keep {s : State} {n : Net} {p : Fin 4} {at_ : Nat} {f : Bytes} (hk : Keeps s0 s) : Keeps s0 (State.passing s n p at_ f) := by
  refine hk.trans ?_
  clear hk
  unfold State.passing
  with_reducible repeat' (first | exact Keeps.refl _ | apply ite_keep | apply State.iff_keep | apply State.passive_keep | split | intro _ | dsimp only)
theorem State.noteReady_keep {s : State} {n : Net} {f : Bytes} (hk : Keeps s0 s) : Keeps s0 (State.noteReady s n f) := by
  refine hk.trans ?_
  clear hk
  unfold State.noteReady
  with_reducible repeat' (first | exact Keeps.refl _ | apply ite_keep | apply State.modNet_keep | split | intro _ | dsimp only)
theorem State.hubTurn_keep {s : State} {n : Net} (hk : Keeps s0 s) : Keeps s0 (State.hubTurn s n) := by
  refine hk.trans ?_
  clear hk
  unfold State.hubTurn
  with_reducible repeat' (first | exact Keeps.refl _ | apply ite_keep | apply State.modNet_keep | apply State.modDpx_keep | apply State.bump_keep | split | intro _ | dsimp only)
theorem State.setReady_keep {s : State} {n : Net} (hk : Keeps s0 s) : Keeps s0 (State.setReady s n) := by
  refine hk.trans ?_
  clear hk
  unfold State.setReady
  with_reducible repeat' (first | exact Keeps.refl _ | apply ite_keep | apply State.modUpd_keep | split | intro _ | dsimp only)
theorem effNetworkCycleStart_keep {n : Net} {s : State} (hk : Keeps s0 s) : Keeps s0 (effNetworkCycleStart n s) := by
  refine hk.trans ?_
  clear hk
  unfold effNetworkCycleStart
  with_reducible repeat' (first | exact Keeps.refl _ | apply ite_keep | apply State.iff_keep | apply State.hubTurn_keep | apply State.modNet_keep | apply State.referenceRate_keep | apply State.setReady_keep | apply State.sendColdstart_keep | apply State.searchAsk_keep | apply State.fix_keep | apply State.stationsCycle_keep | split | intro _ | dsimp only)
theorem State.feedTheta_keep {s : State} {n : Net} {e : Int} (hk : Keeps s0 s) : Keeps s0 (State.feedTheta s n e) := by
  refine hk.trans ?_
  clear hk
  unfold State.feedTheta
  with_reducible repeat' (first | exact Keeps.refl _ | apply ite_keep | apply State.netStep_keep | apply State.modNet_keep | apply State.netFeed_keep | apply State.leave_keep | split | intro _ | dsimp only)
theorem State.observed_keep {s : State} {n : Net} {at_ : Nat} {f : Bytes} (hk : Keeps s0 s) : Keeps s0 (State.observed s n at_ f) := by
  refine hk.trans ?_
  clear hk
  unfold State.observed
  with_reducible repeat' (first | exact Keeps.refl _ | apply ite_keep | apply State.integrate_keep | apply State.modNet_keep | split | intro _ | dsimp only)
theorem State.firstBeacon_keep {s : State} {n : Net} {p : Fin 4} {at_ : Nat} {f : Bytes} (hk : Keeps s0 s) : Keeps s0 (State.firstBeacon s n p at_ f) := by
  refine hk.trans ?_
  clear hk
  unfold State.firstBeacon
  with_reducible repeat' (first | exact Keeps.refl _ | apply ite_keep | apply State.modNet_keep | apply State.observed_keep | apply State.feedTheta_keep | split | intro _ | dsimp only)
theorem State.secondBeacon_keep {s : State} {n : Net} {p : Fin 4} {at_ : Nat} {f : Bytes} (hk : Keeps s0 s) : Keeps s0 (State.secondBeacon s n p at_ f) := by
  refine hk.trans ?_
  clear hk
  unfold State.secondBeacon
  with_reducible repeat' (first | exact Keeps.refl _ | apply ite_keep | apply State.modTbu_keep | apply State.modNet_keep | apply State.feedTheta_keep | split | intro _ | dsimp only)
theorem State.relayBeacon_keep {s : State} {n : Net} {b : Bool} {f : Bytes} (hk : Keeps s0 s) : Keeps s0 (State.relayBeacon s n b f) := by
  refine hk.trans ?_
  clear hk
  unfold State.relayBeacon
  with_reducible repeat' (first | exact Keeps.refl _ | refine foldl_keep (fun _ _ => ?_) ?_ | apply State.emit_keep | intro _ | dsimp only)
theorem State.syncBeacon_keep {s : State} {n : Net} {p : Fin 4} {at_ : Nat} {f : Bytes} (hk : Keeps s0 s) : Keeps s0 (State.syncBeacon s n p at_ f) := by
  refine hk.trans ?_
  clear hk
  unfold State.syncBeacon
  with_reducible repeat' (first | exact Keeps.refl _ | apply ite_keep | apply State.netStep_keep | apply State.modNet_keep | apply State.passing_keep | apply State.iff_keep | apply State.askDelay_keep | split | intro _ | dsimp only)
theorem State.beaconIn_keep {s : State} {n : Net} {p : Fin 4} {at_ : Nat} {f : Bytes} (hk : Keeps s0 s) : Keeps s0 (State.beaconIn s n p at_ f) := by
  refine hk.trans ?_
  clear hk
  unfold State.beaconIn; try dsimp only
  repeat' (first | with_reducible assumption | with_reducible exact Keeps.refl _ | with_reducible apply ite_keep | with_reducible refine foldl_keep (fun _ _ => ?_) ?_ | with_reducible apply State.enterSync_keep | with_reducible apply State.iff_keep | with_reducible apply State.askDelay_keep | with_reducible apply State.heard_keep | with_reducible apply State.modNet_keep | with_reducible apply State.mismatch_keep | with_reducible apply State.syncBeacon_keep | with_reducible apply State.passing_keep | with_reducible apply State.arrive_keep | with_reducible apply State.noteReady_keep | with_reducible apply State.relayBeacon_keep | with_reducible apply State.secondBeacon_keep | with_reducible apply State.firstBeacon_keep | with_reducible refine State.arrive_eq_keep (by assumption) ?_ | (intro k; (try dsimp only); (first | with_reducible exact k | with_reducible exact Tbl.wf_updAll _ _ _ _ k | with_reducible exact Tbl.wf_upd _ _ _ _ k | with_reducible exact Tbl.wf_store _ _ _ k | exact ⟨k.1, k.2.1, k.2.2.1, k.2.2.2⟩ | exact ⟨Tbl.wf_store _ _ _ k.1, k.2.1, k.2.2.1, k.2.2.2⟩ | exact ⟨k.1, Tbl.wf_store _ _ _ k.2.1, k.2.2.1, k.2.2.2⟩ | exact ⟨k.1, rfl, k.2.2.1, k.2.2.2⟩ | exact ⟨rfl, k.2.1, rfl, k.2.2.2⟩ | exact ⟨rfl, k.2.1, k.2.2.1, k.2.2.2⟩ | exact ⟨k.1, k.2.1, k.2.2.1, rfl⟩ | rfl)) | split | intro _ | dsimp only)
theorem effBeaconFrame_keep {n : Net} {port : Fin 4} {at_ : Nat} {f : Bytes} {s : State} (hk : Keeps s0 s) : Keeps s0 (effBeaconFrame n port at_ f s) := by
  refine hk.trans ?_
  clear hk
  unfold effBeaconFrame
  with_reducible repeat' (first | exact Keeps.refl _ | apply ite_keep | apply State.forwardFrame_keep | apply State.beaconIn_keep | split | dsimp only)
theorem State.segmentIn_keep {s : State} {n : Net} {c : SlotDesc} {b first : Bool} {f : Bytes} (hk : Keeps s0 s) : Keeps s0 (State.segmentIn s n c b first f) := by
  refine hk.trans ?_
  clear hk
  unfold State.segmentIn
  with_reducible repeat' (first | exact Keeps.refl _ | apply ite_keep | apply State.undone_keep | apply State.segGood_keep | apply State.segAgain_keep | split | dsimp only)
theorem State.dataIn_keep {s : State} {n : Net} {p : Fin 4} {at_ : Nat} {f : Bytes} (hk : Keeps s0 s) : Keeps s0 (State.dataIn s n p at_ f) := by
  refine hk.trans ?_
  clear hk
  unfold State.dataIn; try dsimp only
  repeat' (first | with_reducible assumption | with_reducible exact Keeps.refl _ | with_reducible apply ite_keep | with_reducible refine foldl_keep (fun _ _ => ?_) ?_ | with_reducible apply State.arrive_keep | with_reducible apply State.noteReady_keep | with_reducible apply State.modNet_keep | with_reducible apply State.iff_keep | with_reducible apply State.segmentIn_keep | with_reducible refine State.arrive_eq_keep (by assumption) ?_ | (intro k; (try dsimp only); (first | with_reducible exact k | with_reducible exact Tbl.wf_updAll _ _ _ _ k | with_reducible exact Tbl.wf_upd _ _ _ _ k | with_reducible exact Tbl.wf_store _ _ _ k | exact ⟨k.1, k.2.1, k.2.2.1, k.2.2.2⟩ | exact ⟨Tbl.wf_store _ _ _ k.1, k.2.1, k.2.2.1, k.2.2.2⟩ | exact ⟨k.1, Tbl.wf_store _ _ _ k.2.1, k.2.2.1, k.2.2.2⟩ | exact ⟨k.1, rfl, k.2.2.1, k.2.2.2⟩ | exact ⟨rfl, k.2.1, rfl, k.2.2.2⟩ | exact ⟨rfl, k.2.1, k.2.2.1, k.2.2.2⟩ | exact ⟨k.1, k.2.1, k.2.2.1, rfl⟩ | rfl)) | split | intro _ | dsimp only)
theorem effDataFrame_keep {n : Net} {port : Fin 4} {at_ : Nat} {f : Bytes} {s : State} (hk : Keeps s0 s) : Keeps s0 (effDataFrame n port at_ f s) := by
  refine hk.trans ?_
  clear hk
  unfold effDataFrame
  with_reducible repeat' (first | exact Keeps.refl _ | apply ite_keep | apply State.forwardFrame_keep | apply State.dataIn_keep | apply State.heard_keep | apply State.passing_keep | split | dsimp only)
theorem State.coldstartIn_keep {s : State} {n : Net} {p : Fin 4} {f : Bytes} (hk : Keeps s0 s) : Keeps s0 (State.coldstartIn s n p f) := by
  refine hk.trans ?_
  clear hk
  unfold State.coldstartIn
  with_reducible repeat' (first | exact Keeps.refl _ | apply ite_keep | apply State.modNet_keep | apply State.mismatch_keep | split | intro _ | dsimp only)
theorem effColdstartFrame_keep {n : Net} {port : Fin 4} {at_ : Nat} {f : Bytes} {s : State} (hk : Keeps s0 s) : Keeps s0 (effColdstartFrame n port at_ f s) := by
  refine hk.trans ?_
  clear hk
  unfold effColdstartFrame
  with_reducible repeat' (first | exact Keeps.refl _ | apply ite_keep | apply State.forwardFrame_keep | apply State.modNet_keep | apply State.arrive_keep | apply State.coldstartIn_keep | split | intro _ | dsimp only)
theorem effClaimFrame_keep {n : Net} {port : Fin 4} {at_ : Nat} {f : Bytes} {s : State} (hk : Keeps s0 s) : Keeps s0 (effClaimFrame n port at_ f s) := by
  refine hk.trans ?_
  clear hk
  unfold effClaimFrame; try dsimp only
  repeat' (first | with_reducible assumption | with_reducible exact Keeps.refl _ | with_reducible apply ite_keep | with_reducible refine foldl_keep (fun _ _ => ?_) ?_ | with_reducible apply State.forwardFrame_keep | with_reducible apply State.heard_keep | with_reducible apply State.passing_keep | with_reducible apply State.arrive_keep | with_reducible apply State.noteReady_keep | with_reducible apply State.modNet_keep | with_reducible refine State.arrive_eq_keep (by assumption) ?_ | (intro k; (try dsimp only); (first | with_reducible exact k | with_reducible exact Tbl.wf_updAll _ _ _ _ k | with_reducible exact Tbl.wf_upd _ _ _ _ k | with_reducible exact Tbl.wf_store _ _ _ k | exact ⟨k.1, k.2.1, k.2.2.1, k.2.2.2⟩ | exact ⟨Tbl.wf_store _ _ _ k.1, k.2.1, k.2.2.1, k.2.2.2⟩ | exact ⟨k.1, Tbl.wf_store _ _ _ k.2.1, k.2.2.1, k.2.2.2⟩ | exact ⟨k.1, rfl, k.2.2.1, k.2.2.2⟩ | exact ⟨rfl, k.2.1, rfl, k.2.2.2⟩ | exact ⟨rfl, k.2.1, k.2.2.1, k.2.2.2⟩ | exact ⟨k.1, k.2.1, k.2.2.1, rfl⟩ | rfl)) | split | intro _ | dsimp only)
theorem State.takeD_keep {s : State} {n : Net} {b : Bool} {at_ : Nat} {f : Bytes} (hk : Keeps s0 s) : Keeps s0 (State.takeD s n b at_ f) := by
  refine hk.trans ?_
  clear hk
  unfold State.takeD
  with_reducible repeat' (first | exact Keeps.refl _ | apply ite_keep | apply State.bump_keep | apply State.filterD_keep | apply State.gotD_keep | split | intro _ | dsimp only)
theorem effDelayFrame_keep {n : Net} {port : Fin 4} {at_ : Nat} {f : Bytes} {s : State} (hk : Keeps s0 s) : Keeps s0 (effDelayFrame n port at_ f s) := by
  refine hk.trans ?_
  clear hk
  unfold effDelayFrame; try dsimp only
  repeat' (first | with_reducible assumption | with_reducible exact Keeps.refl _ | with_reducible apply ite_keep | with_reducible refine foldl_keep (fun _ _ => ?_) ?_ | with_reducible apply State.forwardFrame_keep | with_reducible apply State.request_keep | with_reducible apply State.iff_keep | with_reducible apply State.modNet_keep | with_reducible apply State.takeD_keep | with_reducible apply State.passing_keep | with_reducible apply State.heard_keep | with_reducible apply State.arrive_keep | with_reducible apply State.noteReady_keep | with_reducible refine State.arrive_eq_keep (by assumption) ?_ | (intro k; (try dsimp only); (first | with_reducible exact k | with_reducible exact Tbl.wf_updAll _ _ _ _ k | with_reducible exact Tbl.wf_upd _ _ _ _ k | with_reducible exact Tbl.wf_store _ _ _ k | exact ⟨k.1, k.2.1, k.2.2.1, k.2.2.2⟩ | exact ⟨Tbl.wf_store _ _ _ k.1, k.2.1, k.2.2.1, k.2.2.2⟩ | exact ⟨k.1, Tbl.wf_store _ _ _ k.2.1, k.2.2.1, k.2.2.2⟩ | exact ⟨k.1, rfl, k.2.2.1, k.2.2.2⟩ | exact ⟨rfl, k.2.1, rfl, k.2.2.2⟩ | exact ⟨rfl, k.2.1, k.2.2.1, k.2.2.2⟩ | exact ⟨k.1, k.2.1, k.2.2.1, rfl⟩ | rfl)) | split | intro _ | dsimp only)
theorem effAcyclicFrame_keep {n : Net} {port : Fin 4} {at_ : Nat} {f : Bytes} {s : State} (hk : Keeps s0 s) : Keeps s0 (effAcyclicFrame n port at_ f s) := by
  refine hk.trans ?_
  clear hk
  unfold effAcyclicFrame; try dsimp only
  repeat' (first | with_reducible assumption | with_reducible exact Keeps.refl _ | with_reducible apply ite_keep | with_reducible refine foldl_keep (fun _ _ => ?_) ?_ | with_reducible apply State.forwardFrame_keep | with_reducible apply State.heard_keep | with_reducible apply State.passing_keep | with_reducible apply State.arrive_keep | with_reducible apply State.noteReady_keep | with_reducible apply State.acyclicIn_keep | with_reducible refine State.arrive_eq_keep (by assumption) ?_ | (intro k; (try dsimp only); (first | with_reducible exact k | with_reducible exact Tbl.wf_updAll _ _ _ _ k | with_reducible exact Tbl.wf_upd _ _ _ _ k | with_reducible exact Tbl.wf_store _ _ _ k | exact ⟨k.1, k.2.1, k.2.2.1, k.2.2.2⟩ | exact ⟨Tbl.wf_store _ _ _ k.1, k.2.1, k.2.2.1, k.2.2.2⟩ | exact ⟨k.1, Tbl.wf_store _ _ _ k.2.1, k.2.2.1, k.2.2.2⟩ | exact ⟨k.1, rfl, k.2.2.1, k.2.2.2⟩ | exact ⟨rfl, k.2.1, rfl, k.2.2.2⟩ | exact ⟨rfl, k.2.1, k.2.2.1, k.2.2.2⟩ | exact ⟨k.1, k.2.1, k.2.2.1, rfl⟩ | rfl)) | split | intro _ | dsimp only)
theorem State.answerDelay_keep {s : State} {n : Net} {c : SlotDesc} {okA okB : Bool} (hk : Keeps s0 s) : Keeps s0 (State.answerDelay s n c okA okB) := by
  refine hk.trans ?_
  clear hk
  unfold State.answerDelay
  with_reducible repeat' (first | exact Keeps.refl _ | apply ite_keep | apply State.sendOn_keep | apply State.iff_keep | apply State.modNet_keep | split | intro _ | dsimp only)
theorem State.hubSlot_keep {s : State} {n : Net} {c : SlotDesc} {okA okB : Bool} (hk : Keeps s0 s) : Keeps s0 (State.hubSlot s n c okA okB) := by
  refine hk.trans ?_
  clear hk
  unfold State.hubSlot; try dsimp only
  repeat' (first | with_reducible assumption | with_reducible exact Keeps.refl _ | with_reducible apply ite_keep | with_reducible refine foldl_keep (fun _ _ => ?_) ?_ | with_reducible apply State.sendSlot_keep | with_reducible apply State.modNet_keep | with_reducible apply State.bump_keep | with_reducible apply State.acyclicOut_keep | with_reducible apply State.answerDelay_keep | with_reducible refine State.acyclicOut_eq_keep (by assumption) ?_ | (intro k; (try dsimp only); (first | with_reducible exact k | with_reducible exact Tbl.wf_updAll _ _ _ _ k | with_reducible exact Tbl.wf_upd _ _ _ _ k | with_reducible exact Tbl.wf_store _ _ _ k | exact ⟨k.1, k.2.1, k.2.2.1, k.2.2.2⟩ | exact ⟨Tbl.wf_store _ _ _ k.1, k.2.1, k.2.2.1, k.2.2.2⟩ | exact ⟨k.1, Tbl.wf_store _ _ _ k.2.1, k.2.2.1, k.2.2.2⟩ | exact ⟨k.1, rfl, k.2.2.1, k.2.2.2⟩ | exact ⟨rfl, k.2.1, rfl, k.2.2.2⟩ | exact ⟨rfl, k.2.1, k.2.2.1, k.2.2.2⟩ | exact ⟨k.1, k.2.1, k.2.2.1, rfl⟩ | rfl)) | split | intro _ | dsimp only)
theorem State.nodeSlot_keep {s : State} {n : Net} {c : SlotDesc} {okA okB : Bool} (hk : Keeps s0 s) : Keeps s0 (State.nodeSlot s n c okA okB) := by
  refine hk.trans ?_
  clear hk
  unfold State.nodeSlot; try dsimp only
  repeat' (first | with_reducible assumption | with_reducible exact Keeps.refl _ | with_reducible apply ite_keep | with_reducible refine foldl_keep (fun _ _ => ?_) ?_ | with_reducible apply State.sendSlot_keep | with_reducible apply State.modNet_keep | with_reducible apply State.iff_keep | with_reducible apply State.askDelay_keep | with_reducible apply State.acyclicOut_keep | with_reducible refine State.acyclicOut_eq_keep (by assumption) ?_ | (intro k; (try dsimp only); (first | with_reducible exact k | with_reducible exact Tbl.wf_updAll _ _ _ _ k | with_reducible exact Tbl.wf_upd _ _ _ _ k | with_reducible exact Tbl.wf_store _ _ _ k | exact ⟨k.1, k.2.1, k.2.2.1, k.2.2.2⟩ | exact ⟨Tbl.wf_store _ _ _ k.1, k.2.1, k.2.2.1, k.2.2.2⟩ | exact ⟨k.1, Tbl.wf_store _ _ _ k.2.1, k.2.2.1, k.2.2.2⟩ | exact ⟨k.1, rfl, k.2.2.1, k.2.2.2⟩ | exact ⟨rfl, k.2.1, rfl, k.2.2.2⟩ | exact ⟨rfl, k.2.1, k.2.2.1, k.2.2.2⟩ | exact ⟨k.1, k.2.1, k.2.2.1, rfl⟩ | rfl)) | split | intro _ | dsimp only)
theorem effSlotStart_keep {n : Net} {slot : Fin 4096} {devA devB : Int} {s : State} (hk : Keeps s0 s) : Keeps s0 (effSlotStart n slot devA devB s) := by
  refine hk.trans ?_
  clear hk
  unfold effSlotStart
  with_reducible repeat' (first | exact Keeps.refl _ | apply ite_keep | apply State.modNet_keep | apply State.refuse_keep | apply State.hubSlot_keep | apply State.nodeSlot_keep | split | intro _ | dsimp only)
theorem State.slotMissed_keep {s : State} {n : Net} {slot : Nat} (hk : Keeps s0 s) : Keeps s0 (State.slotMissed s n slot) := by
  refine hk.trans ?_
  clear hk
  unfold State.slotMissed
  with_reducible repeat' (first | exact Keeps.refl _ | apply ite_keep | apply State.missed_keep | apply State.targetLost_keep | split | intro _ | dsimp only)
theorem effAcceptanceWindowEnd_keep {n : Net} {slot : Fin 4096} {s : State} (hk : Keeps s0 s) : Keeps s0 (effAcceptanceWindowEnd n slot s) := by
  refine hk.trans ?_
  clear hk
  unfold effAcceptanceWindowEnd
  with_reducible repeat' (first | exact Keeps.refl _ | apply ite_keep | apply State.modNet_keep | apply State.iff_keep | apply State.slotMissed_keep | split | intro _ | dsimp only)
theorem effListenTimeout_keep {n : Net} {s : State} (hk : Keeps s0 s) : Keeps s0 (effListenTimeout n s) := by
  refine hk.trans ?_
  clear hk
  unfold effListenTimeout
  with_reducible repeat' (first | exact Keeps.refl _ | apply ite_keep | apply State.modNet_keep | apply State.sendColdstart_keep | split | intro _ | dsimp only)
theorem effColdstartWindowEnd_keep {n : Net} {s : State} (hk : Keeps s0 s) : Keeps s0 (effColdstartWindowEnd n s) := by
  refine hk.trans ?_
  clear hk
  unfold effColdstartWindowEnd
  with_reducible repeat' (first | exact Keeps.refl _ | apply ite_keep | apply State.netStep_keep | apply State.modNet_keep | apply State.integrate_keep | apply State.referenceRate_keep | split | intro _ | dsimp only)
theorem effWaitTimeout_keep {n : Net} {s : State} (hk : Keeps s0 s) : Keeps s0 (effWaitTimeout n s) := by
  refine hk.trans ?_
  clear hk
  unfold effWaitTimeout
  with_reducible repeat' (first | exact Keeps.refl _ | apply ite_keep | apply State.modNet_keep | split | intro _ | dsimp only)
theorem effObserveTimeout_keep {n : Net} {s : State} (hk : Keeps s0 s) : Keeps s0 (effObserveTimeout n s) := by
  refine hk.trans ?_
  clear hk
  unfold effObserveTimeout
  with_reducible repeat' (first | exact Keeps.refl _ | apply ite_keep | apply State.modNet_keep | split | intro _ | dsimp only)
theorem effBeaconLoss_keep {n : Net} {s : State} (hk : Keeps s0 s) : Keeps s0 (effBeaconLoss n s) := by
  refine hk.trans ?_
  clear hk
  unfold effBeaconLoss
  with_reducible repeat' (first | exact Keeps.refl _ | apply ite_keep | apply State.leave_keep | split | dsimp only)
theorem effHubAssumesReference_keep {n : Net} {s : State} (hk : Keeps s0 s) : Keeps s0 (effHubAssumesReference n s) := by
  refine hk.trans ?_
  clear hk
  unfold effHubAssumesReference
  with_reducible repeat' (first | exact Keeps.refl _ | apply ite_keep | apply State.modNet_keep | apply State.referenceRate_keep | split | intro _ | dsimp only)
theorem effGuardianLimit_keep {n : Net} {s : State} (hk : Keeps s0 s) : Keeps s0 (effGuardianLimit n s) := by
  refine hk.trans ?_
  clear hk
  unfold effGuardianLimit
  with_reducible repeat' (first | exact Keeps.refl _ | apply ite_keep | apply State.leave_keep | apply State.modNet_keep | split | intro _ | dsimp only)
theorem effRingSplit_keep {n : Net} {c : Chan} {s : State} (hk : Keeps s0 s) : Keeps s0 (effRingSplit n c s) := by
  refine hk.trans ?_
  clear hk
  unfold effRingSplit
  with_reducible repeat' (first | exact Keeps.refl _ | apply ite_keep | apply State.modNet_keep | split | intro _ | dsimp only)
theorem effClaimAbandoned_keep {n : Net} {s : State} (hk : Keeps s0 s) : Keeps s0 (effClaimAbandoned n s) := by
  refine hk.trans ?_
  clear hk
  unfold effClaimAbandoned
  with_reducible repeat' (first | exact Keeps.refl _ | apply ite_keep | apply State.modNet_keep | split | intro _ | dsimp only)
theorem effGrantReleased_keep {n : Net} {slot : Fin 4096} {s : State} (hk : Keeps s0 s) : Keeps s0 (effGrantReleased n slot s) := by
  refine hk.trans ?_
  clear hk
  unfold effGrantReleased
  with_reducible repeat' (first | exact Keeps.refl _ | apply ite_keep | apply State.modNet_keep | split | intro _ | dsimp only)
theorem effLinkChange_keep {n : Net} {port : Fin 4} {up master : Bool} {s : State} (hk : Keeps s0 s) : Keeps s0 (effLinkChange n port up master s) := by
  refine hk.trans ?_
  clear hk
  unfold effLinkChange
  with_reducible repeat' (first | exact Keeps.refl _ | apply ite_keep | apply State.modNet_keep | split | intro _ | dsimp only)
theorem State.replayDone_keep {s : State} {n : Nat} (hk : Keeps s0 s) : Keeps s0 (State.replayDone s n) := by
  refine hk.trans ?_
  clear hk
  unfold State.replayDone
  with_reducible repeat' (first | exact Keeps.refl _ | apply State.modRing_keep | intro _ | dsimp only)
theorem State.replayCommitted_keep {s : State} {n : Nat} (hk : Keeps s0 s) : Keeps s0 (State.replayCommitted s n) := by
  refine hk.trans ?_
  clear hk
  unfold State.replayCommitted
  with_reducible repeat' (first | exact Keeps.refl _ | apply ite_keep | refine foldl_keep (fun _ _ => ?_) ?_ | apply State.putDone_keep | apply State.modJournal_keep | apply State.flush_keep | split | intro _ | dsimp only)
theorem State.replayAccepted_keep {s : State} {n : Nat} (hk : Keeps s0 s) : Keeps s0 (State.replayAccepted s n) := by
  refine hk.trans ?_
  clear hk
  unfold State.replayAccepted
  with_reducible repeat' (first | exact Keeps.refl _ | apply ite_keep | refine foldl_keep (fun _ _ => ?_) ?_ | apply State.putAccepted_keep | split | intro _ | dsimp only)
theorem State.replayRing_keep {s : State} {n : Nat} (hk : Keeps s0 s) : Keeps s0 (State.replayRing s n) := by
  refine hk.trans ?_
  clear hk
  unfold State.replayRing
  with_reducible repeat' (first | exact Keeps.refl _ | apply State.replayCommitted_keep | apply State.replayAccepted_keep | apply State.replayDone_keep | dsimp only)
theorem State.backToAccepted_keep {s : State} (hk : Keeps s0 s) : Keeps s0 (State.backToAccepted s) := by
  refine hk.trans ?_
  clear hk
  unfold State.backToAccepted
  with_reducible repeat' (first | exact Keeps.refl _ | apply ite_keep | apply State.modJournal_keep | apply State.executing_keep | split | intro _ | dsimp only)
theorem State.stopWork_keep {s : State} (hk : Keeps s0 s) : Keeps s0 (State.stopWork s) := by
  refine hk.trans ?_
  clear hk
  unfold State.stopWork
  with_reducible repeat' (first | exact Keeps.refl _ | apply State.modSys_keep | apply State.backToAccepted_keep | intro _ | dsimp only)
theorem State.replayWarm_keep {s : State} (hk : Keeps s0 s) : Keeps s0 (State.replayWarm s) := by
  refine hk.trans ?_
  clear hk
  unfold State.replayWarm
  with_reducible repeat' (first | exact Keeps.refl _ | refine foldl_keep (fun _ _ => ?_) ?_ | apply State.replayRing_keep | apply State.backToAccepted_keep | dsimp only)
theorem State.abandonRing_keep {s : State} {n : Nat} (hk : Keeps s0 s) : Keeps s0 (State.abandonRing s n) := by
  refine hk.trans ?_
  clear hk
  unfold State.abandonRing
  with_reducible repeat' (first | exact Keeps.refl _ | apply ite_keep | refine foldl_keep (fun _ _ => ?_) ?_ | apply State.putDone_keep | apply State.replayDone_keep | split | intro _ | dsimp only)
theorem State.markAbandoned_keep {s : State} (hk : Keeps s0 s) : Keeps s0 (State.markAbandoned s) := by
  refine hk.trans ?_
  clear hk
  unfold State.markAbandoned
  with_reducible repeat' (first | exact Keeps.refl _ | apply ite_keep | apply State.modJournal_keep | split | intro _ | dsimp only)
theorem State.replayCold_keep {s : State} (hk : Keeps s0 s) : Keeps s0 (State.replayCold s) := by
  refine hk.trans ?_
  clear hk
  unfold State.replayCold
  with_reducible repeat' (first | exact Keeps.refl _ | refine foldl_keep (fun _ _ => ?_) ?_ | apply State.abandonRing_keep | apply State.markAbandoned_keep | dsimp only)
theorem State.takeRings_keep {s : State} (hk : Keeps s0 s) : Keeps s0 (State.takeRings s) := by
  refine hk.trans ?_
  clear hk
  unfold State.takeRings; try dsimp only
  repeat' (first | with_reducible assumption | with_reducible exact Keeps.refl _ | with_reducible apply ite_keep | with_reducible refine foldl_keep (fun _ _ => ?_) ?_ | with_reducible apply State.modRings_keep | with_reducible apply State.takeover_keep | with_reducible apply State.replayDone_keep | with_reducible apply State.undelivered_keep | with_reducible apply State.modMem_keep | (intro k; (try dsimp only); (first | with_reducible exact k | with_reducible exact Tbl.wf_updAll _ _ _ _ k | with_reducible exact Tbl.wf_upd _ _ _ _ k | with_reducible exact Tbl.wf_store _ _ _ k | exact ⟨k.1, k.2.1, k.2.2.1, k.2.2.2⟩ | exact ⟨Tbl.wf_store _ _ _ k.1, k.2.1, k.2.2.1, k.2.2.2⟩ | exact ⟨k.1, Tbl.wf_store _ _ _ k.2.1, k.2.2.1, k.2.2.2⟩ | exact ⟨k.1, rfl, k.2.2.1, k.2.2.2⟩ | exact ⟨rfl, k.2.1, rfl, k.2.2.2⟩ | exact ⟨rfl, k.2.1, k.2.2.1, k.2.2.2⟩ | exact ⟨k.1, k.2.1, k.2.2.1, rfl⟩ | rfl)) | split | intro _ | dsimp only)
theorem State.dropSwap_keep {s : State} (hk : Keeps s0 s) : Keeps s0 (State.dropSwap s) := by
  refine hk.trans ?_
  clear hk
  unfold State.dropSwap
  with_reducible repeat' (first | exact Keeps.refl _ | apply State.modDpx_keep | apply State.resume_keep | apply State.refuse_keep | split | intro _ | dsimp only)
theorem State.latchWaiting_keep {s : State} (hk : Keeps s0 s) : Keeps s0 (State.latchWaiting s) := by
  refine hk.trans ?_
  clear hk
  unfold State.latchWaiting
  with_reducible repeat' (first | exact Keeps.refl _ | apply ite_keep | refine foldl_keep (fun _ _ => ?_) ?_ | apply State.modTask_keep | apply State.latch_keep | split | intro _ | dsimp only)
theorem State.standbyGone_keep {s : State} (hk : Keeps s0 s) : Keeps s0 (State.standbyGone s) := by
  refine hk.trans ?_
  clear hk
  unfold State.standbyGone
  with_reducible repeat' (first | exact Keeps.refl _ | apply ite_keep | apply State.standbyTo_keep | apply State.modDpx_keep | apply State.setRole_keep | apply State.latchWaiting_keep | apply State.dropSwap_keep | split | intro _ | dsimp only)
theorem State.synced_keep {s : State} {cause : Nat} (hk : Keeps s0 s) : Keeps s0 (State.synced s cause) := by
  refine hk.trans ?_
  clear hk
  unfold State.synced
  with_reducible repeat' (first | exact Keeps.refl _ | apply State.standbyTo_keep | apply State.modDpx_keep | intro _ | dsimp only)
theorem State.takeStile_keep {s : State} (hk : Keeps s0 s) : Keeps s0 (State.takeStile s) := by
  refine hk.trans ?_
  clear hk
  unfold State.takeStile
  with_reducible repeat' (first | exact Keeps.refl _ | refine foldl_keep (fun _ _ => ?_) ?_ | apply State.postedFail_keep | apply State.modStl_keep | apply State.modDpx_keep | split | intro _ | dsimp only)
theorem State.settleSwap_keep {s : State} {swap fault : Bool} (hk : Keeps s0 s) : Keeps s0 (State.settleSwap s swap fault) := by
  refine hk.trans ?_
  clear hk
  unfold State.settleSwap
  with_reducible repeat' (first | exact Keeps.refl _ | apply ite_keep | apply State.fault_keep | apply State.modEntry_keep | split | intro _ | dsimp only)
theorem State.latchAll_keep {s : State} (hk : Keeps s0 s) : Keeps s0 (State.latchAll s) := by
  refine hk.trans ?_
  clear hk
  unfold State.latchAll
  with_reducible repeat' (first | exact Keeps.refl _ | refine foldl_keep (fun _ _ => ?_) ?_ | apply State.latch_keep | intro _ | dsimp only)
theorem State.resumeImage_keep {s : State} (hk : Keeps s0 s) : Keeps s0 (State.resumeImage s) := by
  refine hk.trans ?_
  clear hk
  unfold State.resumeImage
  with_reducible repeat' (first | exact Keeps.refl _ | apply ite_keep | refine foldl_keep (fun _ _ => ?_) ?_ | apply State.modIn_keep | split | intro _ | dsimp only)
theorem State.becomeActive_keep {s : State} {swap : Bool} (hk : Keeps s0 s) : Keeps s0 (State.becomeActive s swap) := by
  refine hk.trans ?_
  clear hk
  unfold State.becomeActive
  with_reducible repeat' (first | exact Keeps.refl _ | apply ite_keep | apply State.fault_keep | apply State.cancelArmed_keep | apply State.assertClaim_keep | apply State.modDpx_keep | apply State.takeRings_keep | apply State.setRole_keep | apply State.setMode_keep | apply State.modAllTasks_keep | apply State.resumeImage_keep | apply State.takeStile_keep | apply State.modProg_keep | apply State.settleSwap_keep | apply State.replayWarm_keep | apply State.latchAll_keep | split | intro _ | dsimp only)
theorem State.takeover_keep {s : State} (hk : Keeps s0 s) : Keeps s0 (State.takeover s) := by
  refine hk.trans ?_
  clear hk
  unfold State.takeover
  with_reducible repeat' (first | exact Keeps.refl _ | apply ite_keep | apply State.becomeActive_keep | split | dsimp only)
theorem State.resyncEnds_keep {s : State} (hk : Keeps s0 s) : Keeps s0 (State.resyncEnds s) := by
  refine hk.trans ?_
  clear hk
  unfold State.resyncEnds
  with_reducible repeat' (first | exact Keeps.refl _ | apply ite_keep | apply State.setRole_keep | apply State.modDpx_keep | split | intro _ | dsimp only)
theorem effHeartbeat_keep {lane : Fin 2} {m : HeartbeatMsg} {s : State} (hk : Keeps s0 s) : Keeps s0 (effHeartbeat lane m s) := by
  refine hk.trans ?_
  clear hk
  unfold effHeartbeat
  with_reducible repeat' (first | exact Keeps.refl _ | apply ite_keep | apply State.modDpx_keep | apply State.enterStart_keep | apply State.resyncEnds_keep | apply State.setRole_keep | apply State.takeover_keep | apply State.standbyTo_keep | apply State.standbyGone_keep | split | intro _ | dsimp only)
theorem effHeartbeatSend_keep {s : State} (hk : Keeps s0 s) : Keeps s0 (effHeartbeatSend s) := by
  refine hk.trans ?_
  clear hk
  unfold effHeartbeatSend
  with_reducible repeat' (first | exact Keeps.refl _ | apply ite_keep | apply State.modDpx_keep | apply State.emit_keep | split | intro _ | dsimp only)
theorem effHeartbeatLoss_keep {s : State} (hk : Keeps s0 s) : Keeps s0 (effHeartbeatLoss s) := by
  refine hk.trans ?_
  clear hk
  unfold effHeartbeatLoss
  with_reducible repeat' (first | exact Keeps.refl _ | apply ite_keep | apply State.modDpx_keep | apply State.takeover_keep | apply State.standbyGone_keep | apply State.setRole_keep | split | intro _ | dsimp only)
theorem effPairLinkLaneLoss_keep {lane : Fin 2} {s : State} (hk : Keeps s0 s) : Keeps s0 (effPairLinkLaneLoss lane s) := by
  refine hk.trans ?_
  clear hk
  unfold effPairLinkLaneLoss
  with_reducible repeat' (first | exact Keeps.refl _ | apply ite_keep | apply State.modDpx_keep | apply State.resyncEnds_keep | apply State.standbyGone_keep | split | intro _ | dsimp only)
theorem effPairLinkLaneRestored_keep {lane : Fin 2} {s : State} (hk : Keeps s0 s) : Keeps s0 (effPairLinkLaneRestored lane s) := by
  refine hk.trans ?_
  clear hk
  unfold effPairLinkLaneRestored
  with_reducible repeat' (first | exact Keeps.refl _ | apply ite_keep | apply State.modDpx_keep | split | intro _ | dsimp only)
theorem effClaimReleased_keep {s : State} (hk : Keeps s0 s) : Keeps s0 (effClaimReleased s) := by
  refine hk.trans ?_
  clear hk
  unfold effClaimReleased
  with_reducible repeat' (first | exact Keeps.refl _ | apply ite_keep | apply State.modDpx_keep | apply State.takeover_keep | apply State.raise_keep | split | intro _ | dsimp only)
theorem effClaimRecognised_keep {s : State} (hk : Keeps s0 s) : Keeps s0 (effClaimRecognised s) := by
  refine hk.trans ?_
  clear hk
  unfold effClaimRecognised
  with_reducible repeat' (first | exact Keeps.refl _ | apply ite_keep | apply State.modDpx_keep | apply State.releaseClaim_keep | apply State.enterStart_keep | apply State.forceProgress_keep | apply State.modAllTasks_keep | apply State.stopWork_keep | apply State.setRole_keep | apply State.setMode_keep | split | intro _ | dsimp only)
theorem effClaimWatchdogExpiry_keep {s : State} (hk : Keeps s0 s) : Keeps s0 (effClaimWatchdogExpiry s) := by
  refine hk.trans ?_
  clear hk
  unfold effClaimWatchdogExpiry
  with_reducible repeat' (first | exact Keeps.refl _ | apply ite_keep | apply State.releaseClaim_keep | split | dsimp only)
theorem State.mirrorOutputs_keep {s : State} {l : List (Nat × Byte)} (hk : Keeps s0 s) : Keeps s0 (State.mirrorOutputs s l) := by
  refine hk.trans ?_
  clear hk
  unfold State.mirrorOutputs
  with_reducible repeat' (first | exact Keeps.refl _ | refine foldl_keep (fun _ _ => ?_) ?_ | apply State.modSwd_keep | split | intro _ | dsimp only)
theorem State.mirrorStile_keep {s : State} {m : StileMirror} (hk : Keeps s0 s) : Keeps s0 (State.mirrorStile s m) := by
  refine hk.trans ?_
  clear hk
  unfold State.mirrorStile
  with_reducible repeat' (first | exact Keeps.refl _ | apply ite_keep | refine foldl_keep (fun _ _ => ?_) ?_ | apply State.modCfg_keep | apply State.modStl_keep | apply State.modHl1_keep | apply State.modHl2_keep | apply State.modDpx_keep | split | intro _ | dsimp only)
theorem State.applyItem_keep {s : State} {it : MirrorItem} (hk : Keeps s0 s) : Keeps s0 (State.applyItem s it) := by
  refine hk.trans ?_
  clear hk
  unfold State.applyItem
  with_reducible repeat' (first | exact Keeps.refl _ | apply ite_keep | apply State.modProg_keep | apply State.store_keep | apply State.setTasks_keep | apply State.iff_keep | apply State.loadLanes_keep | apply State.modCfg_keep | apply State.applyConfig_keep | split | intro _ | dsimp only)
theorem State.stage_keep {s : State} {it : MirrorItem} (hk : Keeps s0 s) : Keeps s0 (State.stage s it) := by
  refine hk.trans ?_
  clear hk
  unfold State.stage
  with_reducible repeat' (first | exact Keeps.refl _ | apply ite_keep | apply State.modDpx_keep | apply State.applyItem_keep | split | intro _ | dsimp only)
theorem State.unstage_keep {s : State} {c : JMirror} (hk : Keeps s0 s) : Keeps s0 (State.unstage s c) := by
  refine hk.trans ?_
  clear hk
  unfold State.unstage
  with_reducible repeat' (first | exact Keeps.refl _ | apply ite_keep | refine foldl_keep (fun _ _ => ?_) ?_ | apply State.modDpx_keep | apply State.applyItem_keep | split | intro _ | dsimp only)
theorem State.mirrorVersion_keep {s : State} {m : CycleMirror} (hk : Keeps s0 s) : Keeps s0 (State.mirrorVersion s m) := by
  refine hk.trans ?_
  clear hk
  unfold State.mirrorVersion
  with_reducible repeat' (first | exact Keeps.refl _ | apply State.noteMirrored_keep | apply State.modSwd_keep | apply State.modTask_keep | apply State.prune_keep | intro _ | dsimp only)
theorem State.mirrorSafety_keep {s : State} {m : CycleMirror} (hk : Keeps s0 s) : Keeps s0 (State.mirrorSafety s m) := by
  refine hk.trans ?_
  clear hk
  unfold State.mirrorSafety
  with_reducible repeat' (first | exact Keeps.refl _ | apply ite_keep | apply State.modTri_keep | apply State.store_keep | apply State.modCpr_keep | split | intro _ | dsimp only)
theorem State.mirrorHeader_keep {s : State} {q : Quad} {run : Bool} (hk : Keeps s0 s) : Keeps s0 (State.mirrorHeader s q run) := by
  refine hk.trans ?_
  clear hk
  unfold State.mirrorHeader
  with_reducible repeat' (first | exact Keeps.refl _ | apply ite_keep | apply State.modProg_keep | split | intro _ | dsimp only)
theorem State.applyMirror_keep {s : State} {m : CycleMirror} (hk : Keeps s0 s) : Keeps s0 (State.applyMirror s m) := by
  refine hk.trans ?_
  clear hk
  unfold State.applyMirror
  with_reducible repeat' (first | exact Keeps.refl _ | apply ite_keep | refine foldl_keep (fun _ _ => ?_) ?_ | apply State.unstage_keep | apply State.mirrorOutputs_keep | apply State.mirrorVersion_keep | apply State.mirrorSafety_keep | apply State.modProg_keep | apply State.storeVars_keep | apply State.mirrorHeader_keep | apply State.modEntry_keep | apply State.modStation_keep | apply State.missed_keep | apply State.modDpx_keep | split | intro _ | dsimp only)
theorem effCycleMirror_keep {m : CycleMirror} {s : State} (hk : Keeps s0 s) : Keeps s0 (effCycleMirror m s) := by
  refine hk.trans ?_
  clear hk
  unfold effCycleMirror
  with_reducible repeat' (first | exact Keeps.refl _ | apply ite_keep | apply State.complete_keep | apply State.applyMirror_keep | apply State.emit_keep | apply State.setRole_keep | apply State.modDpx_keep | split | intro _ | dsimp only)
theorem State.caughtUp_keep {s : State} {t : Nat} (hk : Keeps s0 s) : Keeps s0 (State.caughtUp s t) := by
  refine hk.trans ?_
  clear hk
  unfold State.caughtUp
  with_reducible repeat' (first | exact Keeps.refl _ | apply ite_keep | apply State.modDpx_keep | apply State.synced_keep | split | intro _ | dsimp only)
theorem effMirrorAck_keep {t : Fin 17} {mseq : Quad} {s : State} (hk : Keeps s0 s) : Keeps s0 (effMirrorAck t mseq s) := by
  refine hk.trans ?_
  clear hk
  unfold effMirrorAck
  with_reducible repeat' (first | exact Keeps.refl _ | apply ite_keep | apply State.modTask_keep | apply State.caughtUp_keep | apply State.latch_keep | split | intro _ | dsimp only)
theorem effMirrorStretchLimit_keep {t : Fin 17} {s : State} (hk : Keeps s0 s) : Keeps s0 (effMirrorStretchLimit t s) := by
  refine hk.trans ?_
  clear hk
  unfold effMirrorStretchLimit
  with_reducible repeat' (first | exact Keeps.refl _ | apply ite_keep | apply State.mirrorMissed_keep | apply State.latch_keep | split | dsimp only)
theorem effMirroredItem_keep {it : MirrorItem} {s : State} (hk : Keeps s0 s) : Keeps s0 (effMirroredItem it s) := by
  refine hk.trans ?_
  clear hk
  unfold effMirroredItem; try dsimp only
  repeat' (first | with_reducible assumption | with_reducible exact Keeps.refl _ | with_reducible apply ite_keep | with_reducible refine foldl_keep (fun _ _ => ?_) ?_ | with_reducible apply State.modJournal_keep | with_reducible apply State.modRing_keep | with_reducible apply State.modSys_keep | with_reducible apply State.emit_keep | with_reducible apply State.modProg_keep | with_reducible apply State.stage_keep | with_reducible apply State.modSaf_keep | with_reducible apply State.applyChannels_keep | with_reducible apply State.modDpx_keep | with_reducible apply State.mirrorStile_keep | with_reducible apply State.modMem_keep | with_reducible apply State.store_keep | (intro k; (try dsimp only); (first | with_reducible exact k | with_reducible exact Tbl.wf_updAll _ _ _ _ k | with_reducible exact Tbl.wf_upd _ _ _ _ k | with_reducible exact Tbl.wf_store _ _ _ k | exact ⟨k.1, k.2.1, k.2.2.1, k.2.2.2⟩ | exact ⟨Tbl.wf_store _ _ _ k.1, k.2.1, k.2.2.1, k.2.2.2⟩ | exact ⟨k.1, Tbl.wf_store _ _ _ k.2.1, k.2.2.1, k.2.2.2⟩ | exact ⟨k.1, rfl, k.2.2.1, k.2.2.2⟩ | exact ⟨rfl, k.2.1, rfl, k.2.2.2⟩ | exact ⟨rfl, k.2.1, k.2.2.1, k.2.2.2⟩ | exact ⟨k.1, k.2.1, k.2.2.1, rfl⟩ | rfl)) | split | intro _ | dsimp only)
theorem effResyncPhaseComplete_keep {failedCheck : BitVec 4} {s : State} (hk : Keeps s0 s) : Keeps s0 (effResyncPhaseComplete failedCheck s) := by
  refine hk.trans ?_
  clear hk
  unfold effResyncPhaseComplete
  with_reducible repeat' (first | exact Keeps.refl _ | apply ite_keep | apply State.modDpx_keep | apply State.setRole_keep | apply State.standbyTo_keep | apply State.takeover_keep | apply State.synced_keep | split | intro _ | dsimp only)
theorem effCatchUpTimeout_keep {passes : Byte} {residueKib : Word} {s : State} (hk : Keeps s0 s) : Keeps s0 (effCatchUpTimeout passes residueKib s) := by
  refine hk.trans ?_
  clear hk
  unfold effCatchUpTimeout
  with_reducible repeat' (first | exact Keeps.refl _ | apply ite_keep | apply State.modDpx_keep | apply State.raise_keep | split | intro _ | dsimp only)
theorem effExerciseDue_keep {s : State} (hk : Keeps s0 s) : Keeps s0 (effExerciseDue s) := by
  refine hk.trans ?_
  clear hk
  unfold effExerciseDue
  with_reducible repeat' (first | exact Keeps.refl _ | apply ite_keep | apply State.modDpx_keep | apply State.raise_keep | apply State.iff_keep | apply State.setEvent_keep | split | intro _ | dsimp only)
theorem State.swapAway_keep {s : State} {h : Option Quad} (hk : Keeps s0 s) : Keeps s0 (State.swapAway s h) := by
  refine hk.trans ?_
  clear hk
  unfold State.swapAway
  with_reducible repeat' (first | exact Keeps.refl _ | apply State.commitOnly_keep | apply State.releaseClaim_keep | apply State.modDpx_keep | apply State.forceProgress_keep | apply State.modAllTasks_keep | apply State.stopWork_keep | apply State.setRole_keep | apply State.setMode_keep | split | intro _ | dsimp only)
theorem effSwapBoundary_keep {s : State} (hk : Keeps s0 s) : Keeps s0 (effSwapBoundary s) := by
  refine hk.trans ?_
  clear hk
  unfold effSwapBoundary
  with_reducible repeat' (first | exact Keeps.refl _ | apply ite_keep | apply State.becomeActive_keep | apply State.swapAway_keep | split | dsimp only)
theorem State.startStep_keep {s : State} {k : BitVec 4} (hk : Keeps s0 s) : Keeps s0 (State.startStep s k) := by
  refine hk.trans ?_
  clear hk
  unfold State.startStep
  with_reducible repeat' (first | exact Keeps.refl _ | apply State.modSys_keep | intro _ | dsimp only)
theorem State.readmitTriad_keep {s : State} {i : StartInputs} (hk : Keeps s0 s) : Keeps s0 (State.readmitTriad s i) := by
  refine hk.trans ?_
  clear hk
  unfold State.readmitTriad
  with_reducible repeat' (first | exact Keeps.refl _ | apply ite_keep | refine foldl_keep (fun _ _ => ?_) ?_ | apply State.laneState_keep | apply State.repairStop_keep | split | intro _ | dsimp only)
theorem State.readmitPair_keep {s : State} {i : StartInputs} (hk : Keeps s0 s) : Keeps s0 (State.readmitPair s i) := by
  refine hk.trans ?_
  clear hk
  unfold State.readmitPair
  with_reducible repeat' (first | exact Keeps.refl _ | apply ite_keep | refine foldl_keep (fun _ _ => ?_) ?_ | apply State.modCpr_keep | apply State.raisePairState_keep | split | intro _ | dsimp only)
theorem State.startStep1_keep {cold : Bool} {i : StartInputs} {s : State} (hk : Keeps s0 s) : Keeps s0 (State.startStep1 cold i s).state := by
  refine hk.trans ?_
  clear hk
  unfold State.startStep1; try dsimp only
  repeat' (first | with_reducible assumption | with_reducible exact Keeps.refl _ | with_reducible apply ite_keep | with_reducible refine foldl_keep (fun _ _ => ?_) ?_ | with_reducible apply State.startBist_keep | with_reducible apply State.bist_keep | with_reducible apply State.startFailed_keep | with_reducible apply State.readmitTriad_keep | with_reducible apply State.readmitPair_keep | with_reducible apply Going.on_keep | with_reducible apply Going.ended_keep | with_reducible refine State.startBist_eq_keep (by assumption) ?_ | (intro k; (try dsimp only); (first | with_reducible exact k | with_reducible exact Tbl.wf_updAll _ _ _ _ k | with_reducible exact Tbl.wf_upd _ _ _ _ k | with_reducible exact Tbl.wf_store _ _ _ k | exact ⟨k.1, k.2.1, k.2.2.1, k.2.2.2⟩ | exact ⟨Tbl.wf_store _ _ _ k.1, k.2.1, k.2.2.1, k.2.2.2⟩ | exact ⟨k.1, Tbl.wf_store _ _ _ k.2.1, k.2.2.1, k.2.2.2⟩ | exact ⟨k.1, rfl, k.2.2.1, k.2.2.2⟩ | exact ⟨rfl, k.2.1, rfl, k.2.2.2⟩ | exact ⟨rfl, k.2.1, k.2.2.1, k.2.2.2⟩ | exact ⟨k.1, k.2.1, k.2.2.1, rfl⟩ | rfl)) | split | intro _ | dsimp only)
theorem State.grantWindows_keep {s : State} (hk : Keeps s0 s) : Keeps s0 (State.grantWindows s) := by
  refine hk.trans ?_
  clear hk
  unfold State.grantWindows
  with_reducible repeat' (first | exact Keeps.refl _ | apply State.modUpd_keep | intro _ | dsimp only)
theorem State.startStep2_keep {cold : Bool} {r : StartReq} {i : StartInputs} {s : State} (hk : Keeps s0 s) : Keeps s0 (State.startStep2 cold r i s).state := by
  refine hk.trans ?_
  clear hk
  unfold State.startStep2
  with_reducible repeat' (first | exact Keeps.refl _ | apply ite_keep | apply State.modCpr_keep | apply State.modUpd_keep | apply State.recovered_keep | apply State.grantWindows_keep | apply State.swapSlots_keep | apply State.raise_keep | apply State.countFailure_keep | apply State.haltNow_keep | apply Going.on_keep | apply Going.ended_keep | split | intro _ | dsimp only)
theorem State.startLoad_keep {s : State} {kind part : Byte} {b : Bytes} {trusted : Bool} (hk : Keeps s0 s) : Keeps s0 (State.startLoad s kind part b trusted) := by
  refine hk.trans ?_
  clear hk
  unfold State.startLoad
  with_reducible repeat' (first | exact Keeps.refl _ | apply ite_keep | apply State.fresh_keep | apply State.modProg_keep | apply State.raise_keep | apply State.modSys_keep | split | intro _ | dsimp only)
theorem State.startStep3_keep {cold : Bool} {i : StartInputs} {s : State} (hk : Keeps s0 s) : Keeps s0 (State.startStep3 cold i s).state := by
  refine hk.trans ?_
  clear hk
  unfold State.startStep3
  with_reducible repeat' (first | exact Keeps.refl _ | apply ite_keep | refine foldl_keep (fun _ _ => ?_) ?_ | apply State.startFailed_keep | apply State.modProg_keep | apply State.startLoad_keep | apply State.loadLanes_keep | apply Going.on_keep | apply Going.ended_keep | split | intro _ | dsimp only)
theorem State.startStep4_keep {cold : Bool} {s : State} (hk : Keeps s0 s) : Keeps s0 (State.startStep4 cold s).state := by
  refine hk.trans ?_
  clear hk
  unfold State.startStep4; try dsimp only
  repeat' (first | with_reducible assumption | with_reducible exact Keeps.refl _ | with_reducible apply ite_keep | with_reducible refine foldl_keep (fun _ _ => ?_) ?_ | with_reducible apply State.modMem_keep | with_reducible apply Going.on_keep | with_reducible apply Going.ended_keep | (intro k; (try dsimp only); (first | with_reducible exact k | with_reducible exact Tbl.wf_updAll _ _ _ _ k | with_reducible exact Tbl.wf_upd _ _ _ _ k | with_reducible exact Tbl.wf_store _ _ _ k | exact ⟨k.1, k.2.1, k.2.2.1, k.2.2.2⟩ | exact ⟨Tbl.wf_store _ _ _ k.1, k.2.1, k.2.2.1, k.2.2.2⟩ | exact ⟨k.1, Tbl.wf_store _ _ _ k.2.1, k.2.2.1, k.2.2.2⟩ | exact ⟨k.1, rfl, k.2.2.1, k.2.2.2⟩ | exact ⟨rfl, k.2.1, rfl, k.2.2.2⟩ | exact ⟨rfl, k.2.1, k.2.2.1, k.2.2.2⟩ | exact ⟨k.1, k.2.1, k.2.2.1, rfl⟩ | rfl)) | split | intro _ | dsimp only)
theorem State.startNets_keep {s : State} (hk : Keeps s0 s) : Keeps s0 (State.startNets s) := by
  refine hk.trans ?_
  clear hk
  unfold State.startNets
  with_reducible repeat' (first | exact Keeps.refl _ | apply ite_keep | apply State.modHl1_keep | apply State.modHl2_keep | split | dsimp only)
theorem State.startDone_keep {s : State} {kind : Nat} {m : Mode} {ms : Nat} (hk : Keeps s0 s) : Keeps s0 (State.startDone s kind m ms) := by
  refine hk.trans ?_
  clear hk
  unfold State.startDone
  with_reducible exact State.raise_keep (Keeps.refl _)
theorem State.enterFollow_keep {s : State} {r : StartReq} (hk : Keeps s0 s) : Keeps s0 (State.enterFollow s r) := by
  refine hk.trans ?_
  clear hk
  unfold State.enterFollow
  with_reducible repeat' (first | exact Keeps.refl _ | apply State.setRole_keep | apply State.modDpx_keep | apply State.startNets_keep | apply State.modSys_keep | apply State.setMode_keep | apply State.startDone_keep | intro _ | dsimp only)
theorem State.startStep5_keep {cold : Bool} {s : State} (hk : Keeps s0 s) : Keeps s0 (State.startStep5 cold s).state := by
  refine hk.trans ?_
  clear hk
  unfold State.startStep5
  with_reducible repeat' (first | exact Keeps.refl _ | apply ite_keep | refine foldl_keep (fun _ _ => ?_) ?_ | apply State.raise_keep | apply State.modProg_keep | apply State.storeVars_keep | apply Going.on_keep | apply Going.ended_keep | split | intro _ | dsimp only)
theorem State.startStep6_keep {cold : Bool} {i : StartInputs} {s : State} (hk : Keeps s0 s) : Keeps s0 (State.startStep6 cold i s).state := by
  refine hk.trans ?_
  clear hk
  unfold State.startStep6
  with_reducible repeat' (first | exact Keeps.refl _ | apply ite_keep | apply State.setTasks_keep | apply State.publishStops_keep | apply State.runInits_keep | apply State.startFailed_keep | apply Going.on_keep | apply Going.ended_keep | split | intro _ | dsimp only)
theorem State.startStep7_keep {cold : Bool} {s : State} (hk : Keeps s0 s) : Keeps s0 (State.startStep7 cold s).state := by
  refine hk.trans ?_
  clear hk
  unfold State.startStep7; try dsimp only
  repeat' (first | with_reducible assumption | with_reducible exact Keeps.refl _ | with_reducible apply ite_keep | with_reducible refine foldl_keep (fun _ _ => ?_) ?_ | with_reducible apply State.modSys_keep | with_reducible apply State.modRings_keep | with_reducible apply Going.on_keep | with_reducible apply Going.ended_keep | (intro k; (try dsimp only); (first | with_reducible exact k | with_reducible exact Tbl.wf_updAll _ _ _ _ k | with_reducible exact Tbl.wf_upd _ _ _ _ k | with_reducible exact Tbl.wf_store _ _ _ k | exact ⟨k.1, k.2.1, k.2.2.1, k.2.2.2⟩ | exact ⟨Tbl.wf_store _ _ _ k.1, k.2.1, k.2.2.1, k.2.2.2⟩ | exact ⟨k.1, Tbl.wf_store _ _ _ k.2.1, k.2.2.1, k.2.2.2⟩ | exact ⟨k.1, rfl, k.2.2.1, k.2.2.2⟩ | exact ⟨rfl, k.2.1, rfl, k.2.2.2⟩ | exact ⟨rfl, k.2.1, k.2.2.1, k.2.2.2⟩ | exact ⟨k.1, k.2.1, k.2.2.1, rfl⟩ | rfl)) | split | intro _ | dsimp only)
theorem State.startStep8_keep {cold : Bool} {s : State} (hk : Keeps s0 s) : Keeps s0 (State.startStep8 cold s).state := by
  refine hk.trans ?_
  clear hk
  unfold State.startStep8
  with_reducible repeat' (first | exact Keeps.refl _ | apply ite_keep | apply State.replayCold_keep | apply State.replayWarm_keep | apply Going.on_keep | apply Going.ended_keep | split | dsimp only)
theorem State.leaveStart_keep {cold wasRun : Bool} {r : StartReq} {s : State} (hk : Keeps s0 s) : Keeps s0 (State.leaveStart cold wasRun r s) := by
  refine hk.trans ?_
  clear hk
  unfold State.leaveStart
  with_reducible repeat' (first | exact Keeps.refl _ | apply ite_keep | apply State.modSys_keep | apply State.enterRun_keep | apply State.setMode_keep | apply State.startDone_keep | split | intro _ | dsimp only)
theorem State.endNine_keep {s : State} {r : StartReq} (hk : Keeps s0 s) : Keeps s0 (State.endNine s r) := by
  refine hk.trans ?_
  clear hk
  unfold State.endNine
  with_reducible repeat' (first | exact Keeps.refl _ | apply State.startStep_keep | apply State.leaveStart_keep | dsimp only)
theorem State.startStep9_keep {s : State} {r : StartReq} (hk : Keeps s0 s) : Keeps s0 (State.startStep9 s r) := by
  refine hk.trans ?_
  clear hk
  unfold State.startStep9
  with_reducible repeat' (first | exact Keeps.refl _ | apply ite_keep | apply State.startStep_keep | apply State.modSys_keep | apply State.startNets_keep | apply State.endNine_keep | split | intro _ | dsimp only)
theorem State.joined_keep {s : State} (hk : Keeps s0 s) : Keeps s0 (State.joined s) := by
  refine hk.trans ?_
  clear hk
  unfold State.joined
  with_reducible repeat' (first | exact Keeps.refl _ | apply ite_keep | apply State.endNine_keep | split | dsimp only)
theorem State.startFirst_keep {s : State} {r : StartReq} {i : StartInputs} (hk : Keeps s0 s) : Keeps s0 (State.startFirst s r i).state := by
  refine hk.trans ?_
  clear hk
  unfold State.startFirst
  with_reducible repeat' (first | exact Keeps.refl _ | apply State.startStep1_keep | apply State.startStep2_keep | apply State.startStep3_keep | apply State.startStep4_keep | apply Going.on_keep | apply Going.ended_keep | apply Going.step_keep | intro _ | dsimp only)
theorem State.startFirst_on_keep {s t : State} {r : StartReq} {i : StartInputs} (e : s.startFirst r i = .on t)
    (hk : Keeps s0 s) : Keeps s0 t := by
  have h := State.startFirst_keep (r := r) (i := i) hk
  rw [e] at h; exact h
theorem State.startFirst_ended_keep {s t : State} {r : StartReq} {i : StartInputs} (e : s.startFirst r i = .ended t)
    (hk : Keeps s0 s) : Keeps s0 t := by
  have h := State.startFirst_keep (r := r) (i := i) hk
  rw [e] at h; exact h
theorem State.startSecond_keep {s : State} {cold : Bool} {i : StartInputs} (hk : Keeps s0 s) : Keeps s0 (State.startSecond s cold i).state := by
  refine hk.trans ?_
  clear hk
  unfold State.startSecond
  with_reducible repeat' (first | exact Keeps.refl _ | apply ite_keep | apply State.assertClaim_keep | apply State.setRole_keep | apply State.startStep5_keep | apply State.startStep6_keep | apply State.startStep7_keep | apply State.startStep8_keep | apply Going.on_keep | apply Going.ended_keep | apply Going.step_keep | split | intro _ | dsimp only)
theorem State.startSecond_on_keep {s t : State} {c : Bool} {i : StartInputs} (e : s.startSecond c i = .on t)
    (hk : Keeps s0 s) : Keeps s0 t := by
  have h := State.startSecond_keep (cold := c) (i := i) hk
  rw [e] at h; exact h
theorem State.startSecond_ended_keep {s t : State} {c : Bool} {i : StartInputs} (e : s.startSecond c i = .ended t)
    (hk : Keeps s0 s) : Keeps s0 t := by
  have h := State.startSecond_keep (cold := c) (i := i) hk
  rw [e] at h; exact h
theorem State.runStart_keep {s : State} {r : StartReq} {i : StartInputs} (hk : Keeps s0 s) : Keeps s0 (State.runStart s r i) := by
  refine hk.trans ?_
  clear hk
  unfold State.runStart; try dsimp only
  repeat' (first | with_reducible assumption | with_reducible exact Keeps.refl _ | with_reducible apply ite_keep | with_reducible refine foldl_keep (fun _ _ => ?_) ?_ | with_reducible apply State.startFirst_keep | with_reducible apply State.enterFollow_keep | with_reducible apply State.startSecond_keep | with_reducible apply State.startStep9_keep | with_reducible apply Going.on_keep | with_reducible apply Going.ended_keep | with_reducible refine State.startFirst_on_keep (by assumption) ?_ | with_reducible refine State.startFirst_ended_keep (by assumption) ?_ | with_reducible refine State.startSecond_on_keep (by assumption) ?_ | with_reducible refine State.startSecond_ended_keep (by assumption) ?_ | (intro k; (try dsimp only); (first | with_reducible exact k | with_reducible exact Tbl.wf_updAll _ _ _ _ k | with_reducible exact Tbl.wf_upd _ _ _ _ k | with_reducible exact Tbl.wf_store _ _ _ k | exact ⟨k.1, k.2.1, k.2.2.1, k.2.2.2⟩ | exact ⟨Tbl.wf_store _ _ _ k.1, k.2.1, k.2.2.1, k.2.2.2⟩ | exact ⟨k.1, Tbl.wf_store _ _ _ k.2.1, k.2.2.1, k.2.2.2⟩ | exact ⟨k.1, rfl, k.2.2.1, k.2.2.2⟩ | exact ⟨rfl, k.2.1, rfl, k.2.2.2⟩ | exact ⟨rfl, k.2.1, k.2.2.1, k.2.2.2⟩ | exact ⟨k.1, k.2.1, k.2.2.1, rfl⟩ | rfl)) | split | intro _ | dsimp only)
theorem State.checkMram_keep {s : State} {i : StartInputs} (hk : Keeps s0 s) : Keeps s0 (State.checkMram s i) := by
  refine hk.trans ?_
  clear hk
  unfold State.checkMram
  with_reducible repeat' (first | exact Keeps.refl _ | apply ite_keep | apply State.modProg_keep | apply State.modJournal_keep | apply State.modSys_keep | apply State.bump_keep | split | intro _ | dsimp only)
theorem State.substituteCold_keep {s : State} {r : StartReq} {cause : Byte} (hk : Keeps s0 s) : Keeps s0 (State.substituteCold s r cause).1 := by
  refine hk.trans ?_
  clear hk
  unfold State.substituteCold
  with_reducible repeat' (first | exact Keeps.refl _ | apply State.modTri_keep | apply State.modCpr_keep | apply State.modSys_keep | apply State.raise_keep | split | intro _ | dsimp only)
theorem effColdStart_keep {i : StartInputs} {s : State} (hk : Keeps s0 s) : Keeps s0 (effColdStart i s) := by
  refine hk.trans ?_
  clear hk
  unfold effColdStart
  with_reducible repeat' (first | exact Keeps.refl _ | apply ite_keep | apply State.endNine_keep | apply State.checkMram_keep | apply State.runStart_keep | split | dsimp only)
theorem effWarmStart_keep {i : StartInputs} {s : State} (hk : Keeps s0 s) : Keeps s0 (effWarmStart i s) := by
  refine hk.trans ?_
  clear hk
  unfold effWarmStart
  with_reducible repeat' (first | exact Keeps.refl _ | apply ite_keep | apply State.endNine_keep | apply State.checkMram_keep | apply State.substituteCold_keep | apply State.runStart_keep | split | dsimp only)
theorem effStartIntoFollow_keep {i : StartInputs} {s : State} (hk : Keeps s0 s) : Keeps s0 (effStartIntoFollow i s) := by
  refine hk.trans ?_
  clear hk
  unfold effStartIntoFollow; try dsimp only
  repeat' (first | with_reducible assumption | with_reducible exact Keeps.refl _ | with_reducible apply ite_keep | with_reducible refine foldl_keep (fun _ _ => ?_) ?_ | with_reducible apply State.checkMram_keep | with_reducible apply State.startFirst_keep | with_reducible apply State.enterFollow_keep | with_reducible apply Going.on_keep | with_reducible apply Going.ended_keep | with_reducible refine State.startFirst_on_keep (by assumption) ?_ | with_reducible refine State.startFirst_ended_keep (by assumption) ?_ | with_reducible refine State.startSecond_on_keep (by assumption) ?_ | with_reducible refine State.startSecond_ended_keep (by assumption) ?_ | (intro k; (try dsimp only); (first | with_reducible exact k | with_reducible exact Tbl.wf_updAll _ _ _ _ k | with_reducible exact Tbl.wf_upd _ _ _ _ k | with_reducible exact Tbl.wf_store _ _ _ k | exact ⟨k.1, k.2.1, k.2.2.1, k.2.2.2⟩ | exact ⟨Tbl.wf_store _ _ _ k.1, k.2.1, k.2.2.1, k.2.2.2⟩ | exact ⟨k.1, Tbl.wf_store _ _ _ k.2.1, k.2.2.1, k.2.2.2⟩ | exact ⟨k.1, rfl, k.2.2.1, k.2.2.2⟩ | exact ⟨rfl, k.2.1, rfl, k.2.2.2⟩ | exact ⟨rfl, k.2.1, k.2.2.1, k.2.2.2⟩ | exact ⟨k.1, k.2.1, k.2.2.1, rfl⟩ | rfl)) | split | intro _ | dsimp only)
theorem effStartStepLimit_keep {s : State} (hk : Keeps s0 s) : Keeps s0 (effStartStepLimit s) := by
  refine hk.trans ?_
  clear hk
  unfold effStartStepLimit
  with_reducible repeat' (first | exact Keeps.refl _ | apply ite_keep | apply State.startFailed_keep | split | dsimp only)
theorem effFailCountExpiry_keep {cold : Bool} {s : State} (hk : Keeps s0 s) : Keeps s0 (effFailCountExpiry cold s) := by
  refine hk.trans ?_
  clear hk
  unfold effFailCountExpiry
  with_reducible repeat' (first | exact Keeps.refl _ | apply ite_keep | apply State.modSys_keep | split | intro _ | dsimp only)
theorem State.failStations_keep {s : State} (hk : Keeps s0 s) : Keeps s0 (State.failStations s) := by
  refine hk.trans ?_
  clear hk
  unfold State.failStations
  with_reducible repeat' (first | exact Keeps.refl _ | refine foldl_keep (fun _ _ => ?_) ?_ | apply State.modStation_keep | apply State.substituteStation_keep | intro _ | dsimp only)
theorem State.bistFinish_keep {s : State} {h : Quad} (hk : Keeps s0 s) : Keeps s0 (State.bistFinish s h) := by
  refine hk.trans ?_
  clear hk
  unfold State.bistFinish; try dsimp only
  repeat' (first | with_reducible assumption | with_reducible exact Keeps.refl _ | with_reducible apply ite_keep | with_reducible refine foldl_keep (fun _ _ => ?_) ?_ | with_reducible apply State.modMem_keep | with_reducible apply State.restore_keep | with_reducible apply State.loadLanes_keep | with_reducible apply State.spRestart_keep | with_reducible apply State.modFld_keep | with_reducible apply State.failStations_keep | with_reducible apply State.startNets_keep | with_reducible apply State.complete_keep | with_reducible apply State.free_keep | exact Mem.restore_sound _ | (intro k; (try dsimp only); (first | with_reducible exact k | with_reducible exact Tbl.wf_updAll _ _ _ _ k | with_reducible exact Tbl.wf_upd _ _ _ _ k | with_reducible exact Tbl.wf_store _ _ _ k | exact ⟨k.1, k.2.1, k.2.2.1, k.2.2.2⟩ | exact ⟨Tbl.wf_store _ _ _ k.1, k.2.1, k.2.2.1, k.2.2.2⟩ | exact ⟨k.1, Tbl.wf_store _ _ _ k.2.1, k.2.2.1, k.2.2.2⟩ | exact ⟨k.1, rfl, k.2.2.1, k.2.2.2⟩ | exact ⟨rfl, k.2.1, rfl, k.2.2.2⟩ | exact ⟨rfl, k.2.1, k.2.2.1, k.2.2.2⟩ | exact ⟨k.1, k.2.1, k.2.2.1, rfl⟩ | rfl)) | split | intro _ | dsimp only)
theorem State.bistEnded_keep {s : State} (hk : Keeps s0 s) : Keeps s0 (State.bistEnded s) := by
  refine hk.trans ?_
  clear hk
  unfold State.bistEnded
  with_reducible repeat' (first | exact Keeps.refl _ | apply State.bist_keep | apply State.bistFinish_keep | split | intro _ | dsimp only)
theorem State.bistBegin_keep {s : State} {h : Quad} {o : BistOutcome} (hk : Keeps s0 s) : Keeps s0 (State.bistBegin s h o) := by
  refine hk.trans ?_
  clear hk
  unfold State.bistBegin; try dsimp only
  repeat' (first | with_reducible assumption | with_reducible exact Keeps.refl _ | with_reducible apply ite_keep | with_reducible refine foldl_keep (fun _ _ => ?_) ?_ | with_reducible apply State.executing_keep | with_reducible apply State.modHl1_keep | with_reducible apply State.modHl2_keep | with_reducible apply State.modMem_keep | with_reducible apply State.modFld_keep | with_reducible apply State.modBst_keep | exact Mem.copy_sound _ | (intro k; (try dsimp only); (first | with_reducible exact k | with_reducible exact Tbl.wf_updAll _ _ _ _ k | with_reducible exact Tbl.wf_upd _ _ _ _ k | with_reducible exact Tbl.wf_store _ _ _ k | exact ⟨k.1, k.2.1, k.2.2.1, k.2.2.2⟩ | exact ⟨Tbl.wf_store _ _ _ k.1, k.2.1, k.2.2.1, k.2.2.2⟩ | exact ⟨k.1, Tbl.wf_store _ _ _ k.2.1, k.2.2.1, k.2.2.2⟩ | exact ⟨k.1, rfl, k.2.2.1, k.2.2.2⟩ | exact ⟨rfl, k.2.1, rfl, k.2.2.2⟩ | exact ⟨rfl, k.2.1, k.2.2.1, k.2.2.2⟩ | exact ⟨k.1, k.2.1, k.2.2.1, rfl⟩ | rfl)) | split | intro _ | dsimp only)
theorem effBistRun_keep {h : Quad} {o : BistOutcome} {s : State} (hk : Keeps s0 s) : Keeps s0 (effBistRun h o s) := by
  refine hk.trans ?_
  clear hk
  unfold effBistRun
  refine State.begin_keep (fun _ => ?_) (Keeps.refl _)
  refine ite_keep (State.fail_keep (Keeps.refl _)) (ite_keep (State.refuse_keep (Keeps.refl _)) (ite_keep ?_ (State.bistBegin_keep (Keeps.refl _))))
  exact State.free_keep (State.complete_keep (State.bistSkip_keep (Keeps.refl _)))
theorem effBistConditionCheck_keep {mv : BitVec 12} {pll : Bool} {temp : BitVec 16} {s : State} (hk : Keeps s0 s) : Keeps s0 (effBistConditionCheck mv pll temp s) := by
  refine hk.trans ?_
  clear hk
  unfold effBistConditionCheck
  with_reducible repeat' (first | exact Keeps.refl _ | apply ite_keep | apply State.modPwr_keep | apply State.bistSkip_keep | apply State.bistFinish_keep | split | intro _ | dsimp only)
theorem effChannelTick_keep {s : State} (hk : Keeps s0 s) : Keeps s0 (effChannelTick s) := by
  refine hk.trans ?_
  clear hk
  unfold effChannelTick
  with_reducible repeat' (first | exact Keeps.refl _ | apply ite_keep | apply State.tick_keep | apply State.changeDone_keep | split | dsimp only)
theorem effSampleInstant_keep {ch : Fin 96} {x : Terminals} {s : State} (hk : Keeps s0 s) : Keeps s0 (effSampleInstant ch x s) := by
  refine hk.trans ?_
  clear hk
  unfold effSampleInstant; try dsimp only
  repeat' (first | with_reducible assumption | with_reducible exact Keeps.refl _ | with_reducible apply ite_keep | with_reducible refine foldl_keep (fun _ _ => ?_) ?_ | with_reducible apply State.modCell_keep | with_reducible apply State.emit_keep | with_reducible apply State.free_keep | exact Mem.restore_sound _ | (intro k; (try dsimp only); (first | with_reducible exact k | with_reducible exact Tbl.wf_updAll _ _ _ _ k | with_reducible exact Tbl.wf_upd _ _ _ _ k | with_reducible exact Tbl.wf_store _ _ _ k | exact ⟨k.1, k.2.1, k.2.2.1, k.2.2.2⟩ | exact ⟨Tbl.wf_store _ _ _ k.1, k.2.1, k.2.2.1, k.2.2.2⟩ | exact ⟨k.1, Tbl.wf_store _ _ _ k.2.1, k.2.2.1, k.2.2.2⟩ | exact ⟨k.1, rfl, k.2.2.1, k.2.2.2⟩ | exact ⟨rfl, k.2.1, rfl, k.2.2.2⟩ | exact ⟨rfl, k.2.1, k.2.2.1, k.2.2.2⟩ | exact ⟨k.1, k.2.1, k.2.2.1, rfl⟩ | rfl)) | split | intro _ | dsimp only)
theorem effCommandFrame_keep {ch : Fin 96} {f : Bytes} {s : State} (hk : Keeps s0 s) : Keeps s0 (effCommandFrame ch f s) := by
  refine hk.trans ?_
  clear hk
  unfold effCommandFrame
  with_reducible repeat' (first | exact Keeps.refl _ | apply ite_keep | apply State.modCell_keep | split | intro _ | dsimp only)
theorem effUplinkFrame_keep {ch : Fin 96} {f : Bytes} {s : State} (hk : Keeps s0 s) : Keeps s0 (effUplinkFrame ch f s) := by
  refine hk.trans ?_
  clear hk
  unfold effUplinkFrame
  with_reducible repeat' (first | exact Keeps.refl _ | apply ite_keep | apply State.modChan_keep | apply State.modCell_keep | apply State.event_keep | apply State.modGroup_keep | split | intro _ | dsimp only)
theorem State.groupTick_keep {s : State} {g : Nat} (hk : Keeps s0 s) : Keeps s0 (State.groupTick s g) := by
  refine hk.trans ?_
  clear hk
  unfold State.groupTick
  with_reducible repeat' (first | exact Keeps.refl _ | apply ite_keep | refine foldl_keep (fun _ _ => ?_) ?_ | apply State.bump_keep | apply State.modGroup_keep | split | intro _ | dsimp only)
theorem effUplinkDeadline_keep {s : State} (hk : Keeps s0 s) : Keeps s0 (effUplinkDeadline s) := by
  refine hk.trans ?_
  clear hk
  unfold effUplinkDeadline; try dsimp only
  repeat' (first | with_reducible assumption | with_reducible exact Keeps.refl _ | with_reducible apply ite_keep | with_reducible refine foldl_keep (fun _ _ => ?_) ?_ | with_reducible apply State.modChans_keep | with_reducible apply State.modFld_keep | with_reducible apply State.pairTick_keep | with_reducible apply State.groupTick_keep | (intro k; (try dsimp only); (first | with_reducible exact k | with_reducible exact Tbl.wf_updAll _ _ _ _ k | with_reducible exact Tbl.wf_upd _ _ _ _ k | with_reducible exact Tbl.wf_store _ _ _ k | exact ⟨k.1, k.2.1, k.2.2.1, k.2.2.2⟩ | exact ⟨Tbl.wf_store _ _ _ k.1, k.2.1, k.2.2.1, k.2.2.2⟩ | exact ⟨k.1, Tbl.wf_store _ _ _ k.2.1, k.2.2.1, k.2.2.2⟩ | exact ⟨k.1, rfl, k.2.2.1, k.2.2.2⟩ | exact ⟨rfl, k.2.1, rfl, k.2.2.2⟩ | exact ⟨rfl, k.2.1, k.2.2.1, k.2.2.2⟩ | exact ⟨k.1, k.2.1, k.2.2.1, rfl⟩ | rfl)) | split | intro _ | dsimp only)
theorem effCouplerLost_keep {ch : Fin 96} {s : State} (hk : Keeps s0 s) : Keeps s0 (effCouplerLost ch s) := by
  refine hk.trans ?_
  clear hk
  unfold effCouplerLost
  with_reducible repeat' (first | exact Keeps.refl _ | apply ite_keep | apply State.modChan_keep | apply State.latch_keep | split | intro _ | dsimp only)
theorem effCouplerRecovered_keep {ch : Fin 96} {s : State} (hk : Keeps s0 s) : Keeps s0 (effCouplerRecovered ch s) := by
  refine hk.trans ?_
  clear hk
  unfold effCouplerRecovered
  with_reducible repeat' (first | exact Keeps.refl _ | apply ite_keep | apply State.modChan_keep | split | intro _ | dsimp only)
theorem effCellSupplyLoss_keep {ch : Fin 96} {s : State} (hk : Keeps s0 s) : Keeps s0 (effCellSupplyLoss ch s) := by
  refine hk.trans ?_
  clear hk
  unfold effCellSupplyLoss
  with_reducible repeat' (first | exact Keeps.refl _ | apply State.modCell_keep | intro _ | dsimp only)
theorem effCellRestarted_keep {ch : Fin 96} {s : State} (hk : Keeps s0 s) : Keeps s0 (effCellRestarted ch s) := by
  refine hk.trans ?_
  clear hk
  unfold effCellRestarted
  with_reducible repeat' (first | exact Keeps.refl _ | apply ite_keep | apply State.modCell_keep | split | intro _ | dsimp only)
theorem effCounterEdge_keep {ch : Fin 96} {rising short : Bool} {s : State} (hk : Keeps s0 s) : Keeps s0 (effCounterEdge ch rising short s) := by
  refine hk.trans ?_
  clear hk
  unfold effCounterEdge
  with_reducible repeat' (first | exact Keeps.refl _ | apply ite_keep | apply State.modCell_keep | apply State.bump_keep | split | intro _ | dsimp only)
theorem effDiscrepancy_keep {p : Fin 48} {s : State} (hk : Keeps s0 s) : Keeps s0 (effDiscrepancy p s) := by
  refine hk.trans ?_
  clear hk
  unfold effDiscrepancy
  with_reducible repeat' (first | exact Keeps.refl _ | apply ite_keep | apply State.modDual_keep | apply State.fault_keep | apply State.raisePair_keep | split | intro _ | dsimp only)
theorem effInputStageTest_keep {ch : Fin 96} {passed : Bool} {s : State} (hk : Keeps s0 s) : Keeps s0 (effInputStageTest ch passed s) := by
  refine hk.trans ?_
  clear hk
  unfold effInputStageTest
  with_reducible repeat' (first | exact Keeps.refl _ | apply ite_keep | apply State.modCell_keep | split | intro _ | dsimp only)
theorem effCellFault_keep {ch : Fin 96} {s : State} (hk : Keeps s0 s) : Keeps s0 (effCellFault ch s) := by
  refine hk.trans ?_
  clear hk
  unfold effCellFault
  with_reducible repeat' (first | exact Keeps.refl _ | apply ite_keep | apply State.modChan_keep | split | intro _ | dsimp only)
theorem effTestDue_keep {ch : Fin 96} {s : State} (hk : Keeps s0 s) : Keeps s0 (effTestDue ch s) := by
  refine hk.trans ?_
  clear hk
  unfold effTestDue
  with_reducible repeat' (first | exact Keeps.refl _ | apply ite_keep | apply State.idle_keep | apply State.modChan_keep | split | intro _ | dsimp only)
theorem effTestPhaseEnd_keep {ch : Fin 96} {x : Terminals} {s : State} (hk : Keeps s0 s) : Keeps s0 (effTestPhaseEnd ch x s) := by
  refine hk.trans ?_
  clear hk
  unfold effTestPhaseEnd; try dsimp only
  repeat' (first | with_reducible assumption | with_reducible exact Keeps.refl _ | with_reducible apply ite_keep | with_reducible refine foldl_keep (fun _ _ => ?_) ?_ | with_reducible apply State.idle_keep | with_reducible apply State.modCell_keep | with_reducible apply State.free_keep | exact Mem.restore_sound _ | (intro k; (try dsimp only); (first | with_reducible exact k | with_reducible exact Tbl.wf_updAll _ _ _ _ k | with_reducible exact Tbl.wf_upd _ _ _ _ k | with_reducible exact Tbl.wf_store _ _ _ k | exact ⟨k.1, k.2.1, k.2.2.1, k.2.2.2⟩ | exact ⟨Tbl.wf_store _ _ _ k.1, k.2.1, k.2.2.1, k.2.2.2⟩ | exact ⟨k.1, Tbl.wf_store _ _ _ k.2.1, k.2.2.1, k.2.2.2⟩ | exact ⟨k.1, rfl, k.2.2.1, k.2.2.2⟩ | exact ⟨rfl, k.2.1, rfl, k.2.2.2⟩ | exact ⟨rfl, k.2.1, k.2.2.1, k.2.2.2⟩ | exact ⟨k.1, k.2.1, k.2.2.1, rfl⟩ | rfl)) | split | intro _ | dsimp only)
theorem effOverload_keep {ch : Fin 96} {s : State} (hk : Keeps s0 s) : Keeps s0 (effOverload ch s) := by
  refine hk.trans ?_
  clear hk
  unfold effOverload
  with_reducible repeat' (first | exact Keeps.refl _ | apply ite_keep | apply State.modCell_keep | split | intro _ | dsimp only)
theorem effThermalLimit_keep {ch : Fin 96} {s : State} (hk : Keeps s0 s) : Keeps s0 (effThermalLimit ch s) := by
  refine hk.trans ?_
  clear hk
  unfold effThermalLimit
  with_reducible repeat' (first | exact Keeps.refl _ | apply ite_keep | apply State.modCell_keep | split | intro _ | dsimp only)
theorem effOverloadReclose_keep {ch : Fin 96} {s : State} (hk : Keeps s0 s) : Keeps s0 (effOverloadReclose ch s) := by
  refine hk.trans ?_
  clear hk
  unfold effOverloadReclose
  with_reducible repeat' (first | exact Keeps.refl _ | apply ite_keep | apply State.modCell_keep | split | intro _ | dsimp only)
theorem effSupplyLow_keep {g : Fin 6} {s : State} (hk : Keeps s0 s) : Keeps s0 (effSupplyLow g s) := by
  refine hk.trans ?_
  clear hk
  unfold effSupplyLow
  with_reducible repeat' (first | exact Keeps.refl _ | apply ite_keep | apply State.modGroup_keep | split | intro _ | dsimp only)
theorem effCellUndervoltageTrip_keep {ch : Fin 96} {s : State} (hk : Keeps s0 s) : Keeps s0 (effCellUndervoltageTrip ch s) := by
  refine hk.trans ?_
  clear hk
  unfold effCellUndervoltageTrip
  with_reducible repeat' (first | exact Keeps.refl _ | apply ite_keep | apply State.modCell_keep | split | intro _ | dsimp only)
theorem effGroupUndervoltageTrip_keep {g : Fin 6} {s : State} (hk : Keeps s0 s) : Keeps s0 (effGroupUndervoltageTrip g s) := by
  refine hk.trans ?_
  clear hk
  unfold effGroupUndervoltageTrip
  with_reducible repeat' (first | exact Keeps.refl _ | apply ite_keep | refine foldl_keep (fun _ _ => ?_) ?_ | apply State.modGroup_keep | apply State.modChan_keep | apply State.latch_keep | split | intro _ | dsimp only)
theorem effSupplyRecovery_keep {g : Fin 6} {s : State} (hk : Keeps s0 s) : Keeps s0 (effSupplyRecovery g s) := by
  refine hk.trans ?_
  clear hk
  unfold effSupplyRecovery
  with_reducible repeat' (first | exact Keeps.refl _ | apply ite_keep | refine foldl_keep (fun _ _ => ?_) ?_ | apply State.modGroup_keep | apply State.modChan_keep | split | intro _ | dsimp only)
theorem effHoldTimeExpired_keep {ch : Fin 96} {s : State} (hk : Keeps s0 s) : Keeps s0 (effHoldTimeExpired ch s) := by
  refine hk.trans ?_
  clear hk
  unfold effHoldTimeExpired
  with_reducible repeat' (first | exact Keeps.refl _ | apply ite_keep | apply State.modCell_keep | split | intro _ | dsimp only)
theorem State.ackNow_keep {s : State} {m : Byte} {c : Nat} (hk : Keeps s0 s) : Keeps s0 (State.ackNow s m c) := by
  refine hk.trans ?_
  clear hk
  unfold State.ackNow
  with_reducible repeat' (first | exact Keeps.refl _ | apply ite_keep | apply State.modChan_keep | split | intro _ | dsimp only)
theorem State.ackTest_keep {s : State} {h : Quad} {m : Byte} {c : Nat} (hk : Keeps s0 s) : Keeps s0 (State.ackTest s h m c) := by
  refine hk.trans ?_
  clear hk
  unfold State.ackTest
  with_reducible repeat' (first | exact Keeps.refl _ | apply ite_keep | apply State.modChan_keep | split | intro _ | dsimp only)
theorem effSafetyAck_keep {h : Quad} {s : State} (hk : Keeps s0 s) : Keeps s0 (effSafetyAck h s) := by
  refine hk.trans ?_
  clear hk
  unfold effSafetyAck; try dsimp only
  repeat' (first | with_reducible assumption | with_reducible exact Keeps.refl _ | with_reducible apply ite_keep | with_reducible refine foldl_keep (fun _ _ => ?_) ?_ | with_reducible apply State.begin_keep | with_reducible apply State.ackNow_keep | with_reducible apply State.executing_keep | with_reducible apply State.ackTest_keep | with_reducible apply State.modFld_keep | with_reducible apply State.ackDone_keep | (intro k; (try dsimp only); (first | with_reducible exact k | with_reducible exact Tbl.wf_updAll _ _ _ _ k | with_reducible exact Tbl.wf_upd _ _ _ _ k | with_reducible exact Tbl.wf_store _ _ _ k | exact ⟨k.1, k.2.1, k.2.2.1, k.2.2.2⟩ | exact ⟨Tbl.wf_store _ _ _ k.1, k.2.1, k.2.2.1, k.2.2.2⟩ | exact ⟨k.1, Tbl.wf_store _ _ _ k.2.1, k.2.2.1, k.2.2.2⟩ | exact ⟨k.1, rfl, k.2.2.1, k.2.2.2⟩ | exact ⟨rfl, k.2.1, rfl, k.2.2.2⟩ | exact ⟨rfl, k.2.1, k.2.2.1, k.2.2.2⟩ | exact ⟨k.1, k.2.1, k.2.2.1, rfl⟩ | rfl)) | split | intro _ | dsimp only)
theorem effTestAnnouncement_keep {ch : Fin 96} {followed : Bool} {s : State} (hk : Keeps s0 s) : Keeps s0 (effTestAnnouncement ch followed s) := by
  refine hk.trans ?_
  clear hk
  unfold effTestAnnouncement
  with_reducible repeat' (first | exact Keeps.refl _ | apply ite_keep | apply State.modChan_keep | apply State.emit_keep | split | intro _ | dsimp only)
theorem State.writeRestart_keep {s : State} {v : Word} (hk : Keeps s0 s) : Keeps s0 (State.writeRestart s v) := by
  refine hk.trans ?_
  clear hk
  unfold State.writeRestart
  with_reducible repeat' (first | exact Keeps.refl _ | apply ite_keep | apply State.raise_keep | apply State.modSys_keep | apply State.enterStart_keep | split | intro _ | dsimp only)
theorem State.writePin_keep {s : State} {pin : Bool} (hk : Keeps s0 s) : Keeps s0 (State.writePin s pin) := by
  refine hk.trans ?_
  clear hk
  unfold State.writePin
  with_reducible repeat' (first | exact Keeps.refl _ | apply ite_keep | apply State.modSwd_keep | apply State.prune_keep | split | intro _ | dsimp only)
theorem State.writeTaskstat_keep {s : State} {p : Party} {n : Nat} {v : Word} (hk : Keeps s0 s) : Keeps s0 (State.writeTaskstat s p n v) := by
  refine hk.trans ?_
  clear hk
  unfold State.writeTaskstat
  with_reducible repeat' (first | exact Keeps.refl _ | apply ite_keep | apply State.modTask_keep | apply State.overrun_keep | apply State.forbid_keep | split | intro _ | dsimp only)
theorem State.writeSem_keep {s : State} {p : Party} {k : Nat} {v : Word} (hk : Keeps s0 s) : Keeps s0 (State.writeSem s p k v) := by
  refine hk.trans ?_
  clear hk
  unfold State.writeSem
  with_reducible repeat' (first | exact Keeps.refl _ | apply ite_keep | apply State.semWrite_keep | apply State.semAcquire_keep | apply State.semRelease_keep | split | intro _ | dsimp only)
theorem State.writeCtx_keep {s : State} {p : Party} {x : Nat} {v : Word} (hk : Keeps s0 s) : Keeps s0 (State.writeCtx s p x v) := by
  refine hk.trans ?_
  clear hk
  unfold State.writeCtx
  with_reducible repeat' (first | exact Keeps.refl _ | apply ite_keep | apply State.modCtx_keep | apply State.forbid_keep | split | intro _ | dsimp only)
theorem State.writeIrq_keep {s : State} {n : Nat} {v : Word} (hk : Keeps s0 s) : Keeps s0 (State.writeIrq s n v) := by
  refine hk.trans ?_
  clear hk
  unfold State.writeIrq
  with_reducible repeat' (first | exact Keeps.refl _ | apply State.modRing_keep | apply State.irqEdge_keep | intro _ | dsimp only)
theorem State.writeRing_keep {s : State} {p : Party} {n o : Nat} {v : Word} (hk : Keeps s0 s) : Keeps s0 (State.writeRing s p n o v) := by
  refine hk.trans ?_
  clear hk
  unfold State.writeRing
  with_reducible repeat' (first | exact Keeps.refl _ | apply State.ringWrite_keep | apply State.modRing_keep | apply State.writeDoorbell_keep | apply State.writeCons_keep | apply State.writeIrq_keep | apply State.forbid_keep | split | intro _ | dsimp only)
theorem State.writeReg_keep {s : State} {p : Party} {o : Nat} {v : Word} (hk : Keeps s0 s) : Keeps s0 (State.writeReg s p o v) := by
  refine hk.trans ?_
  clear hk
  unfold State.writeReg
  with_reducible repeat' (first | exact Keeps.refl _ | apply ite_keep | apply State.forbid_keep | apply State.modSys_keep | apply State.event_keep | apply State.reevents_keep | apply State.writeRestart_keep | apply State.writeTaskstat_keep | apply State.modSwd_keep | apply State.writePin_keep | apply State.modHl1_keep | apply State.mismatch_keep | apply State.modHl2_keep | apply State.writeSem_keep | apply State.writeCtx_keep | apply State.modPwr_keep | apply State.writeRing_keep | split | intro _ | dsimp only)
theorem State.gate_keep {s : State} {p : Party} {o : Nat} {v : Word} {f : State → State} (hf : ∀ x, Keeps x (f x)) (hk : Keeps s0 s) : Keeps s0 (State.gate s p o v f) := by
  refine hk.trans ?_
  clear hk
  unfold State.gate; try dsimp only
  repeat' (first | with_reducible assumption | with_reducible exact Keeps.refl _ | with_reducible apply ite_keep | with_reducible refine foldl_keep (fun _ _ => ?_) ?_ | with_reducible apply State.forbid_keep | with_reducible apply State.refuseWrite_keep | exact hf _ | (intro k; (try dsimp only); (first | with_reducible exact k | with_reducible exact Tbl.wf_updAll _ _ _ _ k | with_reducible exact Tbl.wf_upd _ _ _ _ k | with_reducible exact Tbl.wf_store _ _ _ k | exact ⟨k.1, k.2.1, k.2.2.1, k.2.2.2⟩ | exact ⟨Tbl.wf_store _ _ _ k.1, k.2.1, k.2.2.1, k.2.2.2⟩ | exact ⟨k.1, Tbl.wf_store _ _ _ k.2.1, k.2.2.1, k.2.2.2⟩ | exact ⟨k.1, rfl, k.2.2.1, k.2.2.2⟩ | exact ⟨rfl, k.2.1, rfl, k.2.2.2⟩ | exact ⟨rfl, k.2.1, k.2.2.1, k.2.2.2⟩ | exact ⟨k.1, k.2.1, k.2.2.1, rfl⟩ | rfl)) | split | intro _ | dsimp only)
theorem State.busWrite_keep {s : State} {p : Party} {o : Nat} {v : Word} (hk : Keeps s0 s) : Keeps s0 (State.busWrite s p o v) := by
  refine hk.trans ?_
  clear hk
  unfold State.busWrite
  with_reducible repeat' (first | exact Keeps.refl _ | apply State.gate_keep | apply State.writeReg_keep | intro _ | dsimp only)
theorem effSysRestartWarm_keep {p : Party} {v : Word} {s : State} (hk : Keeps s0 s) : Keeps s0 (effSysRestartWarm p v s) := by
  refine hk.trans ?_
  clear hk
  unfold effSysRestartWarm
  with_reducible exact State.busWrite_keep (Keeps.refl _)
theorem effSysRestartCold_keep {p : Party} {v : Word} {s : State} (hk : Keeps s0 s) : Keeps s0 (effSysRestartCold p v s) := by
  refine hk.trans ?_
  clear hk
  unfold effSysRestartCold
  with_reducible exact State.busWrite_keep (Keeps.refl _)
theorem effSysEventClear_keep {p : Party} {v : Word} {s : State} (hk : Keeps s0 s) : Keeps s0 (effSysEventClear p v s) := by
  refine hk.trans ?_
  clear hk
  unfold effSysEventClear
  with_reducible exact State.busWrite_keep (Keeps.refl _)
theorem effSysEventMaskWrite_keep {p : Party} {v : Word} {s : State} (hk : Keeps s0 s) : Keeps s0 (effSysEventMaskWrite p v s) := by
  refine hk.trans ?_
  clear hk
  unfold effSysEventMaskWrite
  with_reducible exact State.busWrite_keep (Keeps.refl _)
theorem effHostcfgLock_keep {p : Party} {v : Word} {s : State} (hk : Keeps s0 s) : Keeps s0 (effHostcfgLock p v s) := by
  refine hk.trans ?_
  clear hk
  unfold effHostcfgLock
  with_reducible exact State.busWrite_keep (Keeps.refl _)
theorem effPin_keep {p : Party} {s : State} (hk : Keeps s0 s) : Keeps s0 (effPin p s) := by
  refine hk.trans ?_
  clear hk
  unfold effPin
  with_reducible exact State.busWrite_keep (Keeps.refl _)
theorem effPinClear_keep {p : Party} {s : State} (hk : Keeps s0 s) : Keeps s0 (effPinClear p s) := by
  refine hk.trans ?_
  clear hk
  unfold effPinClear
  with_reducible exact State.busWrite_keep (Keeps.refl _)
theorem State.captureSlot_keep {s : State} {p : Party} {n : Net} {k : Nat} (hk : Keeps s0 s) : Keeps s0 (State.captureSlot s p n k) := by
  refine hk.trans ?_
  clear hk
  unfold State.captureSlot
  with_reducible repeat' (first | exact Keeps.refl _ | apply State.modHost_keep | split | intro _ | dsimp only)
theorem State.captureTbu_keep {s : State} {p : Party} (hk : Keeps s0 s) : Keeps s0 (State.captureTbu s p) := by
  refine hk.trans ?_
  clear hk
  unfold State.captureTbu
  with_reducible repeat' (first | exact Keeps.refl _ | apply State.modHost_keep | split | intro _ | dsimp only)
theorem State.captureHyk_keep {s : State} {p : Party} (hk : Keeps s0 s) : Keeps s0 (State.captureHyk s p) := by
  refine hk.trans ?_
  clear hk
  unfold State.captureHyk
  with_reducible repeat' (first | exact Keeps.refl _ | apply State.modHost_keep | split | intro _ | dsimp only)
theorem State.capture?_keep {s : State} {p : Party} {o : Nat} (hk : Keeps s0 s) : Keeps s0 (State.capture? s p o) := by
  refine hk.trans ?_
  clear hk
  unfold State.capture?
  with_reducible repeat' (first | exact Keeps.refl _ | apply ite_keep | apply State.firewallRefused_keep | apply State.captureTbu_keep | apply State.captureHyk_keep | apply State.captureSlot_keep | split | dsimp only)
theorem effSlotCounterCapture_keep {p : Party} {n : Net} {slot : Fin 4096} {s : State} (hk : Keeps s0 s) : Keeps s0 (effSlotCounterCapture p n slot s) := by
  refine hk.trans ?_
  clear hk
  unfold effSlotCounterCapture; try dsimp only
  repeat' (first | with_reducible assumption | with_reducible exact Keeps.refl _ | with_reducible apply ite_keep | with_reducible refine foldl_keep (fun _ _ => ?_) ?_ | with_reducible apply State.capture?_keep | (intro k; (try dsimp only); (first | with_reducible exact k | with_reducible exact Tbl.wf_updAll _ _ _ _ k | with_reducible exact Tbl.wf_upd _ _ _ _ k | with_reducible exact Tbl.wf_store _ _ _ k | exact ⟨k.1, k.2.1, k.2.2.1, k.2.2.2⟩ | exact ⟨Tbl.wf_store _ _ _ k.1, k.2.1, k.2.2.1, k.2.2.2⟩ | exact ⟨k.1, Tbl.wf_store _ _ _ k.2.1, k.2.2.1, k.2.2.2⟩ | exact ⟨k.1, rfl, k.2.2.1, k.2.2.2⟩ | exact ⟨rfl, k.2.1, rfl, k.2.2.2⟩ | exact ⟨rfl, k.2.1, k.2.2.1, k.2.2.2⟩ | exact ⟨k.1, k.2.1, k.2.2.1, rfl⟩ | rfl)) | split | intro _ | dsimp only)
theorem effTbuCapture_keep {p : Party} {s : State} (hk : Keeps s0 s) : Keeps s0 (effTbuCapture p s) := by
  refine hk.trans ?_
  clear hk
  unfold effTbuCapture; try dsimp only
  repeat' (first | with_reducible assumption | with_reducible exact Keeps.refl _ | with_reducible apply ite_keep | with_reducible refine foldl_keep (fun _ _ => ?_) ?_ | with_reducible apply State.capture?_keep | (intro k; (try dsimp only); (first | with_reducible exact k | with_reducible exact Tbl.wf_updAll _ _ _ _ k | with_reducible exact Tbl.wf_upd _ _ _ _ k | with_reducible exact Tbl.wf_store _ _ _ k | exact ⟨k.1, k.2.1, k.2.2.1, k.2.2.2⟩ | exact ⟨Tbl.wf_store _ _ _ k.1, k.2.1, k.2.2.1, k.2.2.2⟩ | exact ⟨k.1, Tbl.wf_store _ _ _ k.2.1, k.2.2.1, k.2.2.2⟩ | exact ⟨k.1, rfl, k.2.2.1, k.2.2.2⟩ | exact ⟨rfl, k.2.1, rfl, k.2.2.2⟩ | exact ⟨rfl, k.2.1, k.2.2.1, k.2.2.2⟩ | exact ⟨k.1, k.2.1, k.2.2.1, rfl⟩ | rfl)) | split | intro _ | dsimp only)
theorem effHayrickCapture_keep {p : Party} {s : State} (hk : Keeps s0 s) : Keeps s0 (effHayrickCapture p s) := by
  refine hk.trans ?_
  clear hk
  unfold effHayrickCapture; try dsimp only
  repeat' (first | with_reducible assumption | with_reducible exact Keeps.refl _ | with_reducible apply ite_keep | with_reducible refine foldl_keep (fun _ _ => ?_) ?_ | with_reducible apply State.capture?_keep | (intro k; (try dsimp only); (first | with_reducible exact k | with_reducible exact Tbl.wf_updAll _ _ _ _ k | with_reducible exact Tbl.wf_upd _ _ _ _ k | with_reducible exact Tbl.wf_store _ _ _ k | exact ⟨k.1, k.2.1, k.2.2.1, k.2.2.2⟩ | exact ⟨Tbl.wf_store _ _ _ k.1, k.2.1, k.2.2.1, k.2.2.2⟩ | exact ⟨k.1, Tbl.wf_store _ _ _ k.2.1, k.2.2.1, k.2.2.2⟩ | exact ⟨k.1, rfl, k.2.2.1, k.2.2.2⟩ | exact ⟨rfl, k.2.1, rfl, k.2.2.2⟩ | exact ⟨rfl, k.2.1, k.2.2.1, k.2.2.2⟩ | exact ⟨k.1, k.2.1, k.2.2.1, rfl⟩ | rfl)) | split | intro _ | dsimp only)
theorem State.writeRingMem_keep {s : State} {p : Party} {o : Nat} {be : Byte} {data : Bytes} (hk : Keeps s0 s) : Keeps s0 (State.writeRingMem s p o be data) := by
  refine hk.trans ?_
  clear hk
  unfold State.writeRingMem; try dsimp only
  repeat' (first | with_reducible assumption | with_reducible exact Keeps.refl _ | with_reducible apply ite_keep | with_reducible refine foldl_keep (fun _ _ => ?_) ?_ | with_reducible apply State.modMem_keep | with_reducible apply State.forbid_keep | (intro k; exact ⟨Tbl.wf_sets _ _ k.1, k.2.1, k.2.2.1, k.2.2.2⟩) | (intro k; (try dsimp only); (first | with_reducible exact k | with_reducible exact Tbl.wf_updAll _ _ _ _ k | with_reducible exact Tbl.wf_upd _ _ _ _ k | with_reducible exact Tbl.wf_store _ _ _ k | exact ⟨k.1, k.2.1, k.2.2.1, k.2.2.2⟩ | exact ⟨Tbl.wf_store _ _ _ k.1, k.2.1, k.2.2.1, k.2.2.2⟩ | exact ⟨k.1, Tbl.wf_store _ _ _ k.2.1, k.2.2.1, k.2.2.2⟩ | exact ⟨k.1, rfl, k.2.2.1, k.2.2.2⟩ | exact ⟨rfl, k.2.1, rfl, k.2.2.2⟩ | exact ⟨rfl, k.2.1, k.2.2.1, k.2.2.2⟩ | exact ⟨k.1, k.2.1, k.2.2.1, rfl⟩ | rfl)) | split | intro _ | dsimp only)
theorem State.sendPending_keep {s : State} (hk : Keeps s0 s) : Keeps s0 (State.sendPending s) := by
  refine hk.trans ?_
  clear hk
  unfold State.sendPending
  with_reducible repeat' (first | exact Keeps.refl _ | apply ite_keep | refine foldl_keep (fun _ _ => ?_) ?_ | apply State.modHost_keep | apply State.emit_keep | apply State.msix_keep | split | intro _ | dsimp only)
theorem State.writeMsix_keep {s : State} {o : Nat} {data : Bytes} (hk : Keeps s0 s) : Keeps s0 (State.writeMsix s o data) := by
  refine hk.trans ?_
  clear hk
  unfold State.writeMsix
  with_reducible repeat' (first | exact Keeps.refl _ | refine foldl_keep (fun _ _ => ?_) ?_ | apply State.modHost_keep | apply State.sendPending_keep | intro _ | dsimp only)
theorem State.sramWrite_keep {s : State} {p : Party} {off : Nat} {be : Byte} {data : Bytes} (hk : Keeps s0 s) : Keeps s0 (State.sramWrite s p off be data) := by
  refine hk.trans ?_
  clear hk
  unfold State.sramWrite; try dsimp only
  repeat' (first | with_reducible assumption | with_reducible exact Keeps.refl _ | with_reducible apply ite_keep | with_reducible refine foldl_keep (fun _ _ => ?_) ?_ | with_reducible apply State.modMem_keep | with_reducible apply State.firewallRefused_keep | exact Mem.sramWrite_sound _ _ _ _ _ _ | (intro k; (try dsimp only); (first | with_reducible exact k | with_reducible exact Tbl.wf_updAll _ _ _ _ k | with_reducible exact Tbl.wf_upd _ _ _ _ k | with_reducible exact Tbl.wf_store _ _ _ k | exact ⟨k.1, k.2.1, k.2.2.1, k.2.2.2⟩ | exact ⟨Tbl.wf_store _ _ _ k.1, k.2.1, k.2.2.1, k.2.2.2⟩ | exact ⟨k.1, Tbl.wf_store _ _ _ k.2.1, k.2.2.1, k.2.2.2⟩ | exact ⟨k.1, rfl, k.2.2.1, k.2.2.2⟩ | exact ⟨rfl, k.2.1, rfl, k.2.2.2⟩ | exact ⟨rfl, k.2.1, k.2.2.1, k.2.2.2⟩ | exact ⟨k.1, k.2.1, k.2.2.1, rfl⟩ | rfl)) | split | intro _ | dsimp only)
theorem effRegisterWrite_keep {p : Party} {off : Nat} {be : Byte} {data : Bytes} {s : State} (hk : Keeps s0 s) : Keeps s0 (effRegisterWrite p off be data s) := by
  refine hk.trans ?_
  clear hk
  unfold effRegisterWrite
  with_reducible repeat' (first | exact Keeps.refl _ | apply ite_keep | apply State.gate_keep | apply State.writeReg_keep | apply State.refuseWrite_keep | apply State.writeRingMem_keep | apply State.msix_keep | apply State.writeMsix_keep | apply State.sramWrite_keep | split | intro _ | dsimp only)
theorem effPcieLinkReset_keep {s : State} (hk : Keeps s0 s) : Keeps s0 (effPcieLinkReset s) := by
  refine hk.trans ?_
  clear hk
  unfold effPcieLinkReset
  with_reducible repeat' (first | exact Keeps.refl _ | apply ite_keep | apply State.modHost_keep | split | intro _ | dsimp only)
theorem State.dropLatches_keep {s : State} (hk : Keeps s0 s) : Keeps s0 (State.dropLatches s) := by
  refine hk.trans ?_
  clear hk
  unfold State.dropLatches
  with_reducible repeat' (first | exact Keeps.refl _ | apply State.modHost_keep | intro _ | dsimp only)
theorem State.legacyRead_keep {s : State} {x : Spot} (hk : Keeps s0 s) : Keeps s0 (State.legacyRead s x) := by
  refine hk.trans ?_
  clear hk
  unfold State.legacyRead
  with_reducible repeat' (first | exact Keeps.refl _ | apply State.capture?_keep | split | dsimp only)
theorem effLegacyLowHalfRead_keep {addr : BitVec 24} {s : State} (hk : Keeps s0 s) : Keeps s0 (effLegacyLowHalfRead addr s) := by
  refine hk.trans ?_
  clear hk
  unfold effLegacyLowHalfRead; try dsimp only
  repeat' (first | with_reducible assumption | with_reducible exact Keeps.refl _ | with_reducible apply ite_keep | with_reducible refine foldl_keep (fun _ _ => ?_) ?_ | with_reducible apply State.legacyRead_keep | with_reducible apply State.modHost_keep | with_reducible apply State.dropLatches_keep | (intro k; (try dsimp only); (first | with_reducible exact k | with_reducible exact Tbl.wf_updAll _ _ _ _ k | with_reducible exact Tbl.wf_upd _ _ _ _ k | with_reducible exact Tbl.wf_store _ _ _ k | exact ⟨k.1, k.2.1, k.2.2.1, k.2.2.2⟩ | exact ⟨Tbl.wf_store _ _ _ k.1, k.2.1, k.2.2.1, k.2.2.2⟩ | exact ⟨k.1, Tbl.wf_store _ _ _ k.2.1, k.2.2.1, k.2.2.2⟩ | exact ⟨k.1, rfl, k.2.2.1, k.2.2.2⟩ | exact ⟨rfl, k.2.1, rfl, k.2.2.2⟩ | exact ⟨rfl, k.2.1, k.2.2.1, k.2.2.2⟩ | exact ⟨k.1, k.2.1, k.2.2.1, rfl⟩ | rfl)) | split | intro _ | dsimp only)
theorem State.writeStaging_keep {s : State} {o : Nat} {v : BitVec 16} (hk : Keeps s0 s) : Keeps s0 (State.writeStaging s o v) := by
  refine hk.trans ?_
  clear hk
  unfold State.writeStaging; try dsimp only
  repeat' (first | with_reducible assumption | with_reducible exact Keeps.refl _ | with_reducible apply ite_keep | with_reducible refine foldl_keep (fun _ _ => ?_) ?_ | with_reducible apply State.bump_keep | with_reducible apply State.refuseWrite_keep | with_reducible apply State.modMem_keep | with_reducible apply State.store_keep | with_reducible apply State.iff_keep | with_reducible apply State.emit_keep | (intro k; (try dsimp only); (first | with_reducible exact k | with_reducible exact Tbl.wf_updAll _ _ _ _ k | with_reducible exact Tbl.wf_upd _ _ _ _ k | with_reducible exact Tbl.wf_store _ _ _ k | exact ⟨k.1, k.2.1, k.2.2.1, k.2.2.2⟩ | exact ⟨Tbl.wf_store _ _ _ k.1, k.2.1, k.2.2.1, k.2.2.2⟩ | exact ⟨k.1, Tbl.wf_store _ _ _ k.2.1, k.2.2.1, k.2.2.2⟩ | exact ⟨k.1, rfl, k.2.2.1, k.2.2.2⟩ | exact ⟨rfl, k.2.1, rfl, k.2.2.2⟩ | exact ⟨rfl, k.2.1, k.2.2.1, k.2.2.2⟩ | exact ⟨k.1, k.2.1, k.2.2.1, rfl⟩ | rfl)) | split | intro _ | dsimp only)
theorem State.writeHalf_keep {s : State} {x : Spot} {v : BitVec 16} (hk : Keeps s0 s) : Keeps s0 (State.writeHalf s x v) := by
  refine hk.trans ?_
  clear hk
  unfold State.writeHalf
  with_reducible repeat' (first | exact Keeps.refl _ | apply State.gate_keep | apply State.writeRingMem_keep | apply State.writeStaging_keep | split | intro _ | dsimp only)
theorem effLegacyLowHalfWrite_keep {addr : BitVec 24} {v : BitVec 16} {s : State} (hk : Keeps s0 s) : Keeps s0 (effLegacyLowHalfWrite addr v s) := by
  refine hk.trans ?_
  clear hk
  unfold effLegacyLowHalfWrite
  with_reducible repeat' (first | exact Keeps.refl _ | apply ite_keep | apply State.modHost_keep | apply State.dropLatches_keep | apply State.writeHalf_keep | split | intro _ | dsimp only)
theorem effLegacyHighHalfWrite_keep {addr : BitVec 24} {v : BitVec 16} {s : State} (hk : Keeps s0 s) : Keeps s0 (effLegacyHighHalfWrite addr v s) := by
  refine hk.trans ?_
  clear hk
  unfold effLegacyHighHalfWrite
  with_reducible repeat' (first | exact Keeps.refl _ | apply ite_keep | apply State.dropLatches_keep | apply State.busWrite_keep | apply State.writeHalf_keep | split | dsimp only)
theorem effEventOffer_keep {source : Byte} {code : BitVec 16} {sev : BitVec 4} {data : Bytes} {badWrites : Nat} {s : State} (hk : Keeps s0 s) : Keeps s0 (effEventOffer source code sev data badWrites s) := by
  refine hk.trans ?_
  clear hk
  unfold effEventOffer
  with_reducible repeat' (first | exact Keeps.refl _ | apply ite_keep | apply State.modPwr_keep | apply State.offer_keep | split | intro _ | dsimp only)
theorem State.summary_keep {s : State} {b : Bucket} (hk : Keeps s0 s) : Keeps s0 (State.summary s b) := by
  refine hk.trans ?_
  clear hk
  unfold State.summary; dsimp only
  exact State.modHyk_keep (fun k => Hyk.put_sound _ _ _ k) (Keeps.refl _)
theorem effTokenRefill_keep {code : BitVec 16} {s : State} (hk : Keeps s0 s) : Keeps s0 (effTokenRefill code s) := by
  refine hk.trans ?_
  clear hk
  unfold effTokenRefill; try dsimp only
  repeat' (first | with_reducible assumption | with_reducible exact Keeps.refl _ | with_reducible apply ite_keep | with_reducible refine foldl_keep (fun _ _ => ?_) ?_ | with_reducible apply State.modHyk_keep | with_reducible apply State.summary_keep | with_reducible apply Going.on_keep | with_reducible apply Going.ended_keep | (intro k; (try dsimp only); (first | with_reducible exact k | with_reducible exact Tbl.wf_updAll _ _ _ _ k | with_reducible exact Tbl.wf_upd _ _ _ _ k | with_reducible exact Tbl.wf_store _ _ _ k | exact ⟨k.1, k.2.1, k.2.2.1, k.2.2.2⟩ | exact ⟨Tbl.wf_store _ _ _ k.1, k.2.1, k.2.2.1, k.2.2.2⟩ | exact ⟨k.1, Tbl.wf_store _ _ _ k.2.1, k.2.2.1, k.2.2.2⟩ | exact ⟨k.1, rfl, k.2.2.1, k.2.2.2⟩ | exact ⟨rfl, k.2.1, rfl, k.2.2.2⟩ | exact ⟨rfl, k.2.1, k.2.2.1, k.2.2.2⟩ | exact ⟨k.1, k.2.1, k.2.2.1, rfl⟩ | rfl)) | split | intro _ | dsimp only)
theorem effOpTimeSave_keep {s : State} (hk : Keeps s0 s) : Keeps s0 (effOpTimeSave s) := by
  refine hk.trans ?_
  clear hk
  unfold effOpTimeSave; try dsimp only
  repeat' (first | with_reducible assumption | with_reducible exact Keeps.refl _ | with_reducible apply ite_keep | with_reducible refine foldl_keep (fun _ _ => ?_) ?_ | with_reducible apply State.modHyk_keep | with_reducible apply Going.on_keep | with_reducible apply Going.ended_keep | (intro k; (try dsimp only); (first | with_reducible exact k | with_reducible exact Tbl.wf_updAll _ _ _ _ k | with_reducible exact Tbl.wf_upd _ _ _ _ k | with_reducible exact Tbl.wf_store _ _ _ k | exact ⟨k.1, k.2.1, k.2.2.1, k.2.2.2⟩ | exact ⟨Tbl.wf_store _ _ _ k.1, k.2.1, k.2.2.1, k.2.2.2⟩ | exact ⟨k.1, Tbl.wf_store _ _ _ k.2.1, k.2.2.1, k.2.2.2⟩ | exact ⟨k.1, rfl, k.2.2.1, k.2.2.2⟩ | exact ⟨rfl, k.2.1, rfl, k.2.2.2⟩ | exact ⟨rfl, k.2.1, k.2.2.1, k.2.2.2⟩ | exact ⟨k.1, k.2.1, k.2.2.1, rfl⟩ | rfl)) | split | intro _ | dsimp only)
theorem effFirewallRefusal_keep {access : Byte} {addr : Quad} {s : State} (hk : Keeps s0 s) : Keeps s0 (effFirewallRefusal access addr s) := by
  refine hk.trans ?_
  clear hk
  unfold effFirewallRefusal
  with_reducible repeat' (first | exact Keeps.refl _ | apply ite_keep | apply State.firewallRefused_keep | split | dsimp only)
theorem effEgressEvent_keep {c0 c1 c2 : Option EgressCopy} {s : State} (hk : Keeps s0 s) : Keeps s0 (effEgressEvent c0 c1 c2 s) := by
  refine hk.trans ?_
  clear hk
  unfold effEgressEvent
  with_reducible repeat' (first | exact Keeps.refl _ | apply ite_keep | apply State.modTri_keep | apply State.release_keep | apply State.mismatch_keep | split | intro _ | dsimp only)
theorem effLateLane_keep {l : Fin 3} {s : State} (hk : Keeps s0 s) : Keeps s0 (effLateLane l s) := by
  refine hk.trans ?_
  clear hk
  unfold effLateLane
  with_reducible repeat' (first | exact Keeps.refl _ | apply State.mismatch_keep | split | dsimp only)
theorem effLaneException_keep {l : Fin 3} {s : State} (hk : Keeps s0 s) : Keeps s0 (effLaneException l s) := by
  refine hk.trans ?_
  clear hk
  unfold effLaneException
  with_reducible repeat' (first | exact Keeps.refl _ | apply State.mismatch_keep | split | dsimp only)
theorem effScrubPass_keep {differs : BitVec 3} {s : State} (hk : Keeps s0 s) : Keeps s0 (effScrubPass differs s) := by
  refine hk.trans ?_
  clear hk
  unfold effScrubPass
  with_reducible repeat' (first | exact Keeps.refl _ | apply ite_keep | refine foldl_keep (fun _ _ => ?_) ?_ | apply State.mismatch_keep | apply State.modTri_keep | split | intro _ | dsimp only)
theorem effTcmEccError_keep {l : Fin 3} {uncorrectable : Bool} {s : State} (hk : Keeps s0 s) : Keeps s0 (effTcmEccError l uncorrectable s) := by
  refine hk.trans ?_
  clear hk
  unfold effTcmEccError
  with_reducible repeat' (first | exact Keeps.refl _ | apply ite_keep | apply State.mismatch_keep | apply State.modLane_keep | split | intro _ | dsimp only)
theorem effPartialSelfTestComplete_keep {l : Fin 3} {passed : Bool} {s : State} (hk : Keeps s0 s) : Keeps s0 (effPartialSelfTestComplete l passed s) := by
  refine hk.trans ?_
  clear hk
  unfold effPartialSelfTestComplete
  with_reducible repeat' (first | exact Keeps.refl _ | apply ite_keep | apply State.modLane_keep | apply State.laneState_keep | apply State.exclude_keep | split | intro _ | dsimp only)
theorem effBackgroundCopyComplete_keep {l : Fin 3} {s : State} (hk : Keeps s0 s) : Keeps s0 (effBackgroundCopyComplete l s) := by
  refine hk.trans ?_
  clear hk
  unfold effBackgroundCopyComplete
  with_reducible repeat' (first | exact Keeps.refl _ | apply ite_keep | apply State.modLane_keep | split | intro _ | dsimp only)
theorem effFinalPass_keep {l : Fin 3} {fits digestOk : Bool} {s : State} (hk : Keeps s0 s) : Keeps s0 (effFinalPass l fits digestOk s) := by
  refine hk.trans ?_
  clear hk
  unfold effFinalPass
  with_reducible repeat' (first | exact Keeps.refl _ | apply ite_keep | apply State.modLane_keep | split | intro _ | dsimp only)
theorem effResyncTimeout_keep {l : Fin 3} {s : State} (hk : Keeps s0 s) : Keeps s0 (effResyncTimeout l s) := by
  refine hk.trans ?_
  clear hk
  unfold effResyncTimeout
  with_reducible repeat' (first | exact Keeps.refl _ | apply ite_keep | apply State.exclude_keep | split | dsimp only)
theorem effTestWindow_keep {voterBad : Option VoterFaultKind} {checkerBad : Bool} {s : State} (hk : Keeps s0 s) : Keeps s0 (effTestWindow voterBad checkerBad s) := by
  refine hk.trans ?_
  clear hk
  unfold effTestWindow
  with_reducible repeat' (first | exact Keeps.refl _ | apply ite_keep | apply State.overrun_keep | apply State.voterFault_keep | apply State.modTri_keep | apply State.pairMismatch_keep | split | intro _ | dsimp only)
theorem effVoterFault_keep {_k : VoterFaultKind} {s : State} (hk : Keeps s0 s) : Keeps s0 (effVoterFault _k s) := by
  refine hk.trans ?_
  clear hk
  unfold effVoterFault
  with_reducible repeat' (first | exact Keeps.refl _ | apply ite_keep | apply State.voterFault_keep | split | dsimp only)
theorem effRepairTimerMilestone_keep {s : State} (hk : Keeps s0 s) : Keeps s0 (effRepairTimerMilestone s) := by
  refine hk.trans ?_
  clear hk
  unfold effRepairTimerMilestone
  with_reducible repeat' (first | exact Keeps.refl _ | apply ite_keep | apply State.modTri_keep | apply State.repairRecord_keep | split | intro _ | dsimp only)
theorem effRepairTimerExpiry_keep {s : State} (hk : Keeps s0 s) : Keeps s0 (effRepairTimerExpiry s) := by
  refine hk.trans ?_
  clear hk
  unfold effRepairTimerExpiry
  with_reducible repeat' (first | exact Keeps.refl _ | apply ite_keep | apply State.repairRecord_keep | apply State.fault_keep | split | dsimp only)
theorem effTransientReadmissionExpiry_keep {l : Fin 3} {s : State} (hk : Keeps s0 s) : Keeps s0 (effTransientReadmissionExpiry l s) := by
  refine hk.trans ?_
  clear hk
  unfold effTransientReadmissionExpiry
  with_reducible repeat' (first | exact Keeps.refl _ | apply ite_keep | apply State.modLane_keep | split | intro _ | dsimp only)
theorem effExclusionExpiry_keep {triad : Bool} {lane : Fin 3} {s : State} (hk : Keeps s0 s) : Keeps s0 (effExclusionExpiry triad lane s) := by
  refine hk.trans ?_
  clear hk
  unfold effExclusionExpiry
  with_reducible repeat' (first | exact Keeps.refl _ | apply ite_keep | apply State.modLane_keep | apply State.modExclusions_keep | split | intro _ | dsimp only)
theorem State.background_keep {s : State} (hk : Keeps s0 s) : Keeps s0 (State.background s) := by
  refine hk.trans ?_
  clear hk
  unfold State.background
  with_reducible repeat' (first | exact Keeps.refl _ | apply State.initEnded_keep | apply State.shutdownDrained_keep | apply State.bistEnded_keep | apply State.joined_keep | apply State.errorsEnd_keep | apply State.changeDone_keep | dsimp only)
theorem State.idle_keep {s : State} (hk : Keeps s0 s) : Keeps s0 (State.idle s) := by
  refine hk.trans ?_
  clear hk
  unfold State.idle
  with_reducible repeat' (first | exact Keeps.refl _ | apply ite_keep | apply State.modTbu_keep | apply State.background_keep | split | intro _ | dsimp only)

end Sys2Proof.Machine
end

