-- ==== Sys2Proof/Laws/Mailbox.lean ====
section
/-! SUPPORT. The journal under completion, the beginning of a command, states equal part by part. -/

namespace Sys2Proof.Machine

/-- Two states with equal parts are equal. -/
theorem State.ext_parts {s t : State} (h0 : s.pending = t.pending) (h1 : s.free = t.free) (h2 : s.sent = t.sent)
    (h3 : s.mfg = t.mfg) (h4 : s.pwr = t.pwr) (h5 : s.tbu = t.tbu) (h6 : s.hyk = t.hyk) (h7 : s.sys = t.sys)
    (h8 : s.host = t.host) (h9 : s.rings = t.rings) (h10 : s.journal = t.journal) (h11 : s.mem = t.mem)
    (h12 : s.cfg = t.cfg) (h13 : s.prog = t.prog) (h14 : s.tasks = t.tasks) (h15 : s.swd = t.swd) (h16 : s.tri = t.tri)
    (h17 : s.cpr = t.cpr) (h18 : s.fld = t.fld) (h19 : s.hl1 = t.hl1) (h20 : s.hl2 = t.hl2) (h21 : s.dpx = t.dpx)
    (h22 : s.stl = t.stl) (h23 : s.upd = t.upd) (h24 : s.bst = t.bst) (h25 : s.saf = t.saf) : s = t := by
  cases s; cases t; simp_all

/-- Two memories with equal parts are equal. -/
theorem Mem.ext_parts {m n : Mem} (h : m.ring = n.ring) (h' : m.staging = n.staging) (h1 : m.sram = n.sram)
    (h2 : m.bankCycle = n.bankCycle) (h3 : m.saved = n.saved) : m = n := by
  cases m; cases n; simp_all

/-! ## The journal -/

/-- Reading an entry after a change that keeps the handles. -/
theorem State.entry_modEntry (s : State) (h k : Quad) (f : JEntry → JEntry)
    (hf : ∀ e, e.handle = h → (f e).handle = h) :
    (s.modEntry h f).entry k = (s.entry k).map fun e => if e.handle = h then f e else e := by
  unfold State.entry State.modEntry State.modJournal
  simp only [List.find?_map]
  congr 2
  funext e
  simp only [Function.comp]
  by_cases he : e.handle = h
  · simp [he, hf e he]
  · simp [he]

/-- What a found entry's handle is. -/
theorem State.entry_handle {s : State} {h : Quad} {e : JEntry} (he : s.entry h = some e) : e.handle = h := by
  have := List.find?_some he
  simpa using this

/-- Writing a DONE record marks the entry and changes nothing else of the journal. -/
theorem State.entry_putDone (s : State) (e : JEntry) (r : Bool) (k : Quad) :
    (s.putDone e r).entry k = (s.entry k).map fun x =>
      if x.handle = e.handle then { x with
        phase := .doneWritten
        doneAt := (s.ring e.ring).cplProd + BitVec.ofNat 32 (s.ring e.ring).backlog.length } else x := by
  unfold State.putDone
  rw [State.entry_modEntry _ _ _ _ (by intro x hx; exact hx)]
  simp [State.entry]

/-- What an answered command's entry keeps under further DONE records. -/
theorem State.answered_putDone {s : State} {h : Quad} {st : BitVec 16} {r : Bytes} (a : s.answered h st r) (e : JEntry)
    (p : Bool) : (s.putDone e p).answered h st r := by
  obtain ⟨x, hx, hc, hs, hr⟩ := a
  refine ⟨_, by rw [State.entry_putDone, hx]; rfl, ?_⟩
  dsimp only
  split
  · exact ⟨rfl, hs, hr⟩
  · exact ⟨hc, hs, hr⟩

theorem State.answered_flush {s : State} {h : Quad} {st : BitVec 16} {r : Bytes} (a : s.answered h st r) (n : Nat) :
    (s.flush n).answered h st r := by
  unfold State.flush
  generalize s.ready n = l
  induction l generalizing s with
  | nil => exact a
  | cons e l ih => exact ih (State.answered_putDone a e _)

/-- Completing a command journals its commit with the status and the RESULT given (R32). -/
theorem State.answered_complete {s : State} {h : Quad} {e : JEntry} (he : s.entry h = some e)
    (hc : e.committed = false) (st : BitVec 16) (r : Bytes) (x : Bool) : (s.complete h st r x).answered h st r := by
  have hh := State.entry_handle he
  unfold State.complete
  simp only [he, hc, Bool.false_eq_true, if_false]
  have key : ∀ f : JEntry, f.handle = h → f.committed = true → f.status = st → f.result = padTo 48 r →
      (s.modEntry h fun _ => f).answered h st r := by
    intro f h1 h2 h3 h4
    refine ⟨f, ?_, h2, h3, h4⟩
    rw [State.entry_modEntry _ _ _ _ (fun _ _ => h1), he]
    simp [hh]
  split
  · refine State.answered_putDone (key _ ?_ ?_ ?_ ?_) _ _ <;> first | exact hh | rfl
  · refine State.answered_flush (key _ ?_ ?_ ?_ ?_) _ <;> first | exact hh | rfl

/-- The entry of a handle after it is marked as executing. -/
theorem State.entry_executing {s : State} {h : Quad} {e : JEntry} (he : s.entry h = some e) :
    (s.executing h).entry h = some { e with phase := .executing } := by
  unfold State.executing
  rw [State.entry_modEntry _ _ _ _ (fun e h => by simpa using h), he]
  simp [State.entry_handle he]

/-- The journal alone decides what a handle names. -/
theorem State.entry_congr {s t : State} (h : t.journal = s.journal) (k : Quad) : t.entry k = s.entry k := by
  unfold State.entry; rw [h]
theorem State.answered_congr {s t : State} (h : t.journal = s.journal) {k : Quad} {st : BitVec 16} {r : Bytes} :
    s.answered k st r → t.answered k st r := by
  rintro ⟨e, he, x⟩; exact ⟨e, by rw [State.entry_congr h, he], x⟩

/-! ## What records write -/

@[simp] theorem leBytes_length (n v : Nat) : (leBytes n v).length = n := by
  induction n generalizing v with
  | zero => rfl
  | succ n ih => simp [leBytes, ih]
@[simp] theorem le_length {w : Nat} (n : Nat) (v : BitVec w) : (le n v).length = n := by simp [le]
@[simp] theorem padTo_length (n : Nat) (b : Bytes) : (padTo n b).length = n := by
  simp [padTo]
theorem mkRecord_length (h : Quad) (tag : Word) (st : BitVec 16) (k : Nat) (r : Bytes) :
    (mkRecord h tag st k r).length = 64 := by simp [mkRecord]

theorem State.recordsOnly_refl (s : State) (n : Nat) : s.recordsOnly s n := ⟨fun _ _ => rfl, rfl, fun _ _ => rfl⟩
theorem State.recordsOnly_trans {s t u : State} {n : Nat} (a : s.recordsOnly t n) (b : t.recordsOnly u n) :
    s.recordsOnly u n := by
  refine ⟨fun k hk => (b.others k hk).trans (a.others k hk), ?_, fun x hx => ?_⟩
  · rw [b.pair, a.pair]
  · have e : (t.ring n).cplOff 0 = (s.ring n).cplOff 0 ∧ (t.ring n).depth = (s.ring n).depth := by
      rw [a.pair]; exact ⟨rfl, rfl⟩
    rw [b.bytes x (by rw [e.1, e.2]; exact hx), a.bytes x hx]
theorem State.recordsOnly_congr {s t s' t' : State} {n : Nat} (a : s.recordsOnly t n) (h1 : s'.rings = s.rings)
    (h2 : t'.rings = t.rings) (h3 : s'.mem.ring = s.mem.ring) (h4 : t'.mem.ring = t.mem.ring) : s'.recordsOnly t' n := by
  have e1 : ∀ k, s'.ring k = s.ring k := fun k => by unfold State.ring; rw [h1]
  have e2 : ∀ k, t'.ring k = t.ring k := fun k => by unfold State.ring; rw [h2]
  refine ⟨fun k hk => by rw [e1, e2]; exact a.others k hk, by rw [e1, e2]; exact a.pair, fun x hx => ?_⟩
  rw [h3, h4]; exact a.bytes x (by simpa only [e1] using hx)
@[simp] theorem State.irqEdge_ring (s : State) (n k : Nat) (b : Bool) : (s.irqEdge n b).ring k = s.ring k := by
  unfold State.ring; simp
theorem State.recordsOnly_placeRecord (s : State) (n : Nat) (rec : Bytes) (c : Bool) (hl : rec.length ≤ 64) :
    s.recordsOnly (s.placeRecord n rec c) n := by
  unfold State.placeRecord; dsimp only
  refine ⟨fun k hk => ?_, ?_, fun x hx => ?_⟩
  · rw [State.irqEdge_ring]; unfold State.ring State.modRing; dsimp only; rw [Tbl.get_upd_ne _ _ _ _ _ hk]; rfl
  · rw [State.irqEdge_ring]; unfold State.ring State.modRing; dsimp only; rw [Tbl.get_upd_eq]; rfl
  · simp only [State.irqEdge_mem, State.modRing, State.modMem]
    rw [Tbl.get_store, if_neg]
    rintro ⟨h1, h2⟩
    unfold Ring.cplOff at *
    have hd : 0 < (s.ring n).depth := by unfold Ring.depth; exact Nat.pos_of_ne_zero (by simp)
    have := Nat.mod_lt (s.ring n).cplProd.toNat hd
    simp at hx
    generalize (s.ring n).cplProd.toNat % (s.ring n).depth = y at *
    generalize (s.ring n).depth = z at *
    generalize (s.ring n).base.toNat = w at *
    omega

theorem State.recordsOnly_putRecord (s : State) (n : Nat) (rec : Bytes) (c : Bool) (hl : rec.length ≤ 64) :
    s.recordsOnly (s.putRecord n rec c) n := by
  unfold State.putRecord; dsimp only; split
  · exact State.recordsOnly_placeRecord s n rec c hl
  · refine ⟨fun k hk => ?_, ?_, fun x _ => rfl⟩
    · unfold State.ring State.modRing; dsimp only; rw [Tbl.get_upd_ne _ _ _ _ _ hk]
    · unfold State.ring State.modRing; dsimp only; rw [Tbl.get_upd_eq]

/-- Writing a DONE record writes one record of the entry's ring pair. -/
theorem State.recordsOnly_putDone (s : State) (e : JEntry) (r : Bool) : s.recordsOnly (s.putDone e r) e.ring := by
  refine State.recordsOnly_congr (State.recordsOnly_putRecord s e.ring (e.doneRecord r) (!e.noIrq) ?_) rfl rfl rfl rfl
  unfold JEntry.doneRecord; exact Nat.le_of_eq (by rw [mkRecord_length])
theorem State.recordsOnly_flush (s : State) (n : Nat) : s.recordsOnly (s.flush n) n := by
  unfold State.flush
  have : ∀ e ∈ s.ready n, e.ring = n := fun e he => by
    have := List.takeWhile_subset _ he
    simp at this; exact this.2.1.1
  generalize s.ready n = l at this
  induction l generalizing s with
  | nil => exact State.recordsOnly_refl s n
  | cons e l ih =>
    have h1 := State.recordsOnly_putDone s e e.replay
    rw [this e (by simp)] at h1
    exact State.recordsOnly_trans h1 (ih _ (fun x hx => this x (by simp [hx])))

theorem State.handles_modEntry (s : State) (h : Quad) (f : JEntry → JEntry) (hf : ∀ e, e.handle = h → (f e).handle = h) :
    (s.modEntry h f).journal.map (·.handle) = s.journal.map (·.handle) := by
  unfold State.modEntry State.modJournal; simp only [List.map_map]
  congr 1; funext e; simp only [Function.comp]; split
  · rename_i he; rw [hf e he, he]
  · rfl
theorem State.handles_putDone (s : State) (e : JEntry) (r : Bool) :
    (s.putDone e r).journal.map (·.handle) = s.journal.map (·.handle) := by
  unfold State.putDone; rw [State.handles_modEntry]
  · simp
  · intro x hx; exact hx
theorem State.handles_flush (s : State) (n : Nat) : (s.flush n).journal.map (·.handle) = s.journal.map (·.handle) := by
  unfold State.flush; exact foldl_keeps (fun s => s.journal.map (·.handle)) _ (fun _ _ => State.handles_putDone ..) _ _

/-- Completing a command answers it (R31, R32, R60). -/
theorem State.answers_complete {s : State} {h : Quad} {e : JEntry} (he : s.entry h = some e) (hc : e.committed = false)
    (st : BitVec 16) (r : Bytes) (x : Bool) : s.answers (s.complete h st r x) h e.ring st r := by
  have key : ∀ (f : JEntry → JEntry) (u : State), (s.modEntry h f).recordsOnly u e.ring → s.recordsOnly u e.ring :=
    fun f u a => State.recordsOnly_congr a rfl rfl rfl rfl
  refine ⟨State.answered_complete he hc st r x, ?_, ?_⟩
  · unfold State.complete; simp only [he, hc, Bool.false_eq_true, if_false]
    split
    · exact key _ _ (State.recordsOnly_putDone _ _ false)
    · exact key _ _ (State.recordsOnly_flush _ _)
  · have hh := State.entry_handle he
    unfold State.complete; simp only [he, hc, Bool.false_eq_true, if_false]
    split
    · rw [State.handles_putDone, State.handles_modEntry]; intro x _; exact hh
    · rw [State.handles_flush, State.handles_modEntry]; intro x _; exact hh

/-- What a record may change of the host side: pending interrupt bits. -/
theorem State.msix_host (s : State) (v : Nat) : (s.msix v).host = { s.host with pba := (s.msix v).host.pba } := by
  unfold State.msix; (repeat' split) <;> rfl
theorem State.putRecord_host (s : State) (n : Nat) (r : Bytes) (c : Bool) :
    (s.putRecord n r c).host = { s.host with pba := (s.putRecord n r c).host.pba } := by
  have h1 : ∀ s : State, ∀ n, (s.signal n).host = { s.host with pba := (s.signal n).host.pba } := by
    intro s n; unfold State.signal; split
    · exact State.msix_host _ _
    · split <;> rfl
  unfold State.putRecord; dsimp only; split
  · unfold State.placeRecord State.irqEdge; dsimp only; split
    · exact h1 _ _
    · rfl
  · rfl
theorem State.flush_host (s : State) (n : Nat) : (s.flush n).host = { s.host with pba := (s.flush n).host.pba } := by
  unfold State.flush
  generalize s.ready n = l
  induction l generalizing s with
  | nil => rfl
  | cons e l ih =>
    have h := State.putRecord_host s e.ring (e.doneRecord e.replay) (!e.noIrq)
    have h' := ih (s.putDone e e.replay)
    rw [List.foldl_cons, h']
    have h2 : (s.putDone e e.replay).host = (s.putRecord e.ring (e.doneRecord e.replay) (!e.noIrq)).host := rfl
    rw [h2, h]
theorem State.complete_host (s : State) (h : Quad) (st : BitVec 16) (r : Bytes) (x : Bool) :
    (s.complete h st r x).host = { s.host with pba := (s.complete h st r x).host.pba } := by
  unfold State.complete
  (repeat' split) <;> dsimp only
  · exact State.putRecord_host _ _ _ _
  · exact State.flush_host _ _
/-- All that completing a command writes. -/
theorem State.complete_eq (s : State) (h : Quad) (st : BitVec 16) (r : Bytes) (x : Bool) :
    s.complete h st r x = s.withAnswer (s.complete h st r x) := by
  apply State.ext_parts <;> (try simp [State.withAnswer])
  · exact State.complete_host ..
  · refine Mem.ext_parts rfl ?_ ?_ ?_ ?_ <;> simp

/-! ## Beginning -/

/-- A command that may begin runs. -/
theorem State.begin_of {s : State} {h : Quad} {op : BitVec 16} {v1 : Bool} {e : JEntry} (b : s.begins h op v1 e)
    (f : JEntry → State) : s.begin h op v1 f = f e := by
  obtain ⟨h1, h2, h3, h4, h5, h6⟩ := b
  unfold State.begin
  cases hc : cmdInfo op with
  | none => simp [hc] at h6
  | some c => simp_all
theorem State.begins_entry {s : State} {h : Quad} {op : BitVec 16} {v1 : Bool} {e : JEntry} (b : s.begins h op v1 e) :
    s.entry h = some e := b.1
theorem State.begins_uncommitted {s : State} {h : Quad} {op : BitVec 16} {v1 : Bool} {e : JEntry}
    (b : s.begins h op v1 e) : e.committed = false := by
  obtain ⟨_, _, _, h4, _⟩ := b
  simp [JEntry.committed, h4]

end Sys2Proof.Machine
end

