-- ==== Sys2Proof/Laws/Logged.lean ====
section
/-! SUPPORT. What raising an event writes, and what setting a bit of SYS_EVENT writes. -/

namespace Sys2Proof.Machine

/-- The entry that the writer puts stands in the slot that was next, with the partition's next sequence (R385, R386). -/
theorem Hyk.put_safety (h : Hyk) (e : HykEntry) :
    ∃ f : HykEntry, (h.put true e).safety = Tbl.set (fun _ => none) h.safety h.safNext.toNat (some f) ∧
      f.source = e.source ∧ f.code = e.code ∧ f.sevFlags = e.sevFlags ∧ f.data = e.data ∧ f.seq = nextSeq h.safSeq := by
  unfold Hyk.put; simp only [if_true]
  exact ⟨_, rfl, rfl, rfl, rfl, rfl, rfl⟩
theorem Hyk.put_general (h : Hyk) (e : HykEntry) :
    ∃ f : HykEntry, (h.put false e).general = Tbl.set (fun _ => none) h.general h.genNext.toNat (some f) ∧
      f.source = e.source ∧ f.code = e.code ∧ f.sevFlags = e.sevFlags ∧ f.data = e.data ∧ f.seq = nextSeq h.genSeq := by
  unfold Hyk.put; simp only [Bool.false_eq_true, if_false]
  exact ⟨_, rfl, rfl, rfl, rfl, rfl, rfl⟩
/-- What the writer leaves alone. -/
theorem Hyk.put_safety_rest (h : Hyk) (e : HykEntry) :
    (h.put true e).raised = h.raised ∧ (h.put true e).written = h.written ∧ (h.put true e).dropped = h.dropped ∧
      (h.put true e).general = h.general ∧ (h.put true e).genNext = h.genNext ∧
      (h.put true e).safNext.toNat = (h.safNext.toNat + 1) % 4096 := by
  unfold Hyk.put; simp
theorem Hyk.put_general_rest (h : Hyk) (e : HykEntry) :
    (h.put false e).raised = h.raised ∧ (h.put false e).written = h.written ∧ (h.put false e).dropped = h.dropped ∧
      (h.put false e).safety = h.safety ∧ (h.put false e).safNext = h.safNext ∧
      (h.put false e).genNext.toNat = (h.genNext.toNat + 1) % 28672 := by
  unfold Hyk.put; simp; omega

/-- What the rate limit leaves alone. -/
theorem Hyk.limit_buckets (h : Hyk) (c : BitVec 16) (v : BitVec 4) (o : BitVec 48) :
    (h.limit c v o).1.raised = h.raised ∧ (h.limit c v o).1.written = h.written ∧ (h.limit c v o).1.dropped = h.dropped ∧
      (h.limit c v o).1.general = h.general ∧ (h.limit c v o).1.safety = h.safety ∧
      (h.limit c v o).1.genNext = h.genNext ∧ (h.limit c v o).1.safNext = h.safNext ∧
      (h.limit c v o).1.genSeq = h.genSeq ∧ (h.limit c v o).1.safSeq = h.safSeq := by
  unfold Hyk.limit
  (repeat' split) <;> simp

theorem sevFlags_low (v : BitVec 4) (a b c d : Bool) : (sevFlags v a b c d).setWidth 4 = v := by
  revert v a b c d; decide

/-- Raising an event of the module's own is one accepted event (R391). -/
theorem State.raise_logged (s : State) (src : Byte) (code : BitVec 16) (sev : BitVec 4) (data : Bytes) :
    s.logged (s.raise src code sev data) src code sev data := by
  unfold State.logged State.raise State.offer
  dsimp only
  have hlim : limitedCode code = false → ∀ o : BitVec 48,
      (if limitedCode code then Hyk.limit { s.hyk with raised := s.hyk.raised + 1 } code sev o else
        ({ s.hyk with raised := s.hyk.raised + 1 }, Verdict.write)).2 = Verdict.write := by
    intro h o; simp [h]
  generalize hx : (if limitedCode code then Hyk.limit { s.hyk with raised := s.hyk.raised + 1 } code sev _ else _) = x
  have hp : x.1.raised = s.hyk.raised + 1 ∧ x.1.written = s.hyk.written ∧ x.1.dropped = s.hyk.dropped ∧
      x.1.general = s.hyk.general ∧ x.1.safety = s.hyk.safety ∧ x.1.genNext = s.hyk.genNext ∧
      x.1.safNext = s.hyk.safNext ∧ x.1.genSeq = s.hyk.genSeq ∧ x.1.safSeq = s.hyk.safSeq := by
    rw [← hx]
    split
    · exact Hyk.limit_buckets { s.hyk with raised := s.hyk.raised + 1 } code sev _
    · exact ⟨rfl, rfl, rfl, rfl, rfl, rfl, rfl, rfl, rfl⟩
  have hv : limitedCode code = false → x.2 = .write := fun h => by rw [← hx]; exact hlim h _
  clear hx hlim
  obtain ⟨h, v⟩ := x
  obtain ⟨h1, h2, h3, h4, h5, h6, h7, h8, h9⟩ := hp
  dsimp only at h1 h2 h3 h4 h5 h6 h7 h8 h9 hv
  have wrote : ∀ g : Hyk, g = Hyk.put { h with written := h.written + 1 } (safetyEntry src code)
        (s.entryOf src code (sevFlags sev (safetyEntry src code) false false (s.sys.mode == .follow)) data) →
      g.raised = s.hyk.raised + 1 ∧ g.dropped = s.hyk.dropped ∧ g.written = s.hyk.written + 1 ∧
        ∃ e : HykEntry, e.source = src ∧ e.code = code ∧ e.sevFlags.setWidth 4 = sev ∧ e.data = padTo 12 data ∧
          e.seq = nextSeq (if safetyEntry src code then s.hyk.safSeq else s.hyk.genSeq) ∧
          g.safety = (if safetyEntry src code then Tbl.set (fun _ => none) s.hyk.safety s.hyk.safNext.toNat (some e)
            else s.hyk.safety) ∧
          g.general = (if safetyEntry src code then s.hyk.general
            else Tbl.set (fun _ => none) s.hyk.general s.hyk.genNext.toNat (some e)) ∧
          g.safNext.toNat =
            (if safetyEntry src code then (s.hyk.safNext.toNat + 1) % 4096 else s.hyk.safNext.toNat) ∧
          g.genNext.toNat =
            (if safetyEntry src code then s.hyk.genNext.toNat else (s.hyk.genNext.toNat + 1) % 28672) := by
    intro g hg; subst hg
    cases hs : safetyEntry src code with
    | true =>
      obtain ⟨f, e1, e2, e3, e4, e5, e6⟩ := Hyk.put_safety { h with written := h.written + 1 }
        (s.entryOf src code (sevFlags sev true false false (s.sys.mode == .follow)) data)
      obtain ⟨r1, r2, r3, r4, r5, r6⟩ := Hyk.put_safety_rest { h with written := h.written + 1 }
        (s.entryOf src code (sevFlags sev true false false (s.sys.mode == .follow)) data)
      simp only [if_true]
      refine ⟨r1.trans h1, r3.trans h3, r2.trans (congrArg (· + 1) h2), f, e2, e3, ?_, e5, ?_, ?_, r4.trans h4, ?_, ?_⟩
      · rw [e4]; exact sevFlags_low ..
      · rw [e6]; exact congrArg nextSeq h9
      · rw [e1]; dsimp only; rw [h5, h7]
      · rw [r6]; dsimp only; rw [h7]
      · rw [r5]; dsimp only; rw [h6]
    | false =>
      obtain ⟨f, e1, e2, e3, e4, e5, e6⟩ := Hyk.put_general { h with written := h.written + 1 }
        (s.entryOf src code (sevFlags sev false false false (s.sys.mode == .follow)) data)
      obtain ⟨r1, r2, r3, r4, r5, r6⟩ := Hyk.put_general_rest { h with written := h.written + 1 }
        (s.entryOf src code (sevFlags sev false false false (s.sys.mode == .follow)) data)
      simp only [Bool.false_eq_true, if_false]
      refine ⟨r1.trans h1, r3.trans h3, r2.trans (congrArg (· + 1) h2), f, e2, e3, ?_, e5, ?_, r4.trans h5, ?_, ?_, ?_⟩
      · rw [e4]; exact sevFlags_low ..
      · rw [e6]; exact congrArg nextSeq h8
      · rw [e1]; dsimp only; rw [h4, h6]
      · rw [r5]; dsimp only; rw [h7]
      · rw [r6]; dsimp only; rw [h6]
  cases v with
  | drop =>
    refine ⟨h1, .inl ⟨by rw [h3], ?_, h2, h4, h5, h6, h7⟩⟩
    cases hc : limitedCode code with
    | true => rfl
    | false => exact absurd (hv hc) (by simp)
  | _ =>
    obtain ⟨a, b, c⟩ := wrote _ rfl
    exact ⟨a, .inr ⟨b, c⟩⟩

/-- What raising an event leaves of the recorder: OP_TIME, the power cycles, the last off state (R386). -/
theorem Hyk.limit_kept (h : Hyk) (c : BitVec 16) (v : BitVec 4) (o : BitVec 48) :
    (h.limit c v o).1.opBase = h.opBase ∧ (h.limit c v o).1.opSaved = h.opSaved ∧
      (h.limit c v o).1.powerCycles = h.powerCycles ∧ (h.limit c v o).1.lastOff = h.lastOff := by
  unfold Hyk.limit; (repeat' split) <;> simp
theorem Hyk.put_kept (h : Hyk) (b : Bool) (e : HykEntry) : (h.put b e).opBase = h.opBase ∧
    (h.put b e).opSaved = h.opSaved ∧ (h.put b e).powerCycles = h.powerCycles ∧ (h.put b e).lastOff = h.lastOff := by
  unfold Hyk.put; cases b <;> simp
theorem State.raise_kept (s : State) (src : Byte) (code : BitVec 16) (sev : BitVec 4) (data : Bytes) :
    (s.raise src code sev data).hyk.opBase = s.hyk.opBase ∧ (s.raise src code sev data).hyk.opSaved = s.hyk.opSaved ∧
      (s.raise src code sev data).hyk.powerCycles = s.hyk.powerCycles ∧
      (s.raise src code sev data).hyk.lastOff = s.hyk.lastOff := by
  unfold State.raise State.offer; dsimp only
  generalize hx : (if limitedCode code then Hyk.limit { s.hyk with raised := s.hyk.raised + 1 } code sev _ else _) = x
  have hp : x.1.opBase = s.hyk.opBase ∧ x.1.opSaved = s.hyk.opSaved ∧ x.1.powerCycles = s.hyk.powerCycles ∧
      x.1.lastOff = s.hyk.lastOff := by
    rw [← hx]; split
    · exact Hyk.limit_kept { s.hyk with raised := s.hyk.raised + 1 } code sev _
    · exact ⟨rfl, rfl, rfl, rfl⟩
  clear hx
  obtain ⟨h, v⟩ := x
  cases v with
  | drop => exact hp
  | _ =>
    dsimp only [Hyk.skips] at *
    obtain ⟨h1, h2, h3, h4⟩ := Hyk.put_kept { h with written := h.written + 1 } (safetyEntry src code)
      (s.entryOf src code (sevFlags sev (safetyEntry src code) false false (s.sys.mode == .follow)) data)
    exact ⟨h1.trans hp.1, h2.trans hp.2.1, h3.trans hp.2.2.1, h4.trans hp.2.2.2⟩
@[simp] theorem State.raise_opMs (s : State) (src : Byte) (code : BitVec 16) (sev : BitVec 4) (data : Bytes) :
    (s.raise src code sev data).opMs = s.opMs := by
  unfold State.opMs; rw [State.raise_tbu, (State.raise_kept s src code sev data).1]
theorem State.disarm_kept (s : State) (e : Nat) (v : BitVec 4) : (s.disarm e v).hyk.opBase = s.hyk.opBase ∧
    (s.disarm e v).hyk.opSaved = s.hyk.opSaved ∧ (s.disarm e v).hyk.powerCycles = s.hyk.powerCycles ∧
    (s.disarm e v).hyk.lastOff = s.hyk.lastOff := by
  unfold State.disarm; split
  · exact ⟨rfl, rfl, rfl, rfl⟩
  · exact State.raise_kept _ _ _ _ _
@[simp] theorem State.disarm_opMs (s : State) (e : Nat) (v : BitVec 4) : (s.disarm e v).opMs = s.opMs := by
  unfold State.opMs; rw [State.disarm_tbu, (State.disarm_kept s e v).1]
/-- Clearing an armed activation leaves none armed. -/
theorem State.disarm_upd (s : State) (e : Nat) (v : BitVec 4) :
    (s.disarm e v).upd = { s.upd with armed := none, ready := (s.disarm e v).upd.ready } := by
  unfold State.disarm; split
  · rename_i h; rw [← h]
  · simp

/-- Raising an event changes the recorder alone. -/
theorem State.raise_eq (s : State) (src : Byte) (code : BitVec 16) (sev : BitVec 4) (data : Bytes) :
    s.raise src code sev data = { s with hyk := (s.raise src code sev data).hyk } := by
  apply State.ext_parts <;> first | rfl | simp

/-- Whether an event was accepted depends on the recorder alone. -/
theorem State.logged_congr {s s' t t' : State} {src : Byte} {code : BitVec 16} {sev : BitVec 4} {data : Bytes}
    (h : s.logged t src code sev data) (hs : s'.hyk = s.hyk) (ht : t'.hyk = t.hyk) : s'.logged t' src code sev data := by
  unfold State.logged at *
  rw [hs, ht]; exact h

/-- Setting a bit of SYS_EVENT. -/
theorem State.setEvent_host (s : State) (k : Nat) :
    (s.setEvent k).host = { s.host with pba := (s.setEvent k).host.pba } := by
  unfold State.setEvent; dsimp only; split
  · exact State.msix_host _ _
  · rfl
theorem State.setEvent_eq (s : State) (k : Nat) : s.setEvent k = s.signalling (s.setEvent k) k := by
  apply State.ext_parts <;> (try simp [State.signalling, State.setEvent_sys])
  exact State.setEvent_host s k

/-- What a cancellation keeps of the recorder, and that it leaves nothing armed. -/
theorem State.cancelArmed_kept (s : State) (e : Nat) (v : BitVec 4) : (s.cancelArmed e v).hyk.opBase = s.hyk.opBase ∧
    (s.cancelArmed e v).hyk.opSaved = s.hyk.opSaved ∧ (s.cancelArmed e v).hyk.powerCycles = s.hyk.powerCycles ∧
    (s.cancelArmed e v).hyk.lastOff = s.hyk.lastOff := by
  unfold State.cancelArmed; split
  · rw [State.setEvent_hyk]; exact State.disarm_kept ..
  · exact ⟨rfl, rfl, rfl, rfl⟩
@[simp] theorem State.cancelArmed_opMs (s : State) (e : Nat) (v : BitVec 4) : (s.cancelArmed e v).opMs = s.opMs := by
  unfold State.opMs; rw [State.cancelArmed_tbu, (State.cancelArmed_kept s e v).1]
theorem State.cancelArmed_upd (s : State) (e : Nat) (v : BitVec 4) :
    (s.cancelArmed e v).upd = { s.upd with armed := none, ready := (s.cancelArmed e v).upd.ready } := by
  unfold State.cancelArmed; split
  · rw [State.setEvent_upd]; exact State.disarm_upd ..
  · rename_i h
    have : s.upd.armed = none := by simpa using h
    rw [← this]

end Sys2Proof.Machine
end

