-- ==== Sys2Proof/Laws/Modes.lean ====
section
/-! SUPPORT. What entry into HALT does, said once. -/

namespace Sys2Proof.Machine

/-- Sending to every channel sends, and changes nothing else. -/
theorem State.emits_eq (l : List Nat) (f : Nat → Output) (s : State) :
    l.foldl (fun t c => t.emit (f c)) s = { s with sent := (l.foldl (fun t c => t.emit (f c)) s).sent } := by
  induction l generalizing s with
  | nil => rfl
  | cons x l ih => rw [List.foldl_cons, ih]; rfl
/-- The last command frames change Field Link and what is sent. -/
theorem State.lastFrames_eq (s : State) :
    s.lastFrames = { s with fld := s.lastFrames.fld, sent := s.lastFrames.sent } := by
  unfold State.lastFrames State.modChans State.modFld; dsimp only; rw [State.emits_eq]
@[simp] theorem State.lastFrames_pending (s : State) : s.lastFrames.pending = s.pending := by rw [State.lastFrames_eq]
@[simp] theorem State.lastFrames_free (s : State) : s.lastFrames.free = s.free := by rw [State.lastFrames_eq]
@[simp] theorem State.lastFrames_mfg (s : State) : s.lastFrames.mfg = s.mfg := by rw [State.lastFrames_eq]
@[simp] theorem State.lastFrames_pwr (s : State) : s.lastFrames.pwr = s.pwr := by rw [State.lastFrames_eq]
@[simp] theorem State.lastFrames_tbu (s : State) : s.lastFrames.tbu = s.tbu := by rw [State.lastFrames_eq]
@[simp] theorem State.lastFrames_hyk (s : State) : s.lastFrames.hyk = s.hyk := by rw [State.lastFrames_eq]
@[simp] theorem State.lastFrames_sys (s : State) : s.lastFrames.sys = s.sys := by rw [State.lastFrames_eq]
@[simp] theorem State.lastFrames_host (s : State) : s.lastFrames.host = s.host := by rw [State.lastFrames_eq]
@[simp] theorem State.lastFrames_mem (s : State) : s.lastFrames.mem = s.mem := by rw [State.lastFrames_eq]
@[simp] theorem State.lastFrames_cfg (s : State) : s.lastFrames.cfg = s.cfg := by rw [State.lastFrames_eq]
@[simp] theorem State.lastFrames_prog (s : State) : s.lastFrames.prog = s.prog := by rw [State.lastFrames_eq]
@[simp] theorem State.lastFrames_swd (s : State) : s.lastFrames.swd = s.swd := by rw [State.lastFrames_eq]
@[simp] theorem State.lastFrames_tri (s : State) : s.lastFrames.tri = s.tri := by rw [State.lastFrames_eq]
@[simp] theorem State.lastFrames_cpr (s : State) : s.lastFrames.cpr = s.cpr := by rw [State.lastFrames_eq]
@[simp] theorem State.lastFrames_hl1 (s : State) : s.lastFrames.hl1 = s.hl1 := by rw [State.lastFrames_eq]
@[simp] theorem State.lastFrames_hl2 (s : State) : s.lastFrames.hl2 = s.hl2 := by rw [State.lastFrames_eq]
@[simp] theorem State.lastFrames_dpx (s : State) : s.lastFrames.dpx = s.dpx := by rw [State.lastFrames_eq]
@[simp] theorem State.lastFrames_stl (s : State) : s.lastFrames.stl = s.stl := by rw [State.lastFrames_eq]
@[simp] theorem State.lastFrames_upd (s : State) : s.lastFrames.upd = s.upd := by rw [State.lastFrames_eq]
@[simp] theorem State.lastFrames_bst (s : State) : s.lastFrames.bst = s.bst := by rw [State.lastFrames_eq]
@[simp] theorem State.lastFrames_saf (s : State) : s.lastFrames.saf = s.saf := by rw [State.lastFrames_eq]
@[simp] theorem State.lastFrames_rings (s : State) : s.lastFrames.rings = s.rings := by rw [State.lastFrames_eq]
@[simp] theorem State.lastFrames_journal (s : State) : s.lastFrames.journal = s.journal := by rw [State.lastFrames_eq]
@[simp] theorem State.lastFrames_tasks (s : State) : s.lastFrames.tasks = s.tasks := by rw [State.lastFrames_eq]
theorem State.lastFrames_fld (s : State) : s.lastFrames.fld.silent = true ∧ s.lastFrames.fld.safetyOff = true :=
  ⟨rfl, rfl⟩

/-- What a logged event of the general partition leaves of the safety partition. -/
theorem State.logged_general {s t : State} {src : Byte} {code : BitVec 16} {sev : BitVec 4} {data : Bytes}
    (h : s.logged t src code sev data) (hs : safetyEntry src code = false) :
    t.hyk.safety = s.hyk.safety ∧ t.hyk.safNext = s.hyk.safNext := by
  obtain ⟨_, ⟨_, _, _, _, h1, _, h2⟩ | ⟨_, _, e, _, _, _, _, _, h1, _, h2, _⟩⟩ := h
  · exact ⟨h1, h2⟩
  · simp only [hs, Bool.false_eq_true, if_false] at h1 h2
    exact ⟨h1, BitVec.eq_of_toNat_eq h2⟩
theorem State.raise_safety (s : State) {src : Byte} {code : BitVec 16} {sev : BitVec 4} {data : Bytes}
    (hs : safetyEntry src code = false) :
    (s.raise src code sev data).hyk.safety = s.hyk.safety ∧ (s.raise src code sev data).hyk.safNext = s.hyk.safNext :=
  State.logged_general (State.raise_logged s src code sev data) hs
theorem State.disarm_safety (s : State) (e : Nat) (v : BitVec 4) : (s.disarm e v).hyk.safety = s.hyk.safety := by
  unfold State.disarm; split
  · rfl
  · exact (State.raise_safety _ rfl).1
theorem State.cancelArmed_safety (s : State) (e : Nat) (v : BitVec 4) : (s.cancelArmed e v).hyk.safety = s.hyk.safety := by
  unfold State.cancelArmed; split
  · rw [State.setEvent_hyk]; exact State.disarm_safety ..
  · rfl
theorem State.cancelArmed_event (s : State) (e : Nat) (v : BitVec 4) :
    (s.cancelArmed e v).sys = { s.sys with event := (s.cancelArmed e v).sys.event } := by
  unfold State.cancelArmed; split
  · simp [State.setEvent_sys]
  · rfl
theorem State.cancelArmed_host (s : State) (e : Nat) (v : BitVec 4) :
    (s.cancelArmed e v).host = { s.host with pba := (s.cancelArmed e v).host.pba } := by
  unfold State.cancelArmed; split
  · rw [State.setEvent_host]; simp
  · rfl
theorem State.raiseMode_safety (s : State) (a b : Mode) (u : BitVec 4) (t : Nat) :
    (s.raiseMode a b u t).hyk.safety = s.hyk.safety := (State.raise_safety _ rfl).1
/-- An event of the safety partition whose code has no rate limit is written. -/
theorem State.raise_written (s : State) {src : Byte} {code : BitVec 16} {sev : BitVec 4} {data : Bytes}
    (hs : safetyEntry src code = true) (hl : limitedCode code = false) :
    ∃ e : HykEntry, Tbl.get (fun _ => none) (s.raise src code sev data).hyk.safety s.hyk.safNext.toNat = some e ∧
      e.source = src ∧ e.code = code ∧ e.data = padTo 12 data := by
  obtain ⟨_, ⟨_, h, _⟩ | ⟨_, _, e, h1, h2, _, h3, _, h4, _⟩⟩ := State.raise_logged s src code sev data
  · rw [hl] at h; cases h
  · refine ⟨e, ?_, h1, h2, h3⟩
    rw [h4]; simp [hs]

/-- The entry of HALT lies in the safety partition and has no rate limit (R384, R387). -/
theorem halt_code (c : Byte) : safetyEntry srcSup (0x1F00 + c.setWidth 16) = true ∧
    limitedCode (0x1F00 + c.setWidth 16) = false := by revert c; decide

theorem ite_hyk_safety (p : Prop) [Decidable p] (a b : State) (x : Tbl (Option HykEntry)) (ha : a.hyk.safety = x)
    (hb : b.hyk.safety = x) : (if p then a else b).hyk.safety = x := by split <;> assumption

theorem State.setRole_event (s : State) (r b : BitVec 2) :
    (s.setRole r b).sys = { s.sys with event := (s.setRole r b).sys.event } := by
  obtain h | h := State.setRole_sys s r b <;> rw [h]
theorem State.setRole_host (s : State) (r b : BitVec 2) :
    (s.setRole r b).host = { s.host with pba := (s.setRole r b).host.pba } := by
  unfold State.setRole; dsimp only; split
  · simp
  · rw [State.fuseMark_host, State.setEvent_host]; rfl
/-- Forces that end with RUN touch their command's entry and the job (R106). -/
theorem State.forceEnds_eq (s : State) :
    s.forceEnds = { s with prog := s.forceEnds.prog, journal := s.forceEnds.journal } := by
  unfold State.forceEnds State.commitOnly; (repeat' split) <;> rfl
theorem State.forceEnds_sys (s : State) : s.forceEnds.sys = s.sys := by rw [State.forceEnds_eq]
theorem State.forceEnds_raise (s : State) (a : Byte) (c : BitVec 16) (v : BitVec 4) (d : Bytes) :
    (s.forceEnds.raise a c v d).hyk = (s.raise a c v d).hyk := by
  rw [State.forceEnds_eq]
  unfold State.raise State.offer State.entryOf; dsimp only [State.opMs, State.now]
  split <;> rfl
/-- Entry into HALT, the forces ended, up to the change of SYS_MODE. -/
def State.haltMid (s : State) (cause : Byte) (word : Word) : State :=
  let s := s.raise srcSup (0x1F00 + cause.setWidth 16) 6 ([cause] ++ le 4 word ++ le 4 s.sys.baseTick)
  let s := s.cancelArmed 3 2
  let s := if s.domOn 7 then s.lastFrames else s
  let s := ((s.modHl1 HlNet.silence).modHl2 HlNet.silence).modAllTasks fun _ t => t.abandon
  let s := (s.releaseClaim.modDpx fun d => { d with faultReport := true, phase := 0, swap := none }).setRole 0 0
  let s := s.modProg fun p => { p with olc := none, due := [], writing := none }
  s.modBst fun b => { b with running := 0, job := none }
/-- Entry into HALT up to the change of SYS_MODE. -/
def State.haltFirst (s : State) (cause : Byte) : State := s.forceEnds.haltMid cause s.sys.modeWord
/-- Entry into HALT from the change of SYS_MODE on. -/
def State.haltLast (s : State) (before : Mode) (up : Bool) (cause : Byte) (latched : Bool) : State :=
  let s := s.modSys fun y => { y with
    mode := .halt, substate := 0, haltCause := cause, haltLatched := y.haltLatched || latched, start := none
    runWait := none, stopJob := none, shutJob := none, initRun := none }
  let s := if up then s else s.raiseMode before .halt 0 3
  let s := s.modSys fun y => { y with event := y.event ||| 1 }
  let s := if s.sys.eventsOn.getLsbD 0 then s.msix 9 else s
  s.modPwr fun p => { p with domains := domainWord (if p.onHoldup then [0] else [0, 5]) }
theorem State.haltMid_sys (s : State) (c : Byte) (w : Word) :
    (s.haltMid c w).sys = { s.sys with event := (s.haltMid c w).sys.event } := by
  unfold State.haltMid; dsimp only
  simp only [State.modBst_sys, State.modProg_sys]
  rw [State.setRole_event]
  simp only [State.modDpx_sys, State.releaseClaim_sys, State.modAllTasks, State.modTasks_sys, State.modHl2_sys, State.modHl1_sys]
  split <;> (try rw [State.lastFrames_sys]) <;> rw [State.cancelArmed_event, State.raise_sys]
theorem State.haltMid_host (s : State) (c : Byte) (w : Word) :
    (s.haltMid c w).host = { s.host with pba := (s.haltMid c w).host.pba } := by
  unfold State.haltMid; dsimp only
  simp only [State.modBst_host, State.modProg_host]
  rw [State.setRole_host]
  simp only [State.modDpx_host, State.releaseClaim_host, State.modAllTasks, State.modTasks_host, State.modHl2_host, State.modHl1_host]
  split <;> (try rw [State.lastFrames_host]) <;> rw [State.cancelArmed_host, State.raise_host]
theorem State.haltMid_safety (s : State) (c : Byte) (w : Word) : (s.haltMid c w).hyk.safety =
    (s.raise srcSup (0x1F00 + c.setWidth 16) 6 ([c] ++ le 4 w ++ le 4 s.sys.baseTick)).hyk.safety := by
  unfold State.haltMid; dsimp only
  simp only [State.modBst_hyk, State.modProg_hyk, State.setRole_hyk, State.modDpx_hyk, State.releaseClaim_hyk,
    State.modAllTasks, State.modTasks_hyk, State.modHl2_hyk, State.modHl1_hyk]
  split
  · rw [State.lastFrames_hyk]; exact State.cancelArmed_safety ..
  · exact State.cancelArmed_safety ..
theorem State.haltMid_eq (s : State) (c : Byte) (w : Word) : s.haltMid c w = { s with
    hl1 := { s.hl1 with up := false }, hl2 := { s.hl2 with up := false }
    host := { s.host with pba := (s.haltMid c w).host.pba }, sent := (s.haltMid c w).sent, hyk := (s.haltMid c w).hyk
    sys := (s.haltMid c w).sys, prog := (s.haltMid c w).prog, tasks := (s.haltMid c w).tasks
    fld := (s.haltMid c w).fld, dpx := (s.haltMid c w).dpx, upd := (s.haltMid c w).upd, bst := (s.haltMid c w).bst } := by
  apply State.ext_parts <;> try rfl
  case h8 => exact State.haltMid_host s c w
  all_goals
    unfold State.haltMid; simp [State.modAllTasks, HlNet.silence]
theorem State.haltMid_work (s : State) (c : Byte) (w : Word) : (s.haltMid c w).prog.olc = none ∧ (s.haltMid c w).prog.due = [] ∧
    (s.haltMid c w).prog.writing = none ∧ (s.haltMid c w).bst.running = 0 := by
  unfold State.haltMid; dsimp only
  exact ⟨rfl, rfl, rfl, rfl⟩
theorem State.haltMid_claim (s : State) (c : Byte) (w : Word) : (s.haltMid c w).dpx.ownClaim = false ∧ (s.haltMid c w).dpx.role = 0 ∧
    (s.haltMid c w).dpx.standby = 0 ∧ (s.haltMid c w).dpx.faultReport = true := by
  unfold State.haltMid; dsimp only
  simp only [State.modBst_dpx, State.modProg_dpx, State.setRole_dpx, State.modDpx_dpx, State.releaseClaim]
  exact ⟨trivial, trivial, trivial, trivial⟩
theorem State.haltMid_outputs (s : State) (c : Byte) (w : Word) (h : s.domOn 7 = true) : (s.haltMid c w).fld.silent = true ∧
    (s.haltMid c w).fld.safetyOff = true := by
  unfold State.haltMid; dsimp only
  rw [if_pos (show State.domOn (State.cancelArmed _ 3 2) 7 = true by unfold State.domOn at *; rw [State.cancelArmed_pwr, State.raise_pwr]; exact h)]
  simp only [State.modBst_fld, State.modProg_fld, State.setRole_fld, State.modDpx_fld, State.releaseClaim_fld,
    State.modAllTasks, State.modTasks_fld, State.modHl2_fld, State.modHl1_fld]
  exact State.lastFrames_fld _

theorem State.haltFirst_sys (s : State) (c : Byte) :
    (s.haltFirst c).sys = { s.sys with event := (s.haltFirst c).sys.event } := by
  have h := State.haltMid_sys s.forceEnds c s.sys.modeWord
  rw [State.forceEnds_sys] at h; exact h
theorem State.haltFirst_safety (s : State) (c : Byte) : (s.haltFirst c).hyk.safety =
    (s.raise srcSup (0x1F00 + c.setWidth 16) 6 ([c] ++ le 4 s.sys.modeWord ++ le 4 s.sys.baseTick)).hyk.safety := by
  unfold State.haltFirst
  rw [State.haltMid_safety, State.forceEnds_raise, State.forceEnds_sys]
theorem State.haltFirst_eq (s : State) (c : Byte) : s.haltFirst c = { s with
    hl1 := { s.hl1 with up := false }, hl2 := { s.hl2 with up := false }
    host := { s.host with pba := (s.haltFirst c).host.pba }, sent := (s.haltFirst c).sent, hyk := (s.haltFirst c).hyk
    sys := (s.haltFirst c).sys, prog := (s.haltFirst c).prog, journal := (s.haltFirst c).journal
    tasks := (s.haltFirst c).tasks, fld := (s.haltFirst c).fld, dpx := (s.haltFirst c).dpx, upd := (s.haltFirst c).upd
    bst := (s.haltFirst c).bst } := by
  have h := State.haltMid_eq s.forceEnds c s.sys.modeWord
  change s.haltFirst c = _ at h
  have e := State.forceEnds_eq s
  have hj : (s.haltFirst c).journal = s.forceEnds.journal := by rw [h]
  rw [hj, h]
  generalize s.forceEnds = t at *
  rw [e]
theorem State.haltFirst_work (s : State) (c : Byte) : (s.haltFirst c).prog.olc = none ∧ (s.haltFirst c).prog.due = [] ∧
    (s.haltFirst c).prog.writing = none ∧ (s.haltFirst c).bst.running = 0 := State.haltMid_work ..
theorem State.haltFirst_claim (s : State) (c : Byte) : (s.haltFirst c).dpx.ownClaim = false ∧ (s.haltFirst c).dpx.role = 0 ∧
    (s.haltFirst c).dpx.standby = 0 ∧ (s.haltFirst c).dpx.faultReport = true := State.haltMid_claim ..
theorem State.haltFirst_outputs (s : State) (c : Byte) (h : s.domOn 7 = true) : (s.haltFirst c).fld.silent = true ∧
    (s.haltFirst c).fld.safetyOff = true :=
  State.haltMid_outputs s.forceEnds c _ (by rw [State.forceEnds_eq]; exact h)

theorem State.haltNow_split (s : State) (c : Byte) (l : Bool) :
    s.haltNow c l = (s.haltFirst c).haltLast s.sys.mode (s.sys.mode == .start && s.sys.start.isNone) c l := rfl

theorem State.haltLast_eq (s : State) (b : Mode) (u : Bool) (c : Byte) (l : Bool) : s.haltLast b u c l = { s with
    pwr := { s.pwr with domains := domainWord (if s.pwr.onHoldup then [0] else [0, 5]) }
    host := { s.host with pba := (s.haltLast b u c l).host.pba }, sent := (s.haltLast b u c l).sent
    hyk := (s.haltLast b u c l).hyk, sys := (s.haltLast b u c l).sys } := by
  apply State.ext_parts <;> try rfl
  case h8 =>
    unfold State.haltLast; dsimp only
    simp only [State.modPwr_host]
    cases u <;> simp only [if_true, if_false, Bool.false_eq_true] <;> split <;> (try rw [State.msix_host]) <;>
      simp only [State.modSys_host, State.raiseMode_host]
  case h4 =>
    unfold State.haltLast; dsimp only [State.modPwr]
    cases u <;> simp
  all_goals
    unfold State.haltLast; cases u <;> simp
theorem State.haltLast_sys (s : State) (b : Mode) (u : Bool) (c : Byte) (l : Bool) : (s.haltLast b u c l).sys =
    { s.sys with mode := .halt, substate := 0, haltCause := c, haltLatched := s.sys.haltLatched || l, start := none
                 runWait := none, stopJob := none, shutJob := none, initRun := none, event := s.sys.event ||| 1 } := by
  unfold State.haltLast; dsimp only
  cases u <;> simp only [if_true, if_false, Bool.false_eq_true] <;> split <;> simp
theorem State.haltLast_safety (s : State) (b : Mode) (u : Bool) (c : Byte) (l : Bool) :
    (s.haltLast b u c l).hyk.safety = s.hyk.safety := by
  unfold State.haltLast; dsimp only
  cases u <;> simp only [if_true, if_false, Bool.false_eq_true] <;> split <;> simp [State.raiseMode_safety]

/-- Entry into HALT does what R50 says. -/
theorem State.haltNow_halted (s : State) (c : Byte) (l : Bool) : s.halted (s.haltNow c l) c l := by
  obtain ⟨hc1, hc2⟩ := halt_code c
  obtain ⟨e, he1, he2, he3, he4⟩ := State.raise_written s (sev := 6) (data := [c] ++ le 4 s.sys.modeWord ++ le 4 s.sys.baseTick) hc1 hc2
  have hev : ∀ x : Byte, (x ||| 1#8).getLsbD 0 = true := by decide
  rw [State.haltNow_split]
  generalize (s.sys.mode == .start && s.sys.start.isNone) = u
  generalize s.sys.mode = b
  have hs := State.haltFirst_sys s c
  have hl := State.haltLast_eq (s.haltFirst c) b u c l
  have hf := State.haltFirst_eq s c
  constructor
  · rw [State.haltLast_sys, hs]; exact ⟨rfl, rfl, rfl, rfl, rfl, hev _⟩
  · refine ⟨e, ?_, he3, he4⟩
    rw [State.haltLast_safety, State.haltFirst_safety]; exact he1
  · rw [hl]; exact State.haltFirst_claim s c
  · rw [hl]; exact State.haltFirst_outputs s c
  · rw [hl]; exact State.haltFirst_work s c
  · rw [hl]; dsimp only
    generalize (State.haltLast (s.haltFirst c) b u c l) = v at *
    rw [hf]

end Sys2Proof.Machine
end

