-- ==== Sys2Proof/WellFormed.lean ====
section
/-! DEFINITION. Well-formed commands: the lengths that the spec fixes for the bytes a command carries. -/

namespace Sys2Proof

/-- Greatest length of a Heathline frame without preamble and delimiter (R264, R265). -/
def maxFrame : Nat := 1500
/-- Bytes a lane copies to the module with one access (R88, R344). -/
def accessSizes : List Nat := [1, 2, 4, 8]

/-- The bytes of a command have the lengths that its rule gives: a coupler frame (R199, R221), an entry of 64 bytes
(R59), the data of an event (R385, R103), a Heathline frame (R264), one access of a lane (R344), one register write
(R431), a message (R322), update blocks (R403). -/
def Instr.wf : Instr → Bool
  | .uplinkFrame _ f => f.length == 10
  | .commandFrame _ f => f.length == 8
  | .cmdSubmit _ _ entry => entry.length == 64
  | .eventLog _ _ data => data.length ≤ 12
  | .eventOffer _ _ _ data _ => data.length ≤ 12
  | .faultRaise _ _ data => data.length == 12
  | .beaconFrame _ _ _ f => f.length ≤ maxFrame
  | .dataFrame _ _ _ f => f.length ≤ maxFrame
  | .coldstartFrame _ _ _ f => f.length ≤ maxFrame
  | .claimFrame _ _ _ f => f.length ≤ maxFrame
  | .delayFrame _ _ _ f => f.length ≤ maxFrame
  | .acyclicFrame _ _ _ f => f.length ≤ maxFrame
  | .remoteWindowLoad _ _ n => accessSizes.contains n
  | .remoteWindowStore _ _ d => accessSizes.contains d.length
  | .registerWrite _ _ _ d => d.length == 4 || d.length == 8
  | .messageReceived _ _ m => m.length ≤ 65536
  | .usbRecoveryImage _ bs => bs.all fun b => b.length == 65536
  | _ => true

end Sys2Proof
end

