-- ==== Sys2Proof/Tests/Slice0.lean ====
section
/-! SUPPORT. Small states, tests of single commands with results from the spec, and for every statement states and
operands that meet its hypotheses. -/

namespace Sys2Proof.Machine.Tests

set_option Elab.async false

/-! ## Small states -/

/-- All domains on, in STOP, both feeds at 24 V, the hold-up ready. -/
def tStop : State :=
  { State.reset with
    pwr := { Pwr.reset with
      on := true, l1v := 192, l2v := 192, l1ok := true, l2ok := true, reserveReady := true, holdupReady := true
      domains := domainWord [0, 1, 2, 3, 4, 5, 6, 7] }
    sys := { Sys.reset with mode := .stop } }
/-- A state at another TBU count. -/
def tAt (s : State) (n : Nat) : State := { s with tbu := { s.tbu with count := n } }
/-- The same in another mode. -/
def tIn (m : Mode) : State := { tStop with sys := { tStop.sys with mode := m } }
/-- A journalled, accepted command under handle 7. -/
def tEntry (op : BitVec 16) (args : Bytes) (ring : Nat) (v1 : Bool) : JEntry :=
  { handle := 7, ring := ring, tag := 1, opcode := op, flags := 0, args := padTo 56 args, accepted := 0, index := 0, v1 := v1
    phase := .accepted, status := 0, result := [], extended := false, combined := false, doneAt := 0, replay := false }
/-- A state with that command. -/
def tCmd (s : State) (op : BitVec 16) (args : Bytes) (ring : Nat) (v1 : Bool) : State :=
  { s with journal := [tEntry op args ring v1] }
/-- A standard container with one cyclic task of 1 ms. -/
def tCont : Container :=
  { kind := 0, part := 0, id := 1, build := 1, paramDigest := 0, retLayout := 0, perLayout := 0, digest := 0, code := List.replicate 64 0
    constData := [], tasks := [⟨1, 0, 3, 1, 1000, 0, 1024, 0xFF⟩], vars := [], maps := [], expIds := [], fresh := false
    vals := [] }
/-- Task 1 present in a state. -/
def tTask (s : State) (n : Nat) (f : Task → Task) : State :=
  { s with tasks := Tbl.set (fun _ => Task.reset) s.tasks n (f { Task.reset with present := true }) }
/-- A program with one task. -/
def tProg (s : State) : State := tTask { s with prog := { s.prog with std0 := some tCont } } 1 fun k => { k with priority := 3 }
/-- A container whose init task has still to run. -/
def tFresh : Container := { tCont with fresh := true, tasks := tCont.tasks ++ [⟨1, 1, 0, 0, 0, 0, 1024, 0xFF⟩] }
/-- A state with a program but no task. -/
def tLoaded (s : State) (c : Container) : State := { s with prog := { s.prog with std0 := some c } }
/-- A body that writes nothing. -/
def tBody : Body := ⟨[], [], [], 0⟩
/-- A self-test that finds nothing. -/
def tGood : BistOutcome := ⟨0, 0, []⟩
/-- Inputs of a start in which everything passes. -/
def tStart : StartInputs := ⟨tGood, true, true, true, true, true, true, 7, 3, true, true, tBody⟩
/-- SERVICE with a substate. -/
def tService (n : BitVec 4) : State := { tStop with sys := { tStop.sys with mode := .service, substate := n } }
/-- HALT with a cause. -/
def tHalt (c : Byte) : State := { tStop with sys := { tStop.sys with mode := .halt, haltCause := c } }
/-- A start in progress. -/
def tStarting (k : StartKind) : State :=
  { tStop with sys := { tStop.sys with mode := .start, substate := 1, start := some ⟨k, k, 0, 0, false, false⟩ }
               tbu := { tStop.tbu with count := 60000 * countsMs } }
/-- The active module of a pair with an IN_SYNC standby. -/
def tSync (s : State) : State := { s with dpx := { s.dpx with role := 1, standby := 2, ownClaim := true, partnerSeen := true } }
/-- An option whose content passes a check has content. -/
theorem some_of {α : Type} (o : Option α) (p : α → Bool) (h : o.any p = true) : ∃ a, o = some a ∧ p a = true := by
  cases o with
  | none => simp at h
  | some a => exact ⟨a, rfl, by simpa using h⟩
/-- The state with which a start goes on. -/
def tOn : Going → Option State
  | .on s => some s
  | .ended _ => none
theorem on_of (g : Going) (p : State → Bool) (h : (tOn g).any p = true) : ∃ u, g = .on u ∧ p u = true := by
  cases g with
  | ended t => simp [tOn] at h
  | on u => exact ⟨u, rfl, by simpa [tOn] using h⟩
/-- A warm start in progress with a commit to start from. -/
def tWarm : State :=
  { tStarting .warm with
    sys := { (tStarting .warm).sys with epoch := 1 }
    prog := { tStop.prog with bank0 := some ⟨1, [], [], [], true, []⟩, commitSeq := 1 } }
/-- A ring pair with one entry waiting at its head. -/
def tQueue (s : State) (n : Nat) (raw : Bytes) : State :=
  { s with
    rings := Tbl.set Ring.reset s.rings n { Ring.reset n with enabled := true, cmdProd := 1 }
    mem := { s.mem with ring := Tbl.store s.mem.ring ((Ring.reset n).cmdOff 0) (padTo 64 raw) } }
/-- A ring pair with records not yet delivered. -/
def tRecords (s : State) (n : Nat) : State :=
  { s with rings := Tbl.set Ring.reset s.rings n { Ring.reset n with enabled := true, cplProd := 1, undelivered := [(0, 0, true)] } }
theorem ok_of {ε α : Type} (r : Except ε α) (a : α) (h : r.toOption = some a) : r = .ok a := by
  cases r with
  | error e => simp [Except.toOption] at h
  | ok b => simp only [Except.toOption, Option.some.injEq] at h; rw [h]
/-- The reason of a refused check. -/
def tReason {α : Type} : Except (BitVec 16) α → Option (BitVec 16)
  | .ok _ => none
  | .error e => some e
theorem error_of {α : Type} (r : Except (BitVec 16) α) (e : BitVec 16) (h : tReason r = some e) : r = .error e := by
  cases r with
  | ok b => simp [tReason] at h
  | error x => simp only [tReason, Option.some.injEq] at h; rw [h]
/-- A descriptor of a buffer of 30,224 bytes, and what it hands over. -/
def tDesc : Bytes := [0, 0, 0, 0, 0, 0, 0, 0, 0x10, 0x76, 0, 0, 0, 0, 0, 0]
theorem tInput (s : State) (b x : Bytes) (hb : sub b 0 16 = tDesc) (h : x.length = 30224) :
    s.input 0 (sub b 0 16) (.bytes x) = some x := by
  have n : descLen tDesc = 30224 := by decide
  rw [hb]; unfold State.input State.inWindows; rw [if_neg (by decide), n]; simp [padTo, ← h]
/-- A check computed string by string: the remainder after each string stands beside it. -/
def crcRun {w : Nat} (p : BitVec w) (r : Bool) : BitVec w → List (Bytes × BitVec w) → BitVec w → Bool
  | c, [], v => c == v
  | c, (b, d) :: l, v => crc p r c b == d && crcRun p r d l v
theorem crc_of_run {w : Nat} (p : BitVec w) (r : Bool) (l : List (Bytes × BitVec w)) (c v : BitVec w)
    (h : crcRun p r c l v = true) : crc p r c (l.flatMap (·.1)) = v := by
  induction l generalizing c with
  | nil => simpa [crcRun, crc] using h
  | cons x l ih =>
    obtain ⟨b, d⟩ := x
    simp only [crcRun, Bool.and_eq_true, beq_iff_eq] at h
    have e : crc p r c (b ++ l.flatMap (·.1)) = crc p r (crc p r c b) (l.flatMap (·.1)) := by
      unfold crc; rw [List.foldl_append]
    rw [List.flatMap_cons, e, h.1, ih d h.2]
/-- A configuration set with an empty PARAMS section; its CRC computed in strings of 16 bytes. -/
def tConfig : Bytes :=
  [0x44, 0x58, 0x43, 0x46, 1, 0, 0, 0, 5, 0, 0, 0, 6, 0, 0, 0, 1, 0, 0, 0, 128, 0, 0, 0] ++ List.replicate 36 0
    ++ [0xF4, 0x23, 0xFA, 0x71] ++ [1, 0, 0, 0, 128] ++ List.replicate 59 0
def tChunks : List (Bytes × Word) :=
  [([0x44, 0x58, 0x43, 0x46, 1, 0, 0, 0, 5, 0, 0, 0, 6, 0, 0, 0], 0xCC854306),
   ([1, 0, 0, 0, 128, 0, 0, 0, 0, 0, 0, 0, 0, 0, 0, 0], 0xCE783FC7), (List.replicate 16 0, 0x4006C0F7),
   (List.replicate 16 0, 0x4F907102), ([1, 0, 0, 0, 128, 0, 0, 0, 0, 0, 0, 0, 0, 0, 0, 0], 0xA2346639),
   (List.replicate 16 0, 0xE8AE4EC2), (List.replicate 16 0, 0xAA0AB7D2), (List.replicate 16 0, 0xD03BA071)]
theorem tConfig_header : configHeader tConfig = some 128 := by
  have h := crc_of_run (w := 32) 0x1EDC6F41 true tChunks 0xFFFFFFFF 0xD03BA071 (by decide +kernel)
  have e : patch (tConfig.take 128) 60 [0, 0, 0, 0] = tChunks.flatMap (·.1) := by decide +kernel
  have n : leAt tConfig 20 4 = 128 := by decide +kernel
  have k : crc32c (patch (tConfig.take 128) 60 [0, 0, 0, 0]) = 0x71FA23F4 := by
    rw [e]; unfold crc32c; rw [h]; decide +kernel
  unfold configHeader
  dsimp only
  rw [n, k, if_pos]
  decide +kernel
/-- A newer build of `tCont`. -/
def tNew : Container := { tCont with digest := 1, build := 2, fresh := true }
/-- A variable that may be forced, bound to an input and to an output. -/
def tVar : VarDecl :=
  { id := 5, type := 1, cls := 0, forceable := true, reinit := false, inBound := true, outBound := false, exported := false
    offset := 0, count := 2, size := 1, commitTask := 0xFF, parent := 0, init := 0xFFFFFFFF }
/-- A state with a container that declares it. -/
def tVars (s : State) : State := tLoaded s { tCont with vars := [tVar] }
/-- A state with the password "1". -/
def tPass (s : State) : State := { s with saf := { s.saf with password := some (0, passHash 0 [1]) } }
/-- A change of one safety constant under that password, with the digest of the empty set. -/
def tChange : Bytes :=
  padTo 96 (le 32 (setDigest []) ++ [0, 1, 1, 0] ++ List.replicate 12 0 ++ padTo 32 [1] ++ [0x20, 0, 0, 0, 0, 0, 0, 0, 9])
theorem tChange_digest : sub tChange 0 32 = le 32 (setDigest []) := by rfl
/-- A state whose only command of a buffer has 96 bytes. -/
def tDesc96 : Bytes := [0, 0, 0, 0, 0, 0, 0, 0, 96]
theorem tChange_ok (s : State) (h0 : s.saf.items = []) (h1 : ¬(s.sys.mode = .service ∧ s.sys.substate ≠ 3)) (h2 : s.cfg.cur = ConfigSet.reset)
    (h3 : s.prog.loaded = []) (h4 : s.saf.password.isNone = false) (h5 : ¬(s.dpx.role = 1 ∧ s.dpx.standby ≠ 2)) : s.changeRefusal tChange = none := by
  unfold State.changeRefusal
  dsimp only
  rw [h0, h2, h3, h4, if_neg (fun h => absurd h.2 (by decide +kernel)), if_neg h1, if_neg (by rw [tChange_digest]; simp),
    if_neg (by decide +kernel), if_neg (by decide +kernel), if_neg h5]
/-- Cell 3 and channel 3 in given states. -/
def tCell (s : State) (c : Cell) : State := { s with fld := { s.fld with cells := Tbl.set (fun _ => Cell.reset) s.fld.cells 3 c } }
def tChan (s : State) (c : Channel) : State := { s with fld := { s.fld with chans := Tbl.set (fun _ => Channel.reset) s.fld.chans 3 c } }
/-- A powered cell of a mode. -/
def tMode (m : BitVec 4) : Cell := { Cell.reset with powered := true, configured := true, mode := m }
/-- Group 0 in a given state. -/
def tGroup (s : State) (g : Group) : State := { s with fld := { s.fld with groups := Tbl.set (fun _ => Group.reset) s.fld.groups 0 g } }
/-- Terminals at which P and M lie at given levels, 24 V of supply. -/
def tTerm (p m : Int) : Terminals := ⟨p, m, false, false, false, false, false, 192, false⟩
/-- A schedule of 1 ms: beacon, a station's DATA, the hub's DATA, a spare slot, an acyclic slot, delay measurement. -/
def tSlot (n : Nat) (kind node : Byte) (at_ : Nat) : SlotDesc := ⟨n, kind, node, some (at_ + 500000), some at_, 4, false, 0⟩
def tSched : Schedule :=
  { ident := 0x01020304, gen := 2, netId := 9, cycleNs := 1000000, clean := true, body := []
    slots := [tSlot 0 0 0 0, tSlot 1 1 2 50000, tSlot 2 2 255 100000, tSlot 3 3 0 150000, tSlot 4 4 2 200000, tSlot 5 6 0 250000] }
/-- HL1 in operation in a given state of its node. -/
def tNet (s : State) (n : HlNet) : State := { s with hl1 := n }
def tNode : HlNet := { HlNet.reset with gen := 2, netId := 9, addr := 2, sched := some tSched, up := true, hubAddr := 1, refAddr := 1 }
def tHub : HlNet := { tNode with addr := 1, hub := true, state := .reference }
/-- Requests of a context. -/
def tReqs (s : State) (l : List Req) : State := { s with stl := { s.stl with reqs := l } }
def tReq (op : Byte) (h : Option Quad) : Req := ⟨0, false, 2, op, 5, 0, 4, [], h, true, 0, false, false, [], none⟩
/-- A frame with its frame CRC is complete once its length is right. -/
theorem leNat_leBytes (n x : Nat) : leNat (leBytes n x) = x % 256 ^ n := by
  induction n generalizing x with
  | zero => simp [leBytes, leNat, Nat.mod_one]
  | succ n ih =>
    have e : (BitVec.ofNat 8 x).toNat = x % 256 := by simp
    simp only [leBytes, leNat, ih, e, Nat.pow_succ]
    rw [Nat.mul_comm (256 ^ n) 256, Nat.mod_mul]
theorem length_leBytes (n x : Nat) : (leBytes n x).length = n := by
  induction n generalizing x with
  | zero => rfl
  | succ n ih => simp [leBytes, ih]
theorem crcOk_of (b f : Bytes) (hf : f = b ++ beBytes 4 (crc32 b).toNat)
    (h : decide (b.length = 16 + hLen f + if hTrailer f then 8 else 0) = true) : crcOk f = true := by
  have l : f.length = b.length + 4 := by rw [hf]; simp [beBytes, length_leBytes]
  have h := of_decide_eq_true h
  have t : f.take (f.length - 4) = b := by rw [l, hf]; simp
  have a : beAt f (f.length - 4) 4 = (crc32 b).toNat := by
    rw [l, hf]
    simp only [beAt, sub, Nat.add_sub_cancel, List.drop_left', beNat]
    rw [List.take_of_length_le (by simp [beBytes, length_leBytes])]
    simp only [beBytes, List.reverse_reverse, leNat_leBytes]
    exact Nat.mod_eq_of_lt (crc32 b).isLt
  unfold crcOk
  dsimp only
  rw [t, a, l, h]
  simp only [BitVec.ofNat_toNat, BitVec.setWidth_eq, beq_self_eq_true, Bool.and_true, decide_eq_true_eq]
  split <;> omega
/-- A frame without its frame CRC. -/
def tHead (ty slot : Nat) (cycle : Word) (src : Byte) (cb out : Bool) (len : Nat) (body : Bytes) : Bytes :=
  let h := [BitVec.ofNat 8 (ty * 16 + 2), 9] ++ beBytes 2 slot ++ beBytes 4 cycle.toNat ++ [src, 0]
    ++ beBytes 2 (maskOf [false, cb, out, false]) ++ beBytes 2 len
  h ++ beBytes 2 (crc16 h).toNat ++ body
/-- A frame of the network of `tNode`. -/
def tFrame (ty slot : Nat) (cycle : Word) (src : Byte) (out : Bool) (len : Nat) (body : Bytes) : Bytes :=
  let b := tHead ty slot cycle src false out len body
  b ++ beBytes 4 (crc32 b).toNat
/-- A beacon of the cycle of `tNode`. -/
def tBeacon : Bytes := tFrame 1 0 0 1 true 56 ([1, 2, 3, 4] ++ List.replicate 52 0)
theorem tBeacon_crc : crcOk tBeacon = true := crcOk_of _ _ rfl (by decide +kernel)

/-! ## What the statements assume -/

/-- A state and operands that meet the hypotheses of `Obligations.StepTakesTheFront`. -/
theorem meets_step_takes_the_front :
    (∃ (s : State) (c : Instr) (rest : List Instr), s.pending = c :: rest) :=
  ⟨{ State.reset with pending := [.reserveReady] }, .reserveReady, [], by decide +kernel⟩

/-- States and operands that meet the hypotheses of `Obligations.TimePassesOnAnEmptyQueue`, clause by clause. -/
theorem meets_time_passes_on_an_empty_queue :
    (∃ (s : State), s.pending = [] ∧ s.pwr.on = false) ∧
    (∃ (s : State), s.pending = [] ∧ s.pwr.on = true ∧ s.sys.initRun = none ∧ s.sys.shutJob = none ∧ s.bst.job = none ∧ s.sys.start = none ∧ s.saf.applying = none ∧ (∀ n, n ≤ 16 → (s.task n).errRuns = false)) :=
  ⟨⟨State.reset, by decide +kernel⟩,
   ⟨tStop, by decide +kernel⟩⟩

/-- A state and operands that meet the hypotheses of `Obligations.ResetIsSoundAndShowsTheResetColumns`. -/
theorem meets_reset_is_sound_and_shows_the_reset_columns :
    (∃ n, n < 32) :=
  ⟨31, by decide +kernel⟩

/-- A state and operands that meet the hypotheses of `Obligations.EveryStepGoesOnAndKeepsSoundness`. -/
theorem meets_every_step_goes_on_and_keeps_soundness :
    (∃ (s : State), s.sound) :=
  ⟨State.reset, by constructor <;> first | decide +kernel | exact ⟨by decide +kernel, by decide +kernel, by decide +kernel, fun _ _ h => nomatch (show (none : Option (Tbl Byte × Tbl Quad)) = some _ from h)⟩ | (unfold Hyk.sound; decide +kernel)⟩

/-- States and operands that meet the hypotheses of `Obligations.FeedsAreWatched`, clause by clause. -/
theorem meets_feeds_are_watched :
    (∃ (s : State) (f : Feed) (v : Byte), s.pwr.on = true ∧ s.pwr.feedOk f = true ∧ v.toNat < volt19_2) ∧
    (∃ (s : State) (f : Feed) (v : Byte), s.pwr.on = true ∧ s.pwr.feedOk f = false ∧ volt19_2 ≤ v.toNat ∧ s.pwr.below f + 100 * countsMs ≤ s.now) ∧
    (∃ (s : State), s.pwr.on = true) :=
  ⟨⟨tStop, .l1, 153, by decide +kernel⟩,
   ⟨tAt { tStop with pwr := { tStop.pwr with l2ok := false } } (100 * countsMs), .l2, 154, by decide +kernel⟩,
   ⟨tStop, by decide +kernel⟩⟩

/-- States and operands that meet the hypotheses of `Obligations.HoldUpTakesOver`, clause by clause. -/
theorem meets_hold_up_takes_over :
    (∃ (s : State), s.pwr.on = true ∧ s.pwr.reserveReady = true) ∧
    (∃ (s : State) (v : Byte), s.pwr.on = true ∧ s.pwr.onHoldup = false ∧ s.pwr.reserveReady = true ∧ v.toNat < volt18_5 ∧ s.pwr.holdupReady = true) ∧
    (∃ (s : State) (v : Byte), s.pwr.on = true ∧ s.pwr.onHoldup = false ∧ s.pwr.reserveReady = false ∧ v.toNat < volt18_5) ∧
    (∃ (s : State) (v : Byte), s.pwr.on = true ∧ s.pwr.onHoldup = true ∧ volt19_2 ≤ v.toNat) :=
  ⟨⟨tStop, by decide +kernel⟩,
   ⟨tStop, 147, by decide +kernel⟩,
   ⟨{ tStop with pwr := { tStop.pwr with reserveReady := false } }, 147, by decide +kernel⟩,
   ⟨{ tStop with pwr := { tStop.pwr with onHoldup := true } }, 154, by decide +kernel⟩⟩

/-- States and operands that meet the hypotheses of `Obligations.PowerEnds`, clause by clause. -/
theorem meets_power_ends :
    (∃ (s : State), s.pwr.on = true ∧ s.pwr.onHoldup = true ∧ s.pwr.reserveReady = true ∧ (s.pwr.holdupReady = false ∨ s.pwr.holdupAt + 20 * countsMs ≤ s.now) ∧ s.upd.armed = none) ∧
    (∃ (s : State) (x : BitVec 16), s.pwr.on = true ∧ 125 * 16 < x.toInt ∧ s.upd.armed = none) ∧
    (∃ (s : State) (x : BitVec 16), s.pwr.on = true ∧ 115 * 16 < x.toInt) :=
  ⟨⟨tAt { tStop with pwr := { tStop.pwr with onHoldup := true } } (20 * countsMs), by decide +kernel⟩,
   ⟨tStop, 2001, by decide +kernel⟩,
   ⟨tStop, 1841, by decide +kernel⟩⟩

/-- States and operands that meet the hypotheses of `Obligations.PowerUpStarts`, clause by clause. -/
theorem meets_power_up_starts :
    (∃ (s : State) (l1 l2 : Byte), s.pwr.on = false ∧ s.pwr.hotOff = false ∧ volt19_2 ≤ Nat.max l1.toNat l2.toNat) ∧
    (∃ (s : State) (l1 l2 : Byte) (x : BitVec 16), s.pwr.on = false ∧ s.pwr.hotOff = true ∧ x.toInt < 1600 ∧ volt19_2 ≤ Nat.max l1.toNat l2.toNat) :=
  ⟨⟨State.reset, 192, 0, by decide +kernel⟩,
   ⟨{ State.reset with pwr := { Pwr.reset with hotOff := true } }, 192, 0, 400, by decide +kernel⟩⟩

/-- States and operands that meet the hypotheses of `Obligations.MemoryFaultsHalt`, clause by clause. -/
theorem meets_memory_faults_halt :
    (∃ (s : State), s.pwr.on = true ∧ s.sys.mode ≠ .halt ∧ s.sys.mode ≠ .start) ∧
    (∃ (s : State), s.pwr.on = true) ∧
    (∃ (s : State), s.pwr.on = true ∧ s.pwr.scrubbedAt + 1000 * countsMs ≤ s.now) :=
  ⟨⟨tStop, by decide +kernel⟩,
   ⟨tStop, by decide +kernel⟩,
   ⟨tAt tStop (1000 * countsMs), by decide +kernel⟩⟩

/-- States and operands that meet the hypotheses of `Obligations.ModeRunEntersRun`, clause by clause. -/
theorem meets_mode_run_enters_run :
    (∃ (s : State) (h : Quad) (v : Bool) (e : JEntry), s.begins h 0x2010 v e ∧ s.activationDue = none ∧ s.runRefusal = none ∧ s.prog.coldInits = [] ∧ s.present = []) ∧
    (∃ (s : State) (h : Quad) (v : Bool) (e : JEntry), s.begins h 0x2010 v e ∧ s.activationDue = none ∧ s.runRefusal = none ∧ s.prog.coldInits = [] ∧ s.present ≠ []) ∧
    (∃ (s : State) (h : Quad) (v : Bool) (e : JEntry), s.begins h 0x2010 v e ∧ s.activationDue = none ∧ s.runRefusal = none ∧ s.prog.coldInits ≠ []) ∧
    (∃ (s : State) (h : Quad) (v : Bool) (e : JEntry) (d : Nat), s.begins h 0x2010 v e ∧ s.activationDue = none ∧ s.runRefusal = some d) :=
  ⟨⟨tCmd (tLoaded tStop tCont) 0x2010 [] 0 false, 7, false, tEntry 0x2010 [] 0 false, by unfold State.begins; decide +kernel⟩,
   ⟨tCmd (tProg tStop) 0x2010 [] 0 true, 7, true, tEntry 0x2010 [] 0 true, by unfold State.begins; decide +kernel⟩,
   ⟨tCmd (tLoaded tStop tFresh) 0x2010 [] 0 false, 7, false, tEntry 0x2010 [] 0 false, by unfold State.begins; decide +kernel⟩,
   ⟨tCmd (tStop) 0x2010 [] 0 false, 7, false, tEntry 0x2010 [] 0 false, 0x32, by unfold State.begins; decide +kernel⟩⟩

/-- States and operands that meet the hypotheses of `Obligations.ModeStopStops`, clause by clause. -/
theorem meets_mode_stop_stops :
    (∃ (s : State) (h : Quad) (v : Bool) (e : JEntry), s.begins h 0x2011 v e ∧ s.activationDue = none ∧ s.present ≠ []) ∧
    (∃ (s : State) (h : Quad) (v : Bool) (e : JEntry), ∃ n, s.begins h 0x2011 v e ∧ s.activationDue = none ∧ s.present = [] ∧ s.prog.forceJob = none ∧ s.saf.applying = none ∧ n ≤ 16) :=
  ⟨⟨tCmd (tProg (tIn .run)) 0x2011 [] 0 false, 7, false, tEntry 0x2011 [] 0 false, by unfold State.begins; decide +kernel⟩,
   ⟨tCmd (tIn .run) 0x2011 [] 0 false, 7, false, tEntry 0x2011 [] 0 false, 16, by unfold State.begins; decide +kernel⟩⟩

/-- States and operands that meet the hypotheses of `Obligations.ServiceOpensAndCloses`, clause by clause. -/
theorem meets_service_opens_and_closes :
    (∃ (s : State) (h : Quad) (e : JEntry), s.begins h 0x2012 false e ∧ s.activationDue = none) ∧
    (∃ (s : State) (h : Quad) (e : JEntry), s.begins h 0x2013 false e ∧ s.sys.lockstepBroken = false ∧ s.bst.failed = false) ∧
    (∃ (s : State) (h : Quad) (e : JEntry), s.begins h 0x2013 false e ∧ s.sys.lockstepBroken = true) ∧
    (∃ (s : State) (h : Quad) (e : JEntry), s.begins h 0x2013 false e ∧ s.sys.lockstepBroken = false ∧ s.bst.failed = true) :=
  ⟨⟨tCmd (tStop) 0x2012 [] 0 false, 7, tEntry 0x2012 [] 0 false, by unfold State.begins; decide +kernel⟩,
   ⟨tCmd (tService 1) 0x2013 [] 0 false, 7, tEntry 0x2013 [] 0 false, by unfold State.begins; decide +kernel⟩,
   ⟨tCmd ({ tService 1 with sys := { (tService 1).sys with lockstepBroken := true } }) 0x2013 [] 0 false, 7, tEntry 0x2013 [] 0 false, by unfold State.begins; decide +kernel⟩,
   ⟨tCmd ({ tService 1 with bst := { (tService 1).bst with failed := true } }) 0x2013 [] 0 false, 7, tEntry 0x2013 [] 0 false, by unfold State.begins; decide +kernel⟩⟩

/-- States and operands that meet the hypotheses of `Obligations.StartCommandsBeginAStart`, clause by clause. -/
theorem meets_start_commands_begin_a_start :
    (∃ (s : State) (h : Quad) (v : Bool) (e : JEntry), s.begins h 0x2014 v e ∧ s.saf.applying = none ∧ s.prog.forceJob = none) ∧
    (∃ (s : State) (h : Quad) (v : Bool) (e : JEntry), s.begins h 0x2015 v e ∧ s.saf.applying = none ∧ s.prog.forceJob = none) ∧
    (∃ (s : State), s.pwr.on = true ∧ s.sys.mode ≠ .start ∧ (s.sys.mode = .halt → s.sys.haltCause ≠ 2 ∧ s.sys.haltLatched = false) ∧ s.upd.recovered = false) ∧
    (∃ (s : State), s.pwr.on = true ∧ s.sys.mode ≠ .start ∧ (s.sys.mode = .halt → s.sys.haltCause = 2 → s.upd.recovered = true)) :=
  ⟨⟨tCmd (tIn .run) 0x2014 [] 0 false, 7, false, tEntry 0x2014 [] 0 false, by unfold State.begins; decide +kernel⟩,
   ⟨tCmd (tIn .run) 0x2015 [] 0 false, 7, false, tEntry 0x2015 [] 0 false, by unfold State.begins; decide +kernel⟩,
   ⟨tHalt 4, by decide +kernel⟩,
   ⟨tHalt 4, by decide +kernel⟩⟩

/-- States and operands that meet the hypotheses of `Obligations.RestartRegisterStarts`, clause by clause. -/
theorem meets_restart_register_starts :
    (∃ (s : State) (v : Word), s.domOn 5 = true ∧ s.sys.mode = .halt ∧ s.sys.haltCause ≠ 2 ∧ (v >>> 8).setWidth 8 = (0xA5 : Byte) ∧ v.getLsbD 1 = true) ∧
    (∃ (s : State) (v : Word), s.domOn 5 = true ∧ s.sys.mode = .halt ∧ s.sys.haltCause ≠ 2 ∧ (v >>> 8).setWidth 8 = (0xA5 : Byte) ∧ v.getLsbD 1 = false ∧ v.getLsbD 0 = true ∧ s.sys.haltLatched = false) ∧
    (∃ (s : State) (v : Word), s.domOn 5 = true ∧ s.sys.mode = .halt ∧ (v >>> 8).setWidth 8 ≠ (0xA5 : Byte)) ∧
    (∃ (s : State), s.domOn 5 = true ∧ s.sys.mode ≠ .halt) :=
  ⟨⟨tHalt 4, 0xA502, by decide +kernel⟩,
   ⟨tHalt 4, 0xA501, by decide +kernel⟩,
   ⟨tHalt 4, 0x5A01, by decide +kernel⟩,
   ⟨tIn .run, by decide +kernel⟩⟩

/-- States and operands that meet the hypotheses of `Obligations.StartsEndInAMode`, clause by clause. -/
theorem meets_starts_end_in_a_mode :
    (∃ (s : State) (i : StartInputs) (r : StartReq) (u v : State), s.starting = some r ∧ s.inNine = false ∧ r.performed = .cold ∧ (s.checkMram i).startFirst r i = .on u ∧ u.dpx.partnerClaim = false ∧ u.startSecond true i = .on v ∧ v.hl1.configured = false ∧ v.hl2.configured = false) ∧
    (∃ (s : State) (i : StartInputs) (r : StartReq) (u v : State), s.starting = some r ∧ s.inNine = false ∧ r.performed = .cold ∧ (s.checkMram i).startFirst r i = .on u ∧ u.dpx.partnerClaim = false ∧ u.startSecond true i = .on v ∧ (v.hl1.configured = true ∨ v.hl2.configured = true)) ∧
    (∃ (s : State) (i : StartInputs) (r : StartReq) (u v : State), s.starting = some r ∧ s.inNine = false ∧ r.performed = .warm ∧ (s.checkMram i).startCause i = 0 ∧ (s.checkMram i).startFirst r i = .on u ∧ u.dpx.partnerClaim = false ∧ u.startSecond false i = .on v ∧ v.hl1.configured = false ∧ v.hl2.configured = false) ∧
    (∃ (s : State) (i : StartInputs) (r : StartReq) (u v : State), s.starting = some r ∧ s.inNine = false ∧ r.performed = .warm ∧ (s.checkMram i).startCause i = 0 ∧ (s.checkMram i).startFirst r i = .on u ∧ u.dpx.partnerClaim = false ∧ u.startSecond false i = .on v ∧ (v.hl1.configured = true ∨ v.hl2.configured = true)) ∧
    (∃ (s : State) (r : StartReq), s.starting = some r ∧ s.inNine = true ∧ r.performed = .cold) ∧
    (∃ (s : State) (r : StartReq), s.starting = some r ∧ s.inNine = true ∧ r.performed = .warm) ∧
    (∃ (s : State) (i : StartInputs) (r : StartReq) (u : State), s.starting = some r ∧ s.inNine = false ∧ s.dpx.partnerClaim = true ∧ (s.checkMram i).startFirst r i = .on u) :=
  ⟨(let ⟨u, h, g⟩ := on_of _ (fun u => !u.dpx.partnerClaim && (tOn (u.startSecond true tStart)).any fun v => !v.hl1.configured && !v.hl2.configured)
      (show (tOn ((State.checkMram (tStarting .cold) tStart).startFirst ⟨.cold, .cold, 0, 0, false, false⟩ tStart)).any _ = true by decide +kernel)
    let ⟨v, k, m⟩ := on_of (u.startSecond true tStart) (fun v => !v.hl1.configured && !v.hl2.configured) (by simp only [Bool.and_eq_true] at g; exact g.2)
    ⟨(tStarting .cold), tStart, ⟨.cold, .cold, 0, 0, false, false⟩, u, v, by decide +kernel, rfl, rfl, h, by simp only [Bool.and_eq_true] at g; simpa using g.1, k, by simp only [Bool.and_eq_true] at m; simpa using m.1, by simp only [Bool.and_eq_true] at m; simpa using m.2⟩),
   (let ⟨u, h, g⟩ := on_of _ (fun u => !u.dpx.partnerClaim && (tOn (u.startSecond true tStart)).any fun v => v.hl1.configured)
      (show (tOn ((State.checkMram { tStarting .cold with hl1 := tNode } tStart).startFirst ⟨.cold, .cold, 0, 0, false, false⟩ tStart)).any _ = true by decide +kernel)
    let ⟨v, k, m⟩ := on_of (u.startSecond true tStart) (fun v => v.hl1.configured) (by simp only [Bool.and_eq_true] at g; exact g.2)
    ⟨{ tStarting .cold with hl1 := tNode }, tStart, ⟨.cold, .cold, 0, 0, false, false⟩, u, v, by decide +kernel, rfl, rfl, h, by simp only [Bool.and_eq_true] at g; simpa using g.1, k, .inl m⟩),
   (let ⟨u, h, g⟩ := on_of _ (fun u => !u.dpx.partnerClaim && (tOn (u.startSecond false tStart)).any fun v => !v.hl1.configured && !v.hl2.configured)
      (show (tOn ((State.checkMram tWarm tStart).startFirst ⟨.warm, .warm, 0, 0, false, false⟩ tStart)).any _ = true by decide +kernel)
    let ⟨v, k, m⟩ := on_of (u.startSecond false tStart) (fun v => !v.hl1.configured && !v.hl2.configured) (by simp only [Bool.and_eq_true] at g; exact g.2)
    ⟨tWarm, tStart, ⟨.warm, .warm, 0, 0, false, false⟩, u, v, by decide +kernel, rfl, rfl, by decide +kernel, h, by simp only [Bool.and_eq_true] at g; simpa using g.1, k, by simp only [Bool.and_eq_true] at m; simpa using m.1, by simp only [Bool.and_eq_true] at m; simpa using m.2⟩),
   (let ⟨u, h, g⟩ := on_of _ (fun u => !u.dpx.partnerClaim && (tOn (u.startSecond false tStart)).any fun v => v.hl1.configured)
      (show (tOn ((State.checkMram { tWarm with hl1 := tNode } tStart).startFirst ⟨.warm, .warm, 0, 0, false, false⟩ tStart)).any _ = true by decide +kernel)
    let ⟨v, k, m⟩ := on_of (u.startSecond false tStart) (fun v => v.hl1.configured) (by simp only [Bool.and_eq_true] at g; exact g.2)
    ⟨{ tWarm with hl1 := tNode }, tStart, ⟨.warm, .warm, 0, 0, false, false⟩, u, v, by decide +kernel, rfl, rfl, by decide +kernel, h, by simp only [Bool.and_eq_true] at g; simpa using g.1, k, .inl m⟩),
   ⟨{ tStarting .cold with sys := { (tStarting .cold).sys with substate := 9 } }, ⟨.cold, .cold, 0, 0, false, false⟩, by decide +kernel⟩,
   ⟨{ tStarting .warm with sys := { (tStarting .warm).sys with substate := 9 } }, ⟨.warm, .warm, 0, 0, false, false⟩, by decide +kernel⟩,
   (let ⟨u, h, _⟩ := on_of _ (fun _ => true)
      (show (tOn ((State.checkMram { tStarting .cold with dpx := { tStop.dpx with partnerClaim := true } } tStart).startFirst ⟨.cold, .cold, 0, 0, false, false⟩ tStart)).any _ = true by decide +kernel)
    ⟨{ tStarting .cold with dpx := { tStop.dpx with partnerClaim := true } }, tStart, ⟨.cold, .cold, 0, 0, false, false⟩, u, by decide +kernel, by decide +kernel, by decide +kernel, h⟩)⟩

/-- States and operands that meet the hypotheses of `Obligations.StartLimits`, clause by clause. -/
theorem meets_start_limits :
    (∃ (s : State) (r : StartReq), s.starting = some r ∧ s.inNine = false ∧ r.performed = .cold ∧ r.entered + 60000 * countsMs ≤ s.now ∧ 2 ≤ (recent s.opMs s.sys.coldFails).length) ∧
    (∃ (s : State) (r : StartReq), s.starting = some r ∧ s.inNine = false ∧ r.performed = .cold ∧ r.entered + 60000 * countsMs ≤ s.now ∧ (recent s.opMs s.sys.coldFails).length < 2) ∧
    (∃ (s : State) (r : StartReq), s.starting = some r ∧ s.inNine = false ∧ r.performed = .warm ∧ r.entered + 20000 * countsMs ≤ s.now) ∧
    (∃ (s : State), s.pwr.on = true) :=
  ⟨⟨{ tStarting .cold with sys := { (tStarting .cold).sys with coldFails := [60000, 60000] } }, ⟨.cold, .cold, 0, 0, false, false⟩, by decide +kernel⟩,
   ⟨tStarting .cold, ⟨.cold, .cold, 0, 0, false, false⟩, by decide +kernel⟩,
   ⟨tStarting .warm, ⟨.warm, .warm, 0, 0, false, false⟩, by decide +kernel⟩,
   ⟨tStop, by decide +kernel⟩⟩

/-- States and operands that meet the hypotheses of `Obligations.ShutdownGoesOff`, clause by clause. -/
theorem meets_shutdown_goes_off :
    (∃ (s : State) (h : Quad) (e : JEntry), s.begins h 0x2016 false e ∧ s.activationDue = none ∧ s.inSync = false ∧ s.sys.mode = .run ∧ s.present ≠ []) ∧
    (∃ (s : State) (h : Quad) (e : JEntry), s.begins h 0x2016 false e ∧ s.activationDue = none ∧ s.inSync = false ∧ s.sys.mode ≠ .run ∧ s.sys.mode = .follow) ∧
    (∃ (s : State) (h : Quad) (e : JEntry), s.begins h 0x2016 false e ∧ s.activationDue = none ∧ s.inSync = true) ∧
    (∃ (s : State) (j : ShutJob) (e : JEntry), s.draining = some j ∧ s.pwr.on = true ∧ j.entered + 5000 * countsMs ≤ s.now ∧ s.entry j.h = some e ∧ e.committed = false) :=
  ⟨⟨tCmd (tProg (tIn .run)) 0x2016 [] 0 false, 7, tEntry 0x2016 [] 0 false, by unfold State.begins; decide +kernel⟩,
   ⟨tCmd (tIn .follow) 0x2016 [] 0 false, 7, tEntry 0x2016 [] 0 false, by unfold State.begins; decide +kernel⟩,
   ⟨tCmd (tSync tStop) 0x2016 [] 0 false, 7, tEntry 0x2016 [] 0 false, by unfold State.begins; decide +kernel⟩,
   ⟨{ tCmd (tService 5) 0x2016 [] 0 false with sys := { (tService 5).sys with shutJob := some ⟨7, tGood, 0⟩ }, tbu := { tStop.tbu with count := 5000 * countsMs } }, ⟨7, tGood, 0⟩, tEntry 0x2016 [] 0 false, by decide +kernel⟩⟩

/-- States and operands that meet the hypotheses of `Obligations.DoorbellsCoverEntries`, clause by clause. -/
theorem meets_doorbells_cover_entries :
    (∃ (s : State) (p : Party) (n : Fin 32), s.mailboxUp = true ∧ ownsRing p n = true ∧ (p = .legacy → s.sys.legacyWrite = true) ∧ (p = .service → s.upd.granted = true)) ∧
    (∃ (s : State) (n : Fin 32), s.mailboxUp = true ∧ 8 ≤ n.val) :=
  ⟨⟨tStop, .legacy, 11, by decide +kernel⟩,
   ⟨tStop, 8, by decide +kernel⟩⟩

/-- States and operands that meet the hypotheses of `Obligations.ConsumerIndexDelivers`, clause by clause. -/
theorem meets_consumer_index_delivers :
    (∃ (s : State) (p : Party) (n : Fin 32) (v : Word), ∃ k, s.mailboxUp = true ∧ ownsRing p n = true ∧ (p = .legacy → s.sys.legacyWrite = true) ∧ (p = .service → s.upd.granted = true) ∧ (v - (s.ring n).cplCons).toNat ≤ ((s.ring n).cplProd - (s.ring n).cplCons).toNat ∧ (s.ring n).backlog = [] ∧ k ≠ n.val) ∧
    (∃ (s : State) (p : Party) (n : Fin 32) (v : Word), ∃ k, s.mailboxUp = true ∧ ownsRing p n = true ∧ (p = .legacy → s.sys.legacyWrite = true) ∧ (p = .service → s.upd.granted = true) ∧ (v - (s.ring n).cplCons).toNat ≤ ((s.ring n).cplProd - (s.ring n).cplCons).toNat ∧ ((s.ring n).cplProd - v).toNat + (s.ring n).backlog.length ≤ (s.ring n).depth ∧ k ≠ n.val) ∧
    (∃ (s : State) (p : Party) (n : Fin 32) (v : Word), s.mailboxUp = true ∧ ownsRing p n = true ∧ (p = .legacy → s.sys.legacyWrite = true) ∧ (p = .service → s.upd.granted = true) ∧ ((s.ring n).cplProd - (s.ring n).cplCons).toNat < (v - (s.ring n).cplCons).toNat) :=
  ⟨⟨tRecords tStop 0, .pcie, 0, 1, 1, by decide +kernel⟩,
   ⟨tRecords tStop 0, .pcie, 0, 1, 1, by decide +kernel⟩,
   ⟨tRecords tStop 0, .pcie, 0, 2, by decide +kernel⟩⟩

/-- States and operands that meet the hypotheses of `Obligations.EntriesAreTakenInOrder`, clause by clause. -/
theorem meets_entries_are_taken_in_order :
    (∃ (s : State) (n : Nat) (op : BitVec 16) (c : CmdInfo) (a : Bytes), s.serves n ∧ s.inSync = false ∧ (s.taking.advance n).check (s.taking.headEntry n) = .ok (op, c, a) ∧ c.cls ≠ .q) ∧
    (∃ (s : State) (n : Nat) (c : CmdInfo) (a : Bytes), s.serves n ∧ s.sys.mode ≠ .start ∧ s.inSync = false ∧ (s.taking.advance n).check (s.taking.headEntry n) = .ok (0x2000, c, a) ∧ (s.taking.headEntry n).flags.getLsbD 0 = false ∧ s.entry (mkHandle n s.sys.epoch (s.ring n).seq) = none) ∧
    (∃ (s : State) (n : Nat) (st : BitVec 16), s.serves n ∧ (s.taking.advance n).check (s.taking.headEntry n) = .error st) ∧
    (∃ (s : State) (n : Nat) (op : BitVec 16) (c : CmdInfo) (a : Bytes), s.serves n ∧ s.inSync = true ∧ (s.taking.advance n).check (s.taking.headEntry n) = .ok (op, c, a)) :=
  ⟨⟨tQueue tStop 0 [0x10, 0x20], 0, 0x2010, { cls := .m, inStop := true, inRun := false, inFollow := false, inService := false }, List.replicate 56 0, ⟨⟨by decide +kernel, by decide +kernel, by decide +kernel⟩, by decide +kernel, ok_of _ _ (by decide +kernel), by decide +kernel⟩⟩,
   ⟨tQueue tStop 0 [0x00, 0x20], 0, { cls := .q, ownP := true, ownT := true, ownS := true, inStop := true, inRun := true, inFollow := true, inService := true }, List.replicate 56 0, ⟨⟨by decide +kernel, by decide +kernel, by decide +kernel⟩, by decide +kernel, by decide +kernel, ok_of _ _ (by decide +kernel), by decide +kernel⟩⟩,
   ⟨tQueue tStop 0 [0xFF, 0x7F], 0, stUnknownOpcode, ⟨⟨by decide +kernel, by decide +kernel, by decide +kernel⟩, error_of _ _ (by decide +kernel)⟩⟩,
   ⟨tSync (tQueue tStop 0 [0x10, 0x20]), 0, 0x2010, { cls := .m, inStop := true, inRun := false, inFollow := false, inService := false }, List.replicate 56 0, ⟨⟨by decide +kernel, by decide +kernel, by decide +kernel⟩, by decide +kernel, ok_of _ _ (by decide +kernel)⟩⟩⟩

/-- States and operands that meet the hypotheses of `Obligations.QueriesAnswerAtOnce`, clause by clause. -/
theorem meets_queries_answer_at_once :
    (∃ (s : State) (h : Quad) (v : Bool) (e : JEntry), s.begins h 0x2000 v e) ∧
    (∃ (s : State) (h : Quad) (e : JEntry), s.begins h 0x2001 false e) ∧
    (∃ (s : State) (h : Quad) (e : JEntry), s.begins h 0x2001 true e) ∧
    (∃ (s : State) (h : Quad) (e : JEntry), s.begins h 0x2002 false e ∧ s.entry (BitVec.ofNat 64 (leAt e.args 0 8)) = none) ∧
    (∃ (s : State) (h : Quad) (e x : JEntry), s.begins h 0x2002 false e ∧ s.entry (BitVec.ofNat 64 (leAt e.args 0 8)) = some x) :=
  ⟨⟨tCmd (tStop) 0x2000 [] 0 true, 7, true, tEntry 0x2000 [] 0 true, by unfold State.begins; decide +kernel⟩,
   ⟨tCmd (tStop) 0x2001 [] 0 false, 7, tEntry 0x2001 [] 0 false, by unfold State.begins; decide +kernel⟩,
   ⟨tCmd (tStop) 0x2001 [] 0 true, 7, tEntry 0x2001 [] 0 true, by unfold State.begins; decide +kernel⟩,
   ⟨tCmd (tStop) 0x2002 [9] 0 false, 7, tEntry 0x2002 [9] 0 false, by unfold State.begins; decide +kernel⟩,
   ⟨tCmd (tStop) 0x2002 [7] 0 false, 7, tEntry 0x2002 [7] 0 false, tEntry 0x2002 [7] 0 false, by unfold State.begins; decide +kernel⟩⟩

/-- A state and operands that meet the hypotheses of `Obligations.WrongModeChangesNothing`. -/
theorem meets_wrong_mode_changes_nothing :
    (∃ (s : State) (h : Quad) (op : BitVec 16) (e : JEntry) (c : CmdInfo) (i : Instr), s.entry h = some e ∧ e.opcode = op ∧ e.v1 = false ∧ e.phase = .accepted ∧ s.mayBegin e = true ∧ cmdInfo op = some c ∧ c.inMode s.sys.mode = false ∧ (op = 0x2010 ∧ s.activationDue = none ∧ (∃ b, i = .modeRun h b) ∨ op = 0x2011 ∧ s.activationDue = none ∧ i = .modeStop h ∨ op = 0x2012 ∧ s.activationDue = none ∧ i = .serviceEnter h ∨ op = 0x2013 ∧ i = .serviceLeave h ∨ op = 0x2020 ∧ (∃ b o l, i = .containerLoad h b o l) ∨ op = 0x2021 ∧ (∃ b, i = .onlineChange h b) ∨ op = 0x2022 ∧ i = .forceSet h ∨ op = 0x2025 ∧ i = .persistentReset h ∨ op = 0x2026 ∧ (∃ b, i = .configLoad h b) ∨ op = 0x2030 ∧ (∃ b, i = .safetyParamChange h b) ∨ op = 0x2052 ∧ (∃ b, i = .debugToken h b) ∨ op = 0x2060 ∧ (∃ o, i = .bistRun h o))) :=
  ⟨tCmd (tIn .run) 0x2010 [] 0 false, 7, 0x2010, tEntry 0x2010 [] 0 false, { cls := .m, inStop := true, inRun := false, inFollow := false, inService := false }, .modeRun 7 tBody, by refine ⟨by decide +kernel, rfl, rfl, rfl, by decide +kernel, rfl, by decide +kernel, .inl ⟨rfl, by decide +kernel, tBody, rfl⟩⟩⟩

/-- States and operands that meet the hypotheses of `Obligations.RingInterrupts`, clause by clause. -/
theorem meets_ring_interrupts :
    (∃ (s : State) (n : Fin 32), s.mailboxUp = true ∧ (s.ring n).irqOn s.now = true ∧ n.val < 8 ∧ s.domOn 5 = true) ∧
    (∃ (s : State) (n : Fin 32), s.mailboxUp = true ∧ (s.ring n).irqOn s.now = true ∧ 8 ≤ n.val) ∧
    (∃ (s : State) (n : Fin 32), (s.ring n).irqOn s.now = false) :=
  ⟨⟨tRecords tStop 7, 7, by decide +kernel⟩,
   ⟨tRecords tStop 24, 24, by decide +kernel⟩,
   ⟨tStop, 8, by decide +kernel⟩⟩

/-- States and operands that meet the hypotheses of `Obligations.ContainersAndConfigurationLoad`, clause by clause; which image verifies rests on the uninterpreted signature check (log entry 5), so the image is a premise. -/
theorem meets_containers_and_configuration_load (x : Bytes) (hl : x.length = 30224) (hx : verified State.reset.saf.items x = some tNew) :
    (∃ (s : State) (h : Quad) (e : JEntry) (b : SentBuf) (x : Bytes) (c : Container), s.begins h 0x2020 false e ∧ s.input e.ring (sub e.args 0 16) b.buf = some x ∧ verified s.saf.items x = some c ∧ s.loadRefusal { c.rebase (byteAt e.args 17).toNat with part := c.part } (byteAt e.args 16) (byteAt e.args 17) (s.prog.besides c.kind (byteAt e.args 17)) = none ∧ (c.kind = 1 → s.dpx.role ≠ 1 ∨ s.dpx.standby = 0 ∨ s.dpx.standby = 2) ∧ (s.inSync = true → b.standbyOk = true) ∧ s.prog.slot c.kind (if c.kind = 1 then 0 else byteAt e.args 17) = none ∧ s.inSync = true) ∧
    (∃ (s : State) (h : Quad) (e : JEntry) (b : SentBuf) (x : Bytes) (c : Container), s.begins h 0x2020 true e ∧ s.input e.ring (sub e.args 0 16) b.buf = some x ∧ verified s.saf.items x = some c ∧ s.loadRefusal { c.rebase 0 with part := c.part } 0 0 (s.prog.besides c.kind 0) = none ∧ s.prog.slot 0 0 = none ∧ (s.inSync = true → b.standbyOk = true)) ∧
    (∃ (s : State) (h : Quad) (e : JEntry) (b : SentBuf), s.begins h 0x2020 false e ∧ s.input e.ring (sub e.args 0 16) b.buf = none) ∧
    (∃ (s : State) (h : Quad) (e : JEntry) (b : SentBuf) (x : Bytes), s.begins h 0x2020 false e ∧ s.input e.ring (sub e.args 0 16) b.buf = some x ∧ verified s.saf.items x = none) ∧
    (∃ (s : State) (h : Quad) (e : JEntry) (b : SentBuf) (x : Bytes) (c : Container) (d : Nat), s.begins h 0x2020 false e ∧ s.input e.ring (sub e.args 0 16) b.buf = some x ∧ verified s.saf.items x = some c ∧ s.loadRefusal { c.rebase (byteAt e.args 17).toNat with part := c.part } (byteAt e.args 16) (byteAt e.args 17) (s.prog.besides c.kind (byteAt e.args 17)) = some d) ∧
    (∃ (s : State) (h : Quad) (e : JEntry) (b : SentBuf) (x : Bytes) (c : Container), s.begins h 0x2020 false e ∧ s.input e.ring (sub e.args 0 16) b.buf = some x ∧ verified s.saf.items x = some c ∧ s.loadRefusal { c.rebase (byteAt e.args 17).toNat with part := c.part } (byteAt e.args 16) (byteAt e.args 17) (s.prog.besides c.kind (byteAt e.args 17)) = none ∧ s.inSync = true ∧ b.standbyOk = false) ∧
    (∃ (s : State) (h : Quad) (e : JEntry) (b : SentBuf) (x : Bytes) (p : Parsed), s.begins h 0x2026 false e ∧ s.input e.ring (sub e.args 0 16) b.buf = some x ∧ parseConfig x = some p ∧ s.configRefusal p = none ∧ (s.inSync = true → b.standbyOk = true) ∧ s.inSync = true) ∧
    (∃ (s : State) (h : Quad) (e : JEntry) (b : SentBuf) (x : Bytes) (p : Parsed) (d : Nat), s.begins h 0x2026 false e ∧ s.input e.ring (sub e.args 0 16) b.buf = some x ∧ parseConfig x = some p ∧ s.configRefusal p = some d) :=
  ⟨⟨tCmd ((tSync tStop)) 0x2020 tDesc 0 false, 7, tEntry 0x2020 tDesc 0 false, ⟨.bytes x, true⟩, x, tNew, ⟨by unfold State.begins; decide +kernel, tInput _ _ x (by decide +kernel) hl, hx, by decide +kernel, by decide +kernel, fun _ => rfl, by decide +kernel⟩⟩,
   ⟨tCmd (tStop) 0x2020 tDesc 0 true, 7, tEntry 0x2020 tDesc 0 true, ⟨.bytes x, true⟩, x, tNew, ⟨by unfold State.begins; decide +kernel, tInput _ _ x (by decide +kernel) hl, hx, by decide +kernel, by decide +kernel, fun _ => rfl⟩⟩,
   ⟨tCmd (tStop) 0x2020 [] 0 false, 7, tEntry 0x2020 [] 0 false, ⟨.unreachable, true⟩, by unfold State.begins; decide +kernel⟩,
   ⟨tCmd (tStop) 0x2020 [] 0 false, 7, tEntry 0x2020 [] 0 false, ⟨.bytes [], true⟩, [], by unfold State.begins; decide +kernel⟩,
   ⟨tCmd (tLoaded tStop { tCont with part := 1 }) 0x2020 (tDesc ++ [1]) 0 false, 7, tEntry 0x2020 (tDesc ++ [1]) 0 false, ⟨.bytes x, true⟩, x, tNew, 0x1C, ⟨by unfold State.begins; decide +kernel, tInput _ _ x (by decide +kernel) hl, hx, by decide +kernel⟩⟩,
   ⟨tCmd ((tSync tStop)) 0x2020 tDesc 0 false, 7, tEntry 0x2020 tDesc 0 false, ⟨.bytes x, false⟩, x, tNew, ⟨by unfold State.begins; decide +kernel, tInput _ _ x (by decide +kernel) hl, hx, by decide +kernel, by decide +kernel, rfl⟩⟩,
   (let ⟨p, h, g⟩ := some_of (parseConfig tConfig) (fun p => State.configRefusal (tSync tStop) p == none)
      (by unfold parseConfig; rw [tConfig_header]; show (parseSections tConfig 128).any _ = true; decide +kernel)
    ⟨tCmd (tSync tStop) 0x2026 [0, 0, 0, 0, 0, 0, 0, 0, 128] 0 false, 7, tEntry 0x2026 [0, 0, 0, 0, 0, 0, 0, 0, 128] 0 false, ⟨.bytes tConfig, true⟩, tConfig, p, 
      by unfold State.begins; decide +kernel, by decide +kernel, h, eq_of_beq g, fun _ => rfl, by decide⟩),
   (let ⟨p, h, g⟩ := some_of (parseConfig tConfig) (fun p => State.configRefusal ({ tStop with dpx := { tStop.dpx with role := 1, standby := 1 } }) p == some 0xC8)
      (by unfold parseConfig; rw [tConfig_header]; show (parseSections tConfig 128).any _ = true; decide +kernel)
    ⟨tCmd ({ tStop with dpx := { tStop.dpx with role := 1, standby := 1 } }) 0x2026 [0, 0, 0, 0, 0, 0, 0, 0, 128] 0 false, 7, tEntry 0x2026 [0, 0, 0, 0, 0, 0, 0, 0, 128] 0 false, ⟨.bytes tConfig, true⟩, tConfig, p, 0xC8,
      by unfold State.begins; decide +kernel, by decide +kernel, h, eq_of_beq g⟩)⟩

/-- States and operands that meet the hypotheses of `Obligations.OnlineChangeRunsItsPhases`, clause by clause; which image verifies rests on the uninterpreted signature check (log entry 5), so the images are premises. -/
theorem meets_online_change_runs_its_phases (x : Bytes) (hl : x.length = 30224) (hx : verified State.reset.saf.items x = some tNew) (y : Bytes) (ml : y.length = 30224)
    (my : verified State.reset.saf.items y = some { tNew with kind := 1 }) :
    (∃ (s : State) (h : Quad) (e : JEntry) (b : SentBuf) (x : Bytes) (c old : Container) (p : Byte), s.begins h 0x2021 false e ∧ s.input e.ring (sub e.args 0 16) b.buf = some x ∧ verified s.saf.items x = some c ∧ c.kind ≠ 1 ∧ s.targetPart c = some p ∧ s.prog.slot 0 p = some old ∧ s.changeRefused { c.rebase p.toNat with part := p, fresh := false } old p = none ∧ (forceFate s.prog.forces { c.rebase p.toNat with part := p, fresh := false } old).dropped = [] ∧ (s.inSync = true → b.standbyOk = true)) ∧
    (∃ (s : State) (h : Quad) (e : JEntry) (b : SentBuf) (x : Bytes) (c old : Container) (p : Byte) (d : Nat), s.begins h 0x2021 false e ∧ s.input e.ring (sub e.args 0 16) b.buf = some x ∧ verified s.saf.items x = some c ∧ c.kind ≠ 1 ∧ s.targetPart c = some p ∧ s.prog.slot 0 p = some old ∧ s.changeRefused { c.rebase p.toNat with part := p, fresh := false } old p = some d) ∧
    (∃ (s : State) (h : Quad) (e : JEntry) (b : SentBuf) (x : Bytes) (c : Container), s.begins h 0x2021 false e ∧ s.input e.ring (sub e.args 0 16) b.buf = some x ∧ verified s.saf.items x = some c ∧ c.kind = 1) ∧
    (∃ (s : State) (h : Quad) (e : JEntry) (b : SentBuf) (x : Bytes) (c : Container), s.begins h 0x2021 false e ∧ s.input e.ring (sub e.args 0 16) b.buf = some x ∧ verified s.saf.items x = some c ∧ c.kind ≠ 1 ∧ s.targetPart c = none) ∧
    (∃ (s : State) (o : Olc) (k : Nat), s.pwr.on = true ∧ s.prog.olc = some o ∧ o.phase = 2 ∧ k ≤ 4096) ∧
    (∃ (s : State) (o : Olc) (k : Nat), s.pwr.on = true ∧ s.prog.olc = some o ∧ o.phase = 2 ∧ 4096 < k ∧ (s.prog.passes + 1).toNat < 8) ∧
    (∃ (s : State) (o : Olc) (e : JEntry) (k : Nat), s.pwr.on = true ∧ s.prog.olc = some o ∧ o.phase = 2 ∧ 4096 < k ∧ 8 ≤ (s.prog.passes + 1).toNat ∧ s.entry o.h = some e ∧ e.committed = false) ∧
    (∃ (s : State) (o : Olc), s.pwr.on = true ∧ s.prog.olc = some o ∧ o.phase = 3 ∧ (s.sys.mode ≠ .run ∨ s.partTasks o.part = [] ∨ (o.drained = true ∧ ∀ n ∈ s.partTasks o.part, (s.task n).running = false))) ∧
    (∃ (s : State) (o : Olc) (e : JEntry) (old c : Container) (l : List (Word × Nat)), s.pwr.on = true ∧ s.prog.olc = some o ∧ o.phase = 4 ∧ s.entry o.h = some e ∧ e.committed = false ∧ s.commitMode e = true ∧ s.prog.slot 0 o.part = some old ∧ carry o.next old (fun _ => true) = some (c, l) ∧ c.kind ≠ 1 ∧ c.part = o.part ∧ (forceFate s.prog.forces c old).dropped = [] ∧ s.prog.forceJob = none ∧ s.sys.stopJob = none) :=
  ⟨⟨tCmd (tLoaded tStop tCont) 0x2021 tDesc 0 false, 7, tEntry 0x2021 tDesc 0 false, ⟨.bytes x, true⟩, x, tNew, tCont, 0, (by and_intros <;> first | (unfold State.begins; decide +kernel) | exact tInput _ _ x (by decide +kernel) hl | exact hx | exact fun _ => rfl | decide +kernel)⟩,
   ⟨tCmd (tLoaded tStop { tCont with digest := 1 }) 0x2021 tDesc 0 false, 7, tEntry 0x2021 tDesc 0 false, ⟨.bytes x, true⟩, x, tNew, { tCont with digest := 1 }, 0, 0x43, ⟨by unfold State.begins; decide +kernel, tInput _ _ x (by decide +kernel) hl, hx, by decide +kernel⟩⟩,
   ⟨tCmd (tStop) 0x2021 tDesc 0 false, 7, tEntry 0x2021 tDesc 0 false, ⟨.bytes y, true⟩, y, { tNew with kind := 1 }, ⟨by unfold State.begins; decide +kernel, tInput _ _ y (by decide +kernel) ml, my, by decide +kernel⟩⟩,
   ⟨tCmd (tStop) 0x2021 tDesc 0 false, 7, tEntry 0x2021 tDesc 0 false, ⟨.bytes x, true⟩, x, tNew, ⟨by unfold State.begins; decide +kernel, tInput _ _ x (by decide +kernel) hl, hx, by decide +kernel⟩⟩,
   ⟨{ tCmd (tLoaded (tIn .run) tCont) 0x2021 [] 0 false with prog := { (tLoaded tStop tCont).prog with olc := some ⟨7, 2, false, 0, 0, tNew, [], false, [], 0⟩ } }, ⟨7, 2, false, 0, 0, tNew, [], false, [], 0⟩, 4096, by decide +kernel⟩,
   ⟨{ tCmd (tLoaded (tIn .run) tCont) 0x2021 [] 0 false with prog := { (tLoaded tStop tCont).prog with olc := some ⟨7, 2, false, 0, 0, tNew, [], false, [], 0⟩ } }, ⟨7, 2, false, 0, 0, tNew, [], false, [], 0⟩, 4097, by decide +kernel⟩,
   ⟨{ tCmd (tLoaded (tIn .run) tCont) 0x2021 [] 0 false with prog := { (tLoaded tStop tCont).prog with olc := some ⟨7, 2, false, 0, 0, tNew, [], false, [], 0⟩, passes := 7 } }, ⟨7, 2, false, 0, 0, tNew, [], false, [], 0⟩, tEntry 0x2021 [] 0 false, 4097, by decide +kernel⟩,
   ⟨{ tCmd (tLoaded (tIn .stop) tCont) 0x2021 [] 0 false with prog := { (tLoaded tStop tCont).prog with olc := some ⟨7, 3, false, 0, 0, tNew, [], false, [], 0⟩ } }, ⟨7, 3, false, 0, 0, tNew, [], false, [], 0⟩, by decide +kernel⟩,
   ⟨{ tCmd (tLoaded (tIn .stop) tCont) 0x2021 [] 0 false with prog := { (tLoaded tStop tCont).prog with olc := some ⟨7, 4, false, 0, 0, tNew, [], false, [], 0⟩ } }, ⟨7, 4, false, 0, 0, tNew, [], false, [], 0⟩, tEntry 0x2021 [] 0 false, tCont, tNew, [], by decide +kernel⟩⟩

/-- States and operands that meet the hypotheses of `Obligations.ForcesStandUntilCleared`, clause by clause. -/
theorem meets_forces_stand_until_cleared :
    (∃ (s : State) (h : Quad) (v : Bool) (e : JEntry) (c : Container) (d : VarDecl), s.begins h 0x2022 v e ∧ s.prog.varOf (BitVec.ofNat 32 (leAt e.args 0 4)) = some (c, d) ∧ leAt e.args 4 4 < d.count ∧ s.forceRefusal c d (BitVec.ofNat 32 (leAt e.args 4 4)) (byteAt e.args 8).toNat = none) ∧
    (∃ (s : State) (h : Quad) (v : Bool) (e : JEntry), s.begins h 0x2022 v e ∧ (∀ c d, s.prog.varOf (BitVec.ofNat 32 (leAt e.args 0 4)) = some (c, d) → d.count ≤ leAt e.args 4 4)) ∧
    (∃ (s : State) (h : Quad) (v : Bool) (e : JEntry) (c : Container) (d : VarDecl) (x : Nat), s.begins h 0x2022 v e ∧ s.prog.varOf (BitVec.ofNat 32 (leAt e.args 0 4)) = some (c, d) ∧ leAt e.args 4 4 < d.count ∧ s.forceRefusal c d (BitVec.ofNat 32 (leAt e.args 4 4)) (byteAt e.args 8).toNat = some x) ∧
    (∃ (s : State) (h : Quad) (v : Bool) (e : JEntry), s.begins h 0x2023 v e ∧ (leAt e.args 0 4 = 0xFFFFFFFF ∨ (∃ c d, s.prog.varOf (BitVec.ofNat 32 (leAt e.args 0 4)) = some (c, d) ∧ (leAt e.args 4 4 = 0xFFFFFFFF ∨ leAt e.args 4 4 < d.count)))) ∧
    (∃ (s : State) (h : Quad) (v : Bool) (e : JEntry), s.begins h 0x2023 v e ∧ leAt e.args 0 4 ≠ 0xFFFFFFFF ∧ (∀ c d, s.prog.varOf (BitVec.ofNat 32 (leAt e.args 0 4)) = some (c, d) → leAt e.args 4 4 ≠ 0xFFFFFFFF ∧ d.count ≤ leAt e.args 4 4)) ∧
    (∃ (s : State) (h : Quad) (e : JEntry) (outOk : Bool), s.begins h 0x2024 false e ∧ s.outReach e.ring (sub e.args 0 16) outOk = true ∧ (8 ≤ e.ring ∧ e.ring < 12)) ∧
    (∃ (s : State) (h : Quad) (e : JEntry) (outOk : Bool), s.begins h 0x2024 false e ∧ s.outReach e.ring (sub e.args 0 16) outOk = true ∧ (e.ring < 8 ∨ 12 ≤ e.ring)) ∧
    (∃ (s : State) (h : Quad) (e : JEntry) (outOk : Bool), s.begins h 0x2024 false e ∧ s.outReach e.ring (sub e.args 0 16) outOk = false) ∧
    (∃ (s : State) (h : Quad) (e : JEntry) (c : Container), s.begins h 0x2025 false e ∧ (s.prog.loaded.find? fun c => c.id.toNat == leAt e.args 0 4) = some c) ∧
    (∃ (s : State) (h : Quad) (e : JEntry), s.begins h 0x2025 false e ∧ (s.prog.loaded.find? fun c => c.id.toNat == leAt e.args 0 4) = none) ∧
    (∃ (s : State) (h : Quad) (e : JEntry) (j : CommitJob) (i : Word) (c : Container), s.pwr.on = true ∧ s.prog.writing = some j ∧ j.tasks = [] ∧ s.prog.persistWait = some (h, i) ∧ s.entry h = some e ∧ e.committed = false ∧ s.commitMode e = true ∧ (s.prog.loaded.find? fun c => c.id == i) = some c) :=
  ⟨⟨tCmd (tVars tStop) 0x2022 [5, 0, 0, 0, 1, 0, 0, 0, 1] 0 false, 7, false, tEntry 0x2022 [5, 0, 0, 0, 1, 0, 0, 0, 1] 0 false, { tCont with vars := [tVar] }, tVar, by unfold State.begins; decide +kernel⟩,
   ⟨tCmd (tStop) 0x2022 [] 0 true, 7, true, tEntry 0x2022 [] 0 true, ⟨by unfold State.begins; decide +kernel, fun c d h => absurd (h.symm.trans (show _ = none by decide +kernel)) (by simp)⟩⟩,
   ⟨tCmd (tVars tStop) 0x2022 [5, 0, 0, 0, 1, 0, 0, 0, 2] 0 false, 7, false, tEntry 0x2022 [5, 0, 0, 0, 1, 0, 0, 0, 2] 0 false, { tCont with vars := [tVar] }, tVar, 0x24, by unfold State.begins; decide +kernel⟩,
   ⟨tCmd (tStop) 0x2023 [0xFF, 0xFF, 0xFF, 0xFF] 0 false, 7, false, tEntry 0x2023 [0xFF, 0xFF, 0xFF, 0xFF] 0 false, ⟨by unfold State.begins; decide +kernel, .inl (by decide +kernel)⟩⟩,
   ⟨tCmd (tStop) 0x2023 [] 0 false, 7, false, tEntry 0x2023 [] 0 false, ⟨by unfold State.begins; decide +kernel, by decide +kernel, fun c d h => absurd (h.symm.trans (show _ = none by decide +kernel)) (by simp)⟩⟩,
   ⟨tCmd (tStop) 0x2024 [] 8 false, 7, tEntry 0x2024 [] 8 false, true, by unfold State.begins; decide +kernel⟩,
   ⟨tCmd (tStop) 0x2024 [] 0 false, 7, tEntry 0x2024 [] 0 false, true, by unfold State.begins; decide +kernel⟩,
   ⟨tCmd (tStop) 0x2024 [] 0 false, 7, tEntry 0x2024 [] 0 false, false, by unfold State.begins; decide +kernel⟩,
   ⟨tCmd (tVars tStop) 0x2025 [1] 0 false, 7, tEntry 0x2025 [1] 0 false, { tCont with vars := [tVar] }, by unfold State.begins; decide +kernel⟩,
   ⟨tCmd (tStop) 0x2025 [1] 0 false, 7, tEntry 0x2025 [1] 0 false, by unfold State.begins; decide +kernel⟩,
   ⟨{ tCmd (tVars tStop) 0x2025 [1] 0 false with prog := { (tVars tStop).prog with writing := some ⟨[], ⟨1, [], [], [], true, []⟩⟩, persistWait := some (7, 1) } }, 7, tEntry 0x2025 [1] 0 false, ⟨[], ⟨1, [], [], [], true, []⟩⟩, 1, { tCont with vars := [tVar] }, by decide +kernel⟩⟩

/-- States and operands that meet the hypotheses of `Obligations.SafetyParametersChangeWithThePassword`, clause by clause. -/
theorem meets_safety_parameters_change_with_the_password :
    (∃ (s : State) (h : Quad) (e : JEntry) (b : SentBuf) (x : Bytes), s.begins h 0x2030 false e ∧ s.input e.ring (sub e.args 0 16) b.buf = some x ∧ s.saf.lockout = none ∧ s.saf.passOk (byteAt x 33).toNat (sub x 48 32) = true ∧ s.changeRefusal x = none ∧ (s.inSync = true → b.standbyOk = true) ∧ s.inSync = true) ∧
    (∃ (s : State) (h : Quad) (e : JEntry) (b : SentBuf) (x : Bytes), s.begins h 0x2030 false e ∧ s.input e.ring (sub e.args 0 16) b.buf = some x ∧ s.saf.lockout = none ∧ s.saf.passOk (byteAt x 33).toNat (sub x 48 32) = true ∧ s.changeRefusal x = none ∧ (s.inSync = true → b.standbyOk = true) ∧ (¬ (s.sys.mode = .run ∧ (s.task 0).present = true))) ∧
    (∃ (s : State) (h : Quad) (e : JEntry) (b : SentBuf) (x : Bytes), s.begins h 0x2030 false e ∧ s.input e.ring (sub e.args 0 16) b.buf = some x ∧ s.saf.lockout = none ∧ s.saf.passOk (byteAt x 33).toNat (sub x 48 32) = true ∧ s.changeRefusal x = none ∧ (s.inSync = true → b.standbyOk = true) ∧ (s.sys.mode = .run ∧ (s.task 0).present = true)) ∧
    (∃ (s : State) (h : Quad) (e : JEntry) (b : SentBuf) (x : Bytes), s.begins h 0x2030 false e ∧ s.input e.ring (sub e.args 0 16) b.buf = some x ∧ s.saf.lockout = none ∧ s.saf.passOk (byteAt x 33).toNat (sub x 48 32) = true ∧ s.changeRefusal x = none ∧ s.inSync = true ∧ b.standbyOk = false) ∧
    (∃ (s : State) (h : Quad) (e : JEntry) (b : SentBuf) (x : Bytes), s.begins h 0x2030 false e ∧ s.input e.ring (sub e.args 0 16) b.buf = some x ∧ (s.saf.lockout.isSome = true ∨ s.saf.passOk (byteAt x 33).toNat (sub x 48 32) = false)) ∧
    (∃ (s : State) (h : Quad) (e : JEntry) (b : SentBuf) (x : Bytes) (st : BitVec 16) (d : Nat), s.begins h 0x2030 false e ∧ s.input e.ring (sub e.args 0 16) b.buf = some x ∧ s.saf.lockout = none ∧ s.saf.passOk (byteAt x 33).toNat (sub x 48 32) = true ∧ s.changeRefusal x = some (st, d)) ∧
    (∃ (s : State) (t0 : Nat), s.pwr.on = true ∧ s.saf.lockout = some t0 ∧ t0 + 900000 ≤ s.opMs) :=
  ⟨⟨tCmd (tPass (tSync (tIn .run))) 0x2030 tDesc96 0 false, 7, tEntry 0x2030 tDesc96 0 false, ⟨.bytes tChange, true⟩, tChange, ⟨by unfold State.begins; decide +kernel, rfl, by decide +kernel, beq_self_eq_true _, tChange_ok _ rfl (by decide +kernel) rfl rfl rfl (by decide +kernel), fun _ => rfl, by decide +kernel⟩⟩,
   ⟨tCmd (tPass (tService 3)) 0x2030 tDesc96 0 false, 7, tEntry 0x2030 tDesc96 0 false, ⟨.bytes tChange, true⟩, tChange, ⟨by unfold State.begins; decide +kernel, rfl, by decide +kernel, beq_self_eq_true _, tChange_ok _ rfl (by decide +kernel) rfl rfl rfl (by decide +kernel), fun _ => rfl, by decide +kernel⟩⟩,
   ⟨tCmd (tTask (tPass (tIn .run)) 0 id) 0x2030 tDesc96 0 false, 7, tEntry 0x2030 tDesc96 0 false, ⟨.bytes tChange, true⟩, tChange, ⟨by unfold State.begins; decide +kernel, rfl, by decide +kernel, beq_self_eq_true _, tChange_ok _ rfl (by decide +kernel) rfl rfl rfl (by decide +kernel), fun _ => rfl, by decide +kernel⟩⟩,
   ⟨tCmd (tPass (tSync (tIn .run))) 0x2030 tDesc96 0 false, 7, tEntry 0x2030 tDesc96 0 false, ⟨.bytes tChange, false⟩, tChange, ⟨by unfold State.begins; decide +kernel, rfl, by decide +kernel, beq_self_eq_true _, tChange_ok _ rfl (by decide +kernel) rfl rfl rfl (by decide +kernel), by decide +kernel, rfl⟩⟩,
   ⟨tCmd (tService 3) 0x2030 tDesc96 0 false, 7, tEntry 0x2030 tDesc96 0 false, ⟨.bytes (List.replicate 33 0 ++ [1]), true⟩, padTo 96 (List.replicate 33 0 ++ [1]), by unfold State.begins; decide +kernel⟩,
   ⟨tCmd (tService 1) 0x2030 tDesc96 0 false, 7, tEntry 0x2030 tDesc96 0 false, ⟨.bytes [], true⟩, padTo 96 [], stWrongMode, 0, by unfold State.begins; decide +kernel⟩,
   ⟨{ tStop with saf := { tStop.saf with lockout := some 0 }, tbu := { tStop.tbu with count := 900000 * countsMs } }, 0, by decide +kernel⟩⟩

/-- States and operands that meet the hypotheses of `Obligations.AcknowledgementClearsOnlyWhatIsGone`, clause by clause. -/
theorem meets_acknowledgement_clears_only_what_is_gone :
    (∃ (s : State) (h : Quad) (e : JEntry), ∃ c, s.begins h 0x2031 false e ∧ (∀ c ∈ s.ackScope (byteAt e.args 0).toNat (byteAt e.args 1).toNat, (s.chan c).ackTest = none ∧ (isSafetyOut (s.chan c).m = true → (s.chan c).latches &&& byteAt e.args 2 &&& testClasses = 0)) ∧ c < 96 ∧ c ∉ s.ackScope (byteAt e.args 0).toNat (byteAt e.args 1).toNat) ∧
    (∃ (s : State) (h : Quad) (e : JEntry), ∃ c, c ∈ s.ackScope (byteAt e.args 0).toNat (byteAt e.args 1).toNat ∧ s.begins h 0x2031 false e ∧ (∀ c ∈ s.ackScope (byteAt e.args 0).toNat (byteAt e.args 1).toNat, (s.chan c).ackTest = none ∧ (isSafetyOut (s.chan c).m = true → (s.chan c).latches &&& byteAt e.args 2 &&& testClasses = 0)) ∧ isSafetyOut (s.chan c).m = true) ∧
    (∃ (s : State) (h : Quad) (e : JEntry) (c : Nat), s.begins h 0x2031 false e ∧ c ∈ s.ackScope (byteAt e.args 0).toNat (byteAt e.args 1).toNat ∧ isSafetyOut (s.chan c).m = true ∧ (s.chan c).latches &&& byteAt e.args 2 &&& testClasses ≠ 0) :=
  ⟨⟨tCmd ({ tStop with fld := { tStop.fld with chans := Tbl.set (fun _ => Channel.reset) [] 2 { Channel.reset with mode := 7, latches := 0x80 } } }) 0x2031 [0, 2, 0x80] 0 false, 7, tEntry 0x2031 [0, 2, 0x80] 0 false, 3, by unfold State.begins; decide +kernel⟩,
   ⟨tCmd ({ tStop with fld := { tStop.fld with chans := Tbl.set (fun _ => Channel.reset) [] 2 { Channel.reset with mode := 7, latches := 0x80 } } }) 0x2031 [0, 2, 0x80] 0 false, 7, tEntry 0x2031 [0, 2, 0x80] 0 false, 2, by unfold State.begins; decide +kernel⟩,
   ⟨tCmd ({ tStop with fld := { tStop.fld with chans := Tbl.set (fun _ => Channel.reset) [] 2 { Channel.reset with mode := 7, latches := 0x04 } } }) 0x2031 [0, 2, 0x04] 0 false, 7, tEntry 0x2031 [0, 2, 0x04] 0 false, 2, by unfold State.begins; decide +kernel⟩⟩

/-- States and operands that meet the hypotheses of `Obligations.UpdatesAreVerified`, clause by clause; which manifest is signed rests on the uninterpreted signature check (log entry 5), so the manifest is a premise. -/
theorem meets_updates_are_verified (x : Bytes) (hl : x.length = 30224) (m : FwSlot) (hm : signedManifest Mfg.reset x = some m)
    (hv : m.secVersion = 0) (hi : m.hwIssues.getLsbD 2 = true) :
    (∃ (s : State) (h : Quad) (e : JEntry) (b : Buf) (x : Bytes) (m : FwSlot), s.begins h 0x2040 false e ∧ s.input e.ring (sub e.args 0 16) b = some x ∧ signedManifest s.mfg x = some m ∧ s.mfg.fused.toNat ≤ m.secVersion.toNat ∧ m.hwIssues.getLsbD 2 = true ∧ s.upd.armed = none) ∧
    (∃ (s : State) (h : Quad) (e : JEntry) (b : Buf) (x : Bytes) (m : FwSlot), s.begins h 0x2040 false e ∧ s.input e.ring (sub e.args 0 16) b = some x ∧ signedManifest s.mfg x = some m ∧ m.secVersion.toNat < s.mfg.fused.toNat) ∧
    (∃ (s : State) (h : Quad) (e : JEntry) (b : Buf) (d : Bytes), s.begins h 0x2041 false e ∧ ((s.upd.slot (!s.upd.activeB)).state = .loading ∨ (s.upd.slot (!s.upd.activeB)).state = .valid) ∧ s.upd.armed = none ∧ leAt e.args 16 4 < (s.upd.slot (!s.upd.activeB)).blocks ∧ s.input e.ring (sub e.args 0 16) b = some d ∧ (crc32c d).toNat = leAt e.args 20 4 ∧ (s.upd.slot (!s.upd.activeB)).digests[leAt e.args 16 4]? = some (Config.sha3 d)) ∧
    (∃ (s : State) (h : Quad) (e : JEntry) (b : Buf) (d : Bytes), s.begins h 0x2041 false e ∧ ((s.upd.slot (!s.upd.activeB)).state = .loading ∨ (s.upd.slot (!s.upd.activeB)).state = .valid) ∧ s.upd.armed = none ∧ leAt e.args 16 4 < (s.upd.slot (!s.upd.activeB)).blocks ∧ s.input e.ring (sub e.args 0 16) b = some d ∧ ((crc32c d).toNat ≠ leAt e.args 20 4 ∨ (s.upd.slot (!s.upd.activeB)).digests[leAt e.args 16 4]? ≠ some (Config.sha3 d))) ∧
    (∃ (s : State) (h : Quad) (e : JEntry), s.begins h 0x2042 false e ∧ s.armRefusal (leAt e.args 0 8 * 1000000000 + leAt e.args 8 4 : Nat) (byteAt e.args 12 == 1) (byteAt e.args 13) = none) ∧
    (∃ (s : State) (h : Quad) (e : JEntry) (st : BitVec 16) (d : Nat), s.begins h 0x2042 false e ∧ s.armRefusal (leAt e.args 0 8 * 1000000000 + leAt e.args 8 4 : Nat) (byteAt e.args 12 == 1) (byteAt e.args 13) = some (st, d)) ∧
    (∃ (s : State) (h : Quad) (e : JEntry) (a : Arming), s.begins h 0x2043 false e ∧ s.upd.armed = some a) ∧
    (∃ (s : State) (h : Quad) (e : JEntry), s.begins h 0x2043 false e ∧ s.upd.armed = none) :=
  ⟨⟨tCmd (tStop) 0x2040 tDesc 0 false, 7, tEntry 0x2040 tDesc 0 false, .bytes x, x, m, ⟨by unfold State.begins; decide +kernel, tInput _ _ x (by decide +kernel) hl, hm, by rw [hv]; decide +kernel, hi, by decide +kernel⟩⟩,
   ⟨tCmd ({ tStop with mfg := { tStop.mfg with fused := 1 } }) 0x2040 tDesc 0 false, 7, tEntry 0x2040 tDesc 0 false, .bytes x, x, m, ⟨by unfold State.begins; decide +kernel, tInput _ _ x (by decide +kernel) hl, hm, by rw [hv]; decide +kernel⟩⟩,
   ⟨tCmd ({ tStop with upd := { tStop.upd with slotB := { FwSlot.reset .loading 0 with blocks := 1, digests := [Config.sha3 []], missing := [0] } } }) 0x2041 [] 0 false, 7, tEntry 0x2041 [] 0 false, .bytes [], [], ⟨by unfold State.begins; decide +kernel, .inl rfl, rfl, by decide +kernel, by decide +kernel, by decide +kernel, rfl⟩⟩,
   ⟨tCmd ({ tStop with upd := { tStop.upd with slotB := { FwSlot.reset .loading 0 with blocks := 1, digests := [Config.sha3 []], missing := [0] } } }) 0x2041 (List.replicate 20 0 ++ [1]) 0 false, 7, tEntry 0x2041 (List.replicate 20 0 ++ [1]) 0 false, .bytes [], [], ⟨by unfold State.begins; decide +kernel, .inl rfl, rfl, by decide +kernel, by decide +kernel, .inl (by decide +kernel)⟩⟩,
   ⟨tCmd ({ tStop with upd := { tStop.upd with slotB := FwSlot.reset .valid 0 }, tbu := { tStop.tbu with plantSet := true } }) 0x2042 [2, 0, 0, 0, 0, 0, 0, 0, 0, 0, 0, 0, 1] 0 false, 7, tEntry 0x2042 [2, 0, 0, 0, 0, 0, 0, 0, 0, 0, 0, 0, 1] 0 false, by unfold State.begins; decide +kernel⟩,
   ⟨tCmd (tStop) 0x2042 [] 0 false, 7, tEntry 0x2042 [] 0 false, stRefused, 0xA4, by unfold State.begins; decide +kernel⟩,
   ⟨tCmd ({ tStop with upd := { tStop.upd with armed := some ⟨5, 0, true, 0, 0, false⟩ } }) 0x2043 [] 0 false, 7, tEntry 0x2043 [] 0 false, ⟨5, 0, true, 0, 0, false⟩, by unfold State.begins; decide +kernel⟩,
   ⟨tCmd (tStop) 0x2043 [] 0 false, 7, tEntry 0x2043 [] 0 false, by unfold State.begins; decide +kernel⟩⟩

/-- States and operands that meet the hypotheses of `Obligations.ArmedActivationsTakePlaceOrAreCancelled`, clause by clause. -/
theorem meets_armed_activations_take_place_or_are_cancelled :
    (∃ (s : State) (a : Arming) (g : GroupCfg) (m : BitVec 256), s.pwr.on = true ∧ s.upd.armed = some a ∧ a.group ≠ 0 ∧ a.checked = false ∧ a.time ≤ s.armedScale a + 1000000000 ∧ s.groupCfg a.group = some g ∧ (s.net g.netOf).isIntegrated = true ∧ a.time ≤ s.slotZero a g + 1000000000 ∧ m &&& g.members = g.members) ∧
    (∃ (s : State) (a : Arming) (m : Option (BitVec 256)), s.pwr.on = true ∧ s.upd.armed = some a ∧ a.group ≠ 0 ∧ a.checked = false ∧ a.time ≤ s.armedScale a + 1000000000 ∧ (s.groupCfg a.group = none ∨ ∃ g, s.groupCfg a.group = some g ∧ ((s.net g.netOf).isIntegrated = false ∨ (m = none ∧ a.time + 4 * (s.net g.netOf).cycleNs ≤ s.armedScale a + 1000000000) ∨ (∃ x, m = some x ∧ a.time ≤ s.slotZero a g + 1000000000 ∧ x &&& g.members ≠ g.members)))) ∧
    (∃ (s : State) (a : Arming) (m : Option (BitVec 256)), s.pwr.on = true ∧ s.upd.armed = some a ∧ a.group ≠ 0 ∧ a.checked = false ∧ (s.armedScale a + 1000000000 < a.time ∨ ∃ g x, s.groupCfg a.group = some g ∧ (s.net g.netOf).isIntegrated = true ∧ m = some x ∧ s.slotZero a g + 1000000000 < a.time)) ∧
    (∃ (s : State) (a : Arming), s.upd.armed = some a ∧ s.activates = true ∧ s.atBoundary a = true) ∧
    (∃ (s : State), (∀ a, s.upd.armed = some a → s.activates = false ∨ s.atBoundary a = false)) ∧
    (∃ (s : State), s.pwr.on = true ∧ s.upd.pending = true ∧ 24 * 3600000 ≤ s.fuseMark.upd.fuseMs) :=
  ⟨⟨{ { tStop with upd := { tStop.upd with armed := some ⟨1, 0, true, 1, 0, false⟩ } } with cfg := { tStop.cfg with cur := { ConfigSet.reset with groups := [⟨1, 0, 1⟩] } }, hl1 := { tStop.hl1 with state := .integrated } }, ⟨1, 0, true, 1, 0, false⟩, ⟨1, 0, 1⟩, 1, by decide +kernel⟩,
   ⟨{ { tStop with upd := { tStop.upd with armed := some ⟨1, 0, true, 1, 0, false⟩ } } with cfg := { tStop.cfg with cur := { ConfigSet.reset with groups := [⟨1, 0, 1⟩] } }, hl1 := { tStop.hl1 with state := .integrated } }, ⟨1, 0, true, 1, 0, false⟩, some 0, (by and_intros <;> first | exact .inr ⟨⟨1, 0, 1⟩, by decide +kernel, .inr (.inr ⟨0, rfl, by decide +kernel, by decide +kernel⟩)⟩ | decide +kernel)⟩,
   ⟨{ tStop with upd := { tStop.upd with armed := some ⟨5, 0, true, 1, 0, false⟩ } }, ⟨5, 0, true, 1, 0, false⟩, none, ⟨by decide +kernel, by decide +kernel, by decide +kernel, by decide +kernel, .inl (by decide +kernel)⟩⟩,
   ⟨{ tStop with upd := { tStop.upd with armed := some ⟨0, 0, true, 0, 0, false⟩ } }, ⟨0, 0, true, 0, 0, false⟩, by decide +kernel⟩,
   ⟨tStop, fun a h => absurd (h.symm.trans (show _ = none by decide +kernel)) (by simp)⟩,
   ⟨{ tIn .run with upd := { tStop.upd with pending := true, fuseSince := some 0 }, tbu := { tStop.tbu with count := 86400000 * countsMs } }, by decide +kernel⟩⟩

/-- States and operands that meet the hypotheses of `Obligations.IdentityDebugAndRecovery`, clause by clause; which manifest and token are signed rests on the uninterpreted signature check (log entry 5), so these are premises. -/
theorem meets_identity_debug_and_recovery (x : Bytes) (m : FwSlot) (hm : signedManifest Mfg.reset x = some m)
    (hv : m.secVersion = 0) (hi : m.hwIssues.getLsbD 2 = true) (y : Bytes) (yl : y.length = 30224) (hy : ({ tService 4 with tbu := { tStop.tbu with plantSet := true } } : State).tokenOk y = true) :
    (∃ (s : State) (h : Quad) (e : JEntry), s.begins h 0x2050 false e ∧ 59840 ≤ descLen (sub e.args 0 16) ∧ s.outReach e.ring (sub e.args 0 16) true = true) ∧
    (∃ (s : State) (h : Quad) (e : JEntry), s.begins h 0x2050 false e ∧ descLen (sub e.args 0 16) < 59840) ∧
    (∃ (s : State) (h : Quad) (e : JEntry), s.begins h 0x2051 false e ∧ s.outReach e.ring (sub e.args 32 16) true = true) ∧
    (∃ (s : State) (h : Quad) (e : JEntry) (b : Buf) (x : Bytes), s.begins h 0x2052 false e ∧ s.sys.substate = 4 ∧ s.input e.ring (sub e.args 0 16) b = some x ∧ s.tbu.plantSet = true ∧ s.tokenOk x = true) ∧
    (∃ (s : State) (h : Quad) (e : JEntry) (b : Buf) (x : Bytes), s.begins h 0x2052 false e ∧ s.sys.substate = 4 ∧ s.input e.ring (sub e.args 0 16) b = some x ∧ s.tbu.plantSet = true ∧ s.tokenOk x = false) ∧
    (∃ (s : State) (h : Quad) (e : JEntry), s.begins h 0x2052 false e ∧ s.sys.substate ≠ 4) ∧
    (∃ (s : State), s.pwr.on = true ∧ s.upd.scope ≠ 0 ∧ (s.upd.expiry.toNat : Int) * 1000000000 ≤ s.plantNow) ∧
    (∃ (s : State) (mf : Bytes) (m : FwSlot), s.pwr.on = true ∧ signedManifest s.mfg mf = some m ∧ s.mfg.fused.toNat ≤ m.secVersion.toNat ∧ m.hwIssues.getLsbD 2 = true ∧ s.upd.armed = none ∧ (s.upd.slot (!s.upd.activeB)).state = .valid ∧ (s.upd.slot (!s.upd.activeB)).digest = m.digest ∧ (s.upd.slot (!s.upd.activeB)).bootable s.mfg true = true) ∧
    (∃ (s : State) (mf : Bytes), signedManifest s.mfg mf = none) :=
  ⟨⟨tCmd (tStop) 0x2050 [0, 0, 0, 0, 0, 0, 0, 0, 0xC0, 0xE9] 0 false, 7, tEntry 0x2050 [0, 0, 0, 0, 0, 0, 0, 0, 0xC0, 0xE9] 0 false, by unfold State.begins; decide +kernel⟩,
   ⟨tCmd (tStop) 0x2050 [] 0 false, 7, tEntry 0x2050 [] 0 false, by unfold State.begins; decide +kernel⟩,
   ⟨tCmd (tStop) 0x2051 [] 0 false, 7, tEntry 0x2051 [] 0 false, by unfold State.begins; decide +kernel⟩,
   ⟨tCmd ({ tService 4 with tbu := { tStop.tbu with plantSet := true } }) 0x2052 tDesc 0 false, 7, tEntry 0x2052 tDesc 0 false, .bytes y, y, ⟨by unfold State.begins; decide +kernel, rfl, tInput _ _ y (by decide +kernel) yl, rfl, hy⟩⟩,
   ⟨tCmd ({ tService 4 with tbu := { tStop.tbu with plantSet := true } }) 0x2052 [] 0 false, 7, tEntry 0x2052 [] 0 false, .bytes [], [], by unfold State.begins; decide +kernel⟩,
   ⟨tCmd (tService 1) 0x2052 [] 0 false, 7, tEntry 0x2052 [] 0 false, by unfold State.begins; decide +kernel⟩,
   ⟨{ tStop with upd := { tStop.upd with scope := 1 } }, by decide +kernel⟩,
   ⟨{ tStop with upd := { tStop.upd with slotB := { FwSlot.reset .valid 0 with digest := m.digest } } }, x, m, ⟨rfl, hm, by rw [hv]; exact Nat.le_refl _, hi, rfl, rfl, rfl, by simp [Upd.slot, FwSlot.bootable, FwSlot.bootable.keyAliveDelivered, tStop, State.reset, Upd.reset, FwSlot.reset, Mfg.reset]; decide⟩⟩,
   ⟨tStop, [], by decide +kernel⟩⟩

/-- States and operands that meet the hypotheses of `Obligations.SelfTestsRunWithinLimits`, clause by clause. -/
theorem meets_self_tests_run_within_limits :
    (∃ (s : State) (h : Quad) (e : JEntry), s.begins h 0x2060 false e ∧ s.sys.substate = 2 ∧ (s.dpx.role ≠ 1 ∨ s.dpx.standby = 0) ∧ s.pwr.bistCause = 0) ∧
    (∃ (s : State) (h : Quad) (e : JEntry), s.begins h 0x2060 false e ∧ s.sys.substate = 2 ∧ (s.dpx.role ≠ 1 ∨ s.dpx.standby = 0) ∧ s.pwr.bistCause ≠ 0) ∧
    (∃ (s : State) (h : Quad) (e : JEntry), s.begins h 0x2060 false e ∧ s.sys.substate = 2 ∧ s.dpx.role = 1 ∧ s.dpx.standby ≠ 0) ∧
    (∃ (s : State) (h : Quad) (e : JEntry), s.begins h 0x2060 false e ∧ s.sys.substate ≠ 2) ∧
    (∃ (s : State) (j : Quad × BistOutcome) (mv : BitVec 12) (temp : BitVec 16), s.pwr.on = true ∧ s.bst.job = some j ∧ 776 ≤ mv.toNat ∧ mv.toNat ≤ 824 ∧ -640 ≤ temp.toInt ∧ temp.toInt ≤ 2000) ∧
    (∃ (s : State) (h : Quad) (o : BistOutcome) (mv : BitVec 12), ∃ r, ∃ w, s.pwr.on = true ∧ s.bst.job = some (h, o) ∧ (mv.toNat < 776 ∨ 824 < mv.toNat) ∧ s.mem.saved = some (r, w)) ∧
    (∃ (s : State), s.pwr.on = true ∧ 720 ≤ s.bistHours ∧ (s.bst.due = false ∨ s.bst.dueAt + 24 * 3600000 ≤ s.opMs)) :=
  ⟨⟨tCmd ({ tService 2 with pwr := { tStop.pwr with coreMv := 776, pllLocked := true } }) 0x2060 [] 0 false, 7, tEntry 0x2060 [] 0 false, by unfold State.begins; decide +kernel⟩,
   ⟨tCmd (tService 2) 0x2060 [] 0 false, 7, tEntry 0x2060 [] 0 false, by unfold State.begins; decide +kernel⟩,
   ⟨tCmd (tSync (tService 2)) 0x2060 [] 0 false, 7, tEntry 0x2060 [] 0 false, by unfold State.begins; decide +kernel⟩,
   ⟨tCmd (tService 1) 0x2060 [] 0 false, 7, tEntry 0x2060 [] 0 false, by unfold State.begins; decide +kernel⟩,
   ⟨{ tService 2 with bst := { tStop.bst with job := some (7, tGood) } }, (7, tGood), 776, 2000, by decide +kernel⟩,
   ⟨{ tService 2 with bst := { tStop.bst with job := some (7, tGood) }, mem := { tStop.mem with saved := some ([], []) } }, 7, tGood, 775, [], [], by decide +kernel⟩,
   ⟨{ tStop with tbu := { tStop.tbu with count := 720 * msHour * countsMs } }, by decide +kernel⟩⟩

/-- States and operands that meet the hypotheses of `Obligations.PlantTimeIsFedSteppedOrRefused`, clause by clause. -/
theorem meets_plant_time_is_fed_stepped_or_refused :
    (∃ (s : State), s.stileUp = true ∧ s.tbu.plantSet = false) ∧
    (∃ (s : State) (e : Int), s.stileUp = true ∧ s.tbu.plantSet = true ∧ e.natAbs ≤ s.param 0x0130 0) ∧
    (∃ (s : State) (e : Int), s.stileUp = true ∧ s.tbu.plantSet = true ∧ s.param 0x0130 0 < e.natAbs ∧ s.tbu.refusedNow = false) ∧
    (∃ (s : State) (h : Quad) (e : JEntry) (j : Int), s.begins h 0x2070 false e ∧ s.tbu.jump = some j) ∧
    (∃ (s : State) (h : Quad) (e : JEntry), s.begins h 0x2070 false e ∧ s.tbu.jump = none) ∧
    (∃ (s : State), s.stileUp = true ∧ s.param 0x0131 0 = 1) :=
  ⟨⟨tStop, by decide +kernel⟩,
   ⟨{ tStop with tbu := { tStop.tbu with plantSet := true } }, 0, by decide +kernel⟩,
   ⟨{ tStop with tbu := { tStop.tbu with plantSet := true } }, 1000000000000, by decide +kernel⟩,
   ⟨tCmd ({ tStop with tbu := { tStop.tbu with plantSet := true, jump := some (5) } }) 0x2070 [] 0 false, 7, tEntry 0x2070 [] 0 false, 5, by unfold State.begins; decide +kernel⟩,
   ⟨tCmd (tStop) 0x2070 [] 0 false, 7, tEntry 0x2070 [] 0 false, by unfold State.begins; decide +kernel⟩,
   ⟨{ tStop with cfg := { tStop.cfg with cur := { ConfigSet.reset with params := [(0x0131 * 65536, some 1)] } } }, by decide +kernel⟩⟩

/-- States and operands that meet the hypotheses of `Obligations.TheRecorderAccountsForEveryEvent`, clause by clause. -/
theorem meets_the_recorder_accounts_for_every_event :
    (∃ (s : State) (src : Byte) (code : BitVec 16), s.pwr.on = true ∧ limitedCode code = false ∧ safetyEntry src code = false) ∧
    (∃ (s : State) (c : BitVec 16) (b : Bucket), s.pwr.on = true ∧ (s.hyk.buckets.find? (·.code == c)) = some b ∧ b.gainedAt + 64 ≤ s.opMs ∧ b.drops = 0) ∧
    (∃ (s : State) (c : BitVec 16) (b : Bucket), (s.hyk.buckets.find? (·.code == c)) = some b ∧ s.opMs < b.gainedAt + 64) ∧
    (∃ (s : State) (c : BitVec 16) (b : Bucket), s.pwr.on = true ∧ (s.hyk.buckets.find? (·.code == c)) = some b ∧ b.gainedAt + 64 ≤ s.opMs ∧ b.drops ≠ 0) ∧
    (∃ (s : State), s.pwr.on = true ∧ s.hyk.opSaved + 1000 ≤ s.opMs) ∧
    (∃ (s : State) (a : Byte) (x : Quad), s.domOn 3 = true ∧ s.windowAdmits a x = false) :=
  ⟨⟨tStop, srcSup, 0x9003, by decide +kernel⟩,
   ⟨tAt { tStop with hyk := { tStop.hyk with buckets := [⟨0x3004, 0, 0, 0, 0, 0⟩] } } (64 * countsMs), 0x3004, ⟨0x3004, 0, 0, 0, 0, 0⟩, by decide +kernel⟩,
   ⟨tAt { tStop with hyk := { tStop.hyk with buckets := [⟨0x3004, 0, 1, 0, 0, 0⟩] } } (63 * countsMs), 0x3004, ⟨0x3004, 0, 1, 0, 0, 0⟩, by decide +kernel⟩,
   ⟨tAt { tStop with hyk := { tStop.hyk with buckets := [⟨0x3004, 0, 1, 0, 0, 0⟩] } } (64 * countsMs), 0x3004, ⟨0x3004, 0, 1, 0, 0, 0⟩, by decide +kernel⟩,
   ⟨tAt tStop (1000 * countsMs), by decide +kernel⟩,
   ⟨tStop, 0, 0, by decide +kernel⟩⟩

/-- States and operands that meet the hypotheses of `Obligations.RuntimeCallsAnswerTheirCaller`, clause by clause. -/
theorem meets_runtime_calls_answer_their_caller :
    (∃ (s : State) (k : Fin 17), s.calling ⟨k, false⟩ = true ∧ k ≠ 0) ∧
    (∃ (s : State), s.calling ⟨0, false⟩ = true) ∧
    (∃ (s : State) (c : Caller) (q : Quad), s.calling c = true ∧ q.toNat ≤ 1) ∧
    (∃ (s : State) (c : Caller) (q : Quad), s.calling c = true ∧ 1 < q.toNat) ∧
    (∃ (s : State) (k : Fin 17) (v e : Word) (c : Container) (d : VarDecl), s.calling ⟨k, false⟩ = true ∧ k ≠ 0 ∧ s.prog.ownerOf v = some c ∧ c.var v = some d ∧ e.toNat < d.count) ∧
    (∃ (s : State) (k : Fin 17) (v : Word), s.calling ⟨k, false⟩ = true ∧ k ≠ 0 ∧ s.prog.ownerOf v = none) ∧
    (∃ (s : State) (c : Caller) (i : Instr), s.calling c = false ∧ (i = .cycleInfo c ∨ (∃ q, i = .timeGet c q) ∨ i = .tbuRead c ∨ i = .commitInfo c ∨ (∃ v e, i = .forceInfo c v e) ∨ i = .changeInfo c)) :=
  ⟨⟨tTask (tIn .run) 1 fun k => { k with running := true }, 1, by decide +kernel⟩,
   ⟨tTask (tIn .run) 0 fun k => { k with running := true }, by decide +kernel⟩,
   ⟨tTask (tIn .run) 1 fun k => { k with running := true }, ⟨1, false⟩, 1, by decide +kernel⟩,
   ⟨tTask (tIn .run) 1 fun k => { k with running := true }, ⟨1, false⟩, 2, by decide +kernel⟩,
   ⟨tTask (tVars (tIn .run)) 1 fun k => { k with running := true }, 1, 5, 1, { tCont with vars := [tVar] }, tVar, by decide +kernel⟩,
   ⟨tTask (tIn .run) 1 fun k => { k with running := true }, 1, 5, by decide +kernel⟩,
   ⟨tIn .run, ⟨1, false⟩, .tbuRead ⟨1, false⟩, ⟨by decide +kernel, .inr (.inr (.inl rfl))⟩⟩⟩

/-- States and operands that meet the hypotheses of `Obligations.ProgramCommandsWaitForThePublishPoint`, clause by clause. -/
theorem meets_program_commands_wait_for_the_publish_point :
    (∃ (s : State) (k : Fin 17) (r : Quad), ∃ n, s.calling ⟨k, false⟩ = true ∧ k ≠ 0 ∧ 12 ≤ r.toNat ∧ r.toNat < 20 ∧ s.hasSlot r.toNat = true ∧ n ≠ r.toNat) ∧
    (∃ (s : State) (k : Fin 17) (r : Quad), ∃ n, s.calling ⟨k, false⟩ = true ∧ k ≠ 0 ∧ 12 ≤ r.toNat ∧ r.toNat < 20 ∧ s.hasSlot r.toNat = true ∧ n ≠ k.val) ∧
    (∃ (s : State) (k : Fin 17) (r : Quad), s.calling ⟨k, false⟩ = true ∧ k ≠ 0 ∧ 12 ≤ r.toNat ∧ r.toNat < 20 ∧ s.hasSlot r.toNat = false) ∧
    (∃ (s : State) (k : Fin 17) (r : Quad), s.calling ⟨k, false⟩ = true ∧ k ≠ 0 ∧ (r.toNat < 12 ∨ 20 ≤ r.toNat)) ∧
    (∃ (s : State) (k : Fin 17) (r : Quad), s.calling ⟨k, false⟩ = true ∧ k ≠ 0 ∧ 12 ≤ r.toNat ∧ r.toNat < 20 ∧ 1 ≤ (s.readEnd k r.toNat - s.readAt k r.toNat).toNat ∧ (s.readEnd k r.toNat - s.readAt k r.toNat).toNat ≤ (s.ring r.toNat).depth) ∧
    (∃ (s : State) (k : Fin 17) (r : Quad), s.calling ⟨k, false⟩ = true ∧ groupRing k r.toNat = true ∧ s.readEnd k r.toNat = s.readAt k r.toNat) ∧
    (∃ (s : State) (k : Fin 17), s.calling ⟨k, false⟩ = true ∧ (s.task k).dispLost = false) ∧
    (∃ (s : State) (k : Fin 17) (code : BitVec 16), s.calling ⟨k, false⟩ = true ∧ k ≠ 0 ∧ code.toNat / 4096 = 8) ∧
    (∃ (s : State) (c : Caller) (code : BitVec 16), s.calling c = true ∧ code.toNat / 4096 ≠ 8) ∧
    (∃ (s : State) (k : Fin 17), s.calling ⟨k, false⟩ = true ∧ k ≠ 0) ∧
    (∃ (s : State) (c : Caller) (q : Quad), s.calling c = true ∧ c.ini = false ∧ 1 < q.toNat) ∧
    (∃ (s : State) (k : Fin 17) (a : Byte) (x : Quad), ∃ n, s.domOn 2 = true ∧ 1 ≤ k.val ∧ (s.task k).running = true ∧ s.mapAllows k a x = false ∧ n ≠ k.val) :=
  ⟨⟨tTask (tIn .run) 1 fun k => { k with running := true }, 1, 12, 13, by decide +kernel⟩,
   ⟨tTask (tIn .run) 1 fun k => { k with running := true }, 1, 19, 2, by decide +kernel⟩,
   ⟨{ tTask (tIn .run) 1 fun k => { k with running := true } with rings := Tbl.set Ring.reset [] 12 { Ring.reset 12 with cmdProd := 256 } }, 1, 12, by decide +kernel⟩,
   ⟨tTask (tIn .run) 1 fun k => { k with running := true }, 1, 20, by decide +kernel⟩,
   ⟨{ tTask (tIn .run) 1 fun k => { k with running := true, seenProd := [(12, 256)] } with rings := [] }, 1, 12, by decide +kernel⟩,
   ⟨tTask (tIn .run) 1 fun k => { k with running := true }, 1, 12, by decide +kernel⟩,
   ⟨tTask (tIn .run) 1 fun k => { k with running := true }, 1, by decide +kernel⟩,
   ⟨tTask (tIn .run) 1 fun k => { k with running := true }, 1, 0x8FFF, by decide +kernel⟩,
   ⟨tTask (tIn .run) 1 fun k => { k with running := true }, ⟨1, false⟩, 0x9000, by decide +kernel⟩,
   ⟨tTask (tIn .run) 1 fun k => { k with running := true }, 1, by decide +kernel⟩,
   ⟨tTask (tIn .run) 1 fun k => { k with running := true }, ⟨1, false⟩, 2, by decide +kernel⟩,
   ⟨tTask (tIn .run) 1 fun k => { k with running := true }, 1, 0, 0x300000000, 2, by decide +kernel⟩⟩

/-- A state and operands that meet the hypotheses of `Obligations.SameCountSameVersion`. -/
theorem meets_same_count_same_version :
    (∃ (s : State) (a b : Fin 17), a ≠ b ∧ s.latching a ∧ s.latching b) :=
  ⟨tTask (tTask (tIn .run) 1 fun k => { k with due := some 0 }) 2 fun k => { k with due := some 0 }, 1, 2, ⟨by decide, ⟨by decide +kernel, by decide +kernel, by decide +kernel, by decide +kernel⟩, ⟨by decide +kernel, by decide +kernel, by decide +kernel, by decide +kernel⟩⟩⟩

/-- States and operands that meet the hypotheses of `Obligations.CyclesLatchPublishAndCommit`, clause by clause. -/
theorem meets_cycles_latch_publish_and_commit :
    (∃ (s : State), s.pwr.on = true ∧ s.sys.mode ≠ .halt ∧ s.tickEnds = true) ∧
    (∃ (s : State), s.tickEnds = false) ∧
    (∃ (s : State) (k : Fin 17), s.latching k) ∧
    (∃ (s : State), s.sys.mode = .run ∧ s.pwr.on = true ∧ s.dpx.decidedAt = none ∧ s.sys.runWait = none ∧ (s.task 0).present = true ∧ (s.task 0).stopped = false ∧ (s.task 0).held = false ∧ (s.task 0).running = true ∧ (s.task 0).due = some s.now) ∧
    (∃ (s : State) (k : Fin 17), k ≠ 0 ∧ s.sys.mode = .run ∧ s.pwr.on = true ∧ s.dpx.decidedAt = none ∧ s.sys.runWait = none ∧ s.cpr.recovery = 0 ∧ (s.task k).present = true ∧ (s.task k).stopped = false ∧ (s.task k).held = false ∧ (s.task k).running = true ∧ (s.task k).reexec = false ∧ (s.task k).haltPolicy = false ∧ (s.task k).due = some s.now) ∧
    (∃ (s : State) (k : Fin 17) (b : Body), ∃ x, ∃ i, ∃ o, k ≠ 0 ∧ s.sys.mode = .run ∧ s.pwr.on = true ∧ (s.task k).present = true ∧ (s.task k).running = true ∧ (s.task k).held = false ∧ (s.task k).state ≠ 3 ∧ (s.task k).firstAfterChange = false ∧ (s.task k).haltAfter = none ∧ s.cpr.recovery = 0 ∧ s.prog.forces = [] ∧ b.writes = [] ∧ (x, i) ∈ s.outSegs ∧ o < x.size) ∧
    (∃ (s : State) (j : CommitJob) (l : List CommitJob), s.pwr.on = true ∧ s.prog.writing = none ∧ s.prog.due = j :: l) ∧
    (∃ (s : State) (j : CommitJob), s.pwr.on = true ∧ s.prog.writing = some j ∧ (j.tasks ≠ [] ∨ s.prog.persistWait = none)) ∧
    (∃ (s : State) (j : InitJob), s.pwr.on = true ∧ s.sys.mode ≠ .start ∧ s.sys.mode ≠ .halt ∧ s.sys.initRun = some j ∧ j.since + 5000 * countsMs ≤ s.now) ∧
    (∃ (s : State) (j : InitJob), s.sys.mode ≠ .start ∧ s.sys.initRun = some j ∧ s.now < j.since + 5000 * countsMs) :=
  ⟨⟨tStop, by decide +kernel⟩,
   ⟨{ tStop with sys := { tStop.sys with tickAt := 1 } }, by decide +kernel⟩,
   ⟨tTask (tIn .run) 1 fun k => { k with due := some 0 }, 1, (⟨by decide +kernel, by decide +kernel, by decide +kernel, by decide +kernel⟩)⟩,
   ⟨tTask (tIn .run) 0 fun k => { k with running := true, due := some 0 }, by decide +kernel⟩,
   ⟨tTask (tIn .run) 1 fun k => { k with running := true, due := some 0 }, 1, by decide +kernel⟩,
   ⟨{ tTask (tIn .run) 1 fun k => { k with running := true } with cfg := { tStop.cfg with cur := { ConfigSet.reset with segments := [⟨true, 0, 2, 0, 3, 4, 0, 0, 0⟩] } } }, 1, ⟨[], [], [], 0⟩, ⟨true, 0, 2, 0, 3, 4, 0, 0, 0⟩, 0, 3, by decide +kernel⟩,
   ⟨{ tIn .run with prog := { tStop.prog with due := [⟨[1], Commit.blank⟩] } }, ⟨[1], Commit.blank⟩, [], by decide +kernel⟩,
   ⟨{ tIn .run with prog := { tStop.prog with writing := some ⟨[1], Commit.blank⟩ } }, ⟨[1], Commit.blank⟩, by decide +kernel⟩,
   ⟨tAt { tIn .run with sys := { (tIn .run).sys with initRun := some ⟨7, tBody, 0, 0⟩ } } (5000 * countsMs), ⟨7, tBody, 0, 0⟩, by decide +kernel⟩,
   ⟨{ tIn .run with sys := { (tIn .run).sys with initRun := some ⟨7, tBody, 0, 0⟩ } }, ⟨7, tBody, 0, 0⟩, by decide +kernel⟩⟩

/-- States and operands that meet the hypotheses of `Obligations.FieldInputsJudgeEachFrame`, clause by clause. -/
theorem meets_field_inputs_judge_each_frame :
    (∃ (s : State), s.fieldUp = true ∧ s.tickDue = true) ∧
    (∃ (s : State) (ch : Fin 96) (x : Terminals), (s.cell ch).powered = true ∧ 96 ≤ x.supply.toNat ∧ 128 ≤ x.supply.toNat) ∧
    (∃ (s : State) (ch : Fin 96) (x : Terminals), ∃ n, (s.cell ch).powered = true ∧ 96 ≤ x.supply.toNat ∧ n ≠ ch.val) ∧
    (∃ (s : State) (ch : Fin 96), (s.cell ch).powered = false) ∧
    (∃ (s : State) (ch : Fin 96) (x : Terminals), (s.cell ch).powered = true ∧ x.supply.toNat < 96) ∧
    (∃ (c : Cell) (l : List Bool), ∃ y, y ∈ l.drop (l.length - filterTicks c.filter) ∧ c.run = 0) ∧
    (∃ (ch : Fin 96) (f : Bytes), cmdValid ch f = false) ∧
    (∃ (s : State) (ch : Fin 96) (f : Bytes), ∃ n, cmdValid ch f = true ∧ (s.cell ch).powered = true ∧ n ≠ ch.val) ∧
    (∃ (s : State) (ch : Fin 96) (f : Bytes), cmdValid ch f = true ∧ (s.cell ch).powered = true ∧ (byteAt f 2).toNat / 16 ≠ 0 ∧ (byteAt f 2).toNat % 8 = 0 ∧ bitAt f 3 0 = false ∧ (s.cell ch).configured = true ∧ isSafetyOut (s.cell ch).mode.toNat = true ∧ (s.cell ch).ownLatch = 0 ∧ (s.cell ch).test = .idle) ∧
    (∃ (s : State) (ch : Fin 96) (f : Bytes), ∃ n, s.domOn 7 = true ∧ (s.chan ch).judged = false ∧ s.uplinkValid ch f = true ∧ n ≠ ch.val) ∧
    (∃ (s : State) (ch : Fin 96) (f : Bytes), ∃ n, s.domOn 7 = true ∧ (s.chan ch).judged = false ∧ s.uplinkValid ch f = false ∧ n ≠ ch.val) ∧
    (∃ (s : State) (ch : Fin 96), (s.chan ch).judged = true) ∧
    (∃ (s : State) (c : Fin 96), s.domOn 7 = true ∧ s.fld.deadline = false ∧ s.fld.lastTick + 40 * countsUs ≤ s.now ∧ (s.chan c).judged = true) ∧
    (∃ (s : State) (c : Fin 96), s.domOn 7 = true ∧ s.fld.deadline = false ∧ s.fld.lastTick + 40 * countsUs ≤ s.now ∧ (s.chan c).judged = false) ∧
    (∃ (s : State) (ch : Fin 96), s.domOn 7 = true ∧ 8 ≤ (s.chan ch).badRun ∧ isOutputMode (s.chan ch).m = true) ∧
    (∃ (s : State) (ch : Fin 96), s.domOn 7 = true ∧ (s.chan ch).badRun < 8) ∧
    (∃ (s : State) (ch : Fin 96), ∃ n, s.domOn 7 = true ∧ 16 ≤ (s.chan ch).goodRun ∧ n ≠ ch.val) ∧
    (∃ (s : State) (ch : Fin 96), s.domOn 7 = true ∧ 16 ≤ (s.chan ch).goodRun ∧ ((s.chan ch).m = 0 ∨ (s.chan ch).m = 1 ∨ (s.chan ch).m = 5 ∨ (s.chan ch).m = 6)) ∧
    (∃ (s : State) (ch : Fin 96), s.domOn 7 = true ∧ 16 ≤ (s.chan ch).goodRun ∧ ((s.chan ch).m = 2 ∨ (s.chan ch).m = 3 ∨ (s.chan ch).m = 4 ∨ (s.chan ch).m = 7 ∨ (s.chan ch).m = 8)) ∧
    (∃ (s : State) (ch : Fin 96), ∃ n, (s.cell ch).powered = false ∧ (∀ v, (s.cell ch).seenSupply = some v → 112 ≤ v.toNat) ∧ n ≠ ch.val) ∧
    (∃ (s : State) (ch : Fin 96), ∃ n, (s.cell ch).powered = true ∧ (s.cell ch).mode = 5 ∧ n ≠ ch.val) ∧
    (∃ (s : State) (ch : Fin 96) (short : Bool), (s.cell ch).powered = true ∧ (s.cell ch).mode = 5 ∧ short = false) ∧
    (∃ (s : State) (ch : Fin 96) (short : Bool), (s.cell ch).powered = true ∧ (s.cell ch).mode = 5 ∧ short = true) ∧
    (∃ (s : State) (p : Fin 48), ∃ n, s.domOn 7 = true ∧ s.isPair p = true ∧ s.pairEvaluated p = true ∧ ((s.dual p).state = .rising ∨ (s.dual p).state = .falling) ∧ (s.dual p).d + 1 ≤ (s.dual p).timer.toNat ∧ n ≠ p.val) ∧
    (∃ (s : State) (ch : Fin 96), (s.cell ch).powered = true ∧ (s.cell ch).configured = true ∧ 2 ≤ (s.cell ch).mode.toNat ∧ (s.cell ch).mode.toNat ≤ 4 ∧ (s.cell ch).stageTicks ≠ 0 ∧ (s.cell ch).stageTicks % 256 = 0) ∧
    (∃ (s : State) (ch : Fin 96), ∃ n, s.domOn 7 = true ∧ 2 ≤ (s.chan ch).m ∧ (s.chan ch).m ≤ 4 ∧ 257 ≤ (s.chan ch).failTicks ∧ n ≠ ch.val) :=
  ⟨⟨tStop, by decide +kernel⟩,
   ⟨tCell (tStop) (tMode 1), 3, { tTerm 0 0 with supply := 128 }, by decide +kernel⟩,
   ⟨tCell (tStop) (tMode 1), 3, { tTerm 0 0 with supply := 96 }, 4, by decide +kernel⟩,
   ⟨tStop, 3, by decide +kernel⟩,
   ⟨tCell (tStop) (tMode 1), 3, { tTerm 0 0 with supply := 95 }, by decide +kernel⟩,
   ⟨Cell.reset, List.replicate 48 true, true, by decide +kernel⟩,
   ⟨3, [], by decide +kernel⟩,
   ⟨tCell (tStop) (tMode 1), 3, cmdFrame 3 0 false .idle false false 0, 4, by decide +kernel⟩,
   ⟨tCell (tStop) (tMode 7), 3, cmdFrame 3 1 true .idle false false 0, by decide +kernel⟩,
   ⟨tStop, 3, (uplinkOf 3 0 0 0 0), 4, by decide +kernel⟩,
   ⟨tStop, 3, [], 4, by decide +kernel⟩,
   ⟨tChan (tStop) { Channel.reset with judged := true }, 3, by decide +kernel⟩,
   ⟨tAt (tChan (tStop) { Channel.reset with judged := true }) (40 * countsUs), 3, by decide +kernel⟩,
   ⟨tAt (tStop) (40 * countsUs), 3, by decide +kernel⟩,
   ⟨tChan (tStop) { Channel.reset with badRun := 8, mode := 6 }, 3, by decide +kernel⟩,
   ⟨tChan (tStop) { Channel.reset with badRun := 7 }, 3, by decide +kernel⟩,
   ⟨tChan (tStop) { Channel.reset with goodRun := 16 }, 3, 4, by decide +kernel⟩,
   ⟨tChan (tStop) { Channel.reset with goodRun := 16, mode := 6 }, 3, by decide +kernel⟩,
   ⟨tChan (tStop) { Channel.reset with goodRun := 16, mode := 8 }, 3, by decide +kernel⟩,
   ⟨tStop, 3, 4, ⟨by decide +kernel, fun v h => absurd (h.symm.trans (show _ = none by decide +kernel)) (by simp), by decide +kernel⟩⟩,
   ⟨tCell (tStop) (tMode 5), 3, 4, by decide +kernel⟩,
   ⟨tCell (tStop) (tMode 5), 3, false, by decide +kernel⟩,
   ⟨tCell (tStop) (tMode 5), 3, true, by decide +kernel⟩,
   ⟨{ tStop with fld := { (tChan tStop { Channel.reset with mode := 3, validNow := true }).fld with chans := Tbl.set (fun _ => Channel.reset) (tChan tStop { Channel.reset with mode := 3, validNow := true }).fld.chans 2 { Channel.reset with mode := 3, validNow := true }, pairs := Tbl.set (fun _ => DualPair.reset) [] 1 { DualPair.reset with state := .rising, timer := 801 } } }, 1, 2, by decide +kernel⟩,
   ⟨tCell (tStop) { tMode 4 with stageTicks := 256 }, 3, by decide +kernel⟩,
   ⟨tChan (tStop) { Channel.reset with mode := 2, failTicks := 257 }, 3, 4, by decide +kernel⟩⟩

/-- States and operands that meet the hypotheses of `Obligations.FieldOutputsTestAndTrip`, clause by clause. -/
theorem meets_field_outputs_test_and_trip :
    (∃ (s : State) (ch : Fin 96) (d : Nat), s.fieldUp = true ∧ isSafetyOut (s.chan ch).m = true ∧ (s.chan ch).test = .idle ∧ (s.chan ch).latches = 0 ∧ (s.group (groupOf ch)).uvLatch = false ∧ ((s.chan ch).m = 8 → s.sys.mode ≠ .follow) ∧ (s.chan ch).due = some d ∧ d ≤ s.now) ∧
    (∃ (s : State) (ch : Fin 96), ((s.chan ch).latches ≠ 0 ∨ (s.group (groupOf ch)).uvLatch = true)) ∧
    (∃ (s : State) (ch : Fin 96) (x : Terminals) (p m : Bool) (e : BitVec 3), (s.cell ch).powered = true ∧ (s.cell ch).test ≠ .idle ∧ (s.cell ch).testAt + (s.cell ch).testUnits * 25 * countsUs ≤ s.now ∧ p = level false x.lowCurrent x.p (freeBit s.free) ∧ m = level false x.lowCurrentM x.m (freeBit (s.free + 1)) ∧ e = phaseResult (s.cell ch).test p m x ∧ (e = 2 ∨ e = 3 ∨ e = 4)) ∧
    (∃ (s : State) (ch : Fin 96) (x : Terminals) (p m : Bool) (e : BitVec 3), (s.cell ch).powered = true ∧ (s.cell ch).test ≠ .idle ∧ (s.cell ch).testAt + (s.cell ch).testUnits * 25 * countsUs ≤ s.now ∧ p = level false x.lowCurrent x.p (freeBit s.free) ∧ m = level false x.lowCurrentM x.m (freeBit (s.free + 1)) ∧ e = phaseResult (s.cell ch).test p m x ∧ (e = 1 ∨ e = 5)) ∧
    (∃ (s : State) (ch : Fin 96) (x : Terminals) (p m : Bool) (e : BitVec 3), (s.cell ch).powered = true ∧ (s.cell ch).test ≠ .idle ∧ (s.cell ch).testAt + (s.cell ch).testUnits * 25 * countsUs ≤ s.now ∧ p = level false x.lowCurrent x.p (freeBit s.free) ∧ m = level false x.lowCurrentM x.m (freeBit (s.free + 1)) ∧ e = phaseResult (s.cell ch).test p m x ∧ p = true ∧ ((s.cell ch).test = .offL ∨ (s.cell ch).test = .darkH)) ∧
    (∃ (s : State) (ch : Fin 96) (x : Terminals) (p m : Bool) (e : BitVec 3), ∃ n, (s.cell ch).powered = true ∧ (s.cell ch).test ≠ .idle ∧ (s.cell ch).testAt + (s.cell ch).testUnits * 25 * countsUs ≤ s.now ∧ p = level false x.lowCurrent x.p (freeBit s.free) ∧ m = level false x.lowCurrentM x.m (freeBit (s.free + 1)) ∧ e = phaseResult (s.cell ch).test p m x ∧ n ≠ ch.val) ∧
    (∃ (s : State) (ch : Fin 96), ∃ n, (s.cell ch).powered = true ∧ 4 ≤ (s.cell ch).limitRun ∧ n ≠ ch.val) ∧
    (∃ (s : State) (ch : Fin 96), (s.cell ch).powered = true ∧ 4 ≤ (s.cell ch).limitRun ∧ isSafetyOut (s.cell ch).mode.toNat = true ∧ (s.cell ch).ownLatch = 0) ∧
    (∃ (s : State) (ch : Fin 96), (s.cell ch).powered = true ∧ 4 ≤ (s.cell ch).limitRun ∧ (s.cell ch).mode = 6) ∧
    (∃ (s : State) (ch : Fin 96) (r : Nat), ∃ n, (s.cell ch).powered = true ∧ (s.cell ch).mode = 6 ∧ (s.cell ch).reclose = some r ∧ r + 1000 * countsMs ≤ s.now ∧ n ≠ ch.val) ∧
    (∃ (s : State) (ch : Fin 96) (r : Nat), (s.cell ch).reclose = some r ∧ s.now < r + 1000 * countsMs) ∧
    (∃ (s : State) (g : Fin 6), s.domOn 7 = true ∧ 16 ≤ (s.group g).lowTicks) ∧
    (∃ (s : State) (ch : Fin 96), ∃ n, (s.cell ch).powered = true ∧ 8 ≤ (s.cell ch).uvRun ∧ n ≠ ch.val) ∧
    (∃ (s : State) (g : Fin 6) (c : Fin 96), s.domOn 7 = true ∧ (s.group g).uvLatch = false ∧ (8 ≤ (s.group g).tripTicks ∨ (s.group g).event6 = true) ∧ groupOf c = g.val ∧ isOutputMode (s.chan c).m = true) ∧
    (∃ (s : State) (g : Fin 6) (c : Fin 96), s.domOn 7 = true ∧ (s.group g).uvLatch = false ∧ (8 ≤ (s.group g).tripTicks ∨ (s.group g).event6 = true) ∧ (groupOf c ≠ g.val ∨ isOutputMode (s.chan c).m = false)) ∧
    (∃ (s : State) (g : Fin 6) (c : Fin 96), s.domOn 7 = true ∧ 800 ≤ (s.group g).okTicks ∧ ((s.group g).supplyLow = true ∨ (s.group g).uvLatch = true) ∧ groupOf c = g.val ∧ (s.chan c).m = 6 ∧ (s.chan c).latches.getLsbD 6 = true) ∧
    (∃ (s : State) (g : Fin 6) (c : Fin 96), s.domOn 7 = true ∧ 800 ≤ (s.group g).okTicks ∧ ((s.group g).supplyLow = true ∨ (s.group g).uvLatch = true) ∧ (isSafetyOut (s.chan c).m = true ∨ (s.chan c).latches.getLsbD 6 = false)) ∧
    (∃ (s : State) (g : Fin 6) (c : Fin 96), s.domOn 7 = true ∧ 800 ≤ (s.group g).okTicks ∧ ((s.group g).supplyLow = true ∨ (s.group g).uvLatch = true) ∧ (groupOf c ≠ g.val ∨ isSafetyOut (s.chan c).m = true)) ∧
    (∃ (s : State) (ch : Fin 96), ∃ n, (s.cell ch).powered = true ∧ (s.cell ch).configured = true ∧ (s.cell ch).lastValid + (s.cell ch).holdMs.toNat * countsMs ≤ s.now ∧ n ≠ ch.val) ∧
    (∃ (s : State) (ch : Fin 96), (s.cell ch).powered = true ∧ (s.cell ch).configured = true ∧ (s.cell ch).lastValid + (s.cell ch).holdMs.toNat * countsMs ≤ s.now ∧ isSafetyOut (s.cell ch).mode.toNat = true ∧ (s.cell ch).ownLatch = 0) ∧
    (∃ (s : State) (ch : Fin 96), (s.cell ch).powered = true ∧ (s.cell ch).configured = true ∧ (s.cell ch).lastValid + (s.cell ch).holdMs.toNat * countsMs ≤ s.now ∧ (s.cell ch).mode = 6) ∧
    (∃ (s : State) (ch : Fin 96) (second : Bool) (n : Nat), ∃ k, s.domOn 7 = true ∧ s.sys.mode = .follow ∧ (s.chan ch).m = 8 ∧ second = ((s.chan ch).annAt != 0 && !(s.chan ch).annSecond && decide (s.now < (s.chan ch).annAt + 24 * countsMs)) ∧ n = (if second then (s.chan ch).missSecond else (s.chan ch).missFirst) ∧ k ≠ ch.val) :=
  ⟨⟨tChan (tStop) { Channel.reset with mode := 7, due := some 0 }, 3, 0, by decide +kernel⟩,
   ⟨tChan (tStop) { Channel.reset with latches := 1 }, 3, by decide +kernel⟩,
   ⟨tCell (tStop) { tMode 7 with test := .offL, out := true }, 3, tTerm 192 0, level false false (tTerm 192 0).p (freeBit 0), level false false (tTerm 192 0).m (freeBit 1), 2, ⟨by decide +kernel, by decide +kernel, by decide +kernel, rfl, rfl, by decide +kernel⟩⟩,
   ⟨tCell (tStop) { tMode 7 with test := .offL, out := true }, 3, tTerm 0 0, level false false (tTerm 0 0).p (freeBit 0), level false false (tTerm 0 0).m (freeBit 1), 1, ⟨by decide +kernel, by decide +kernel, by decide +kernel, rfl, rfl, by decide +kernel⟩⟩,
   ⟨tCell (tStop) { tMode 7 with test := .offL, out := true }, 3, tTerm 192 0, level false false (tTerm 192 0).p (freeBit 0), level false false (tTerm 192 0).m (freeBit 1), 2, ⟨by decide +kernel, by decide +kernel, by decide +kernel, rfl, rfl, by decide +kernel, by decide +kernel, .inl (by decide +kernel)⟩⟩,
   ⟨tCell (tStop) { tMode 7 with test := .offL, out := true }, 3, tTerm 0 0, level false false (tTerm 0 0).p (freeBit 0), level false false (tTerm 0 0).m (freeBit 1), 1, 4, ⟨by decide +kernel, by decide +kernel, by decide +kernel, rfl, rfl, by decide +kernel⟩⟩,
   ⟨tCell (tStop) { tMode 6 with limitRun := 4 }, 3, 4, by decide +kernel⟩,
   ⟨tCell (tStop) { tMode 7 with limitRun := 4 }, 3, by decide +kernel⟩,
   ⟨tCell (tStop) { tMode 6 with limitRun := 4 }, 3, by decide +kernel⟩,
   ⟨tCell ({ tStop with tbu := { tStop.tbu with count := 1000 * countsMs } }) { tMode 6 with reclose := some 0 }, 3, 0, 4, by decide +kernel⟩,
   ⟨tCell (tStop) { tMode 6 with reclose := some 0 }, 3, 0, by decide +kernel⟩,
   ⟨tGroup (tStop) { Group.reset with lowTicks := 16 }, 0, by decide +kernel⟩,
   ⟨tCell (tStop) { tMode 6 with uvRun := 8 }, 3, 4, by decide +kernel⟩,
   ⟨tGroup (tChan (tStop) { Channel.reset with mode := 6 }) { Group.reset with tripTicks := 8 }, 0, 3, by decide +kernel⟩,
   ⟨tGroup (tStop) { Group.reset with event6 := true }, 0, 3, by decide +kernel⟩,
   ⟨tGroup (tChan (tStop) { Channel.reset with mode := 6, latches := 0x40 }) { Group.reset with okTicks := 800, uvLatch := true }, 0, 3, by decide +kernel⟩,
   ⟨tGroup (tStop) { Group.reset with okTicks := 800, supplyLow := true }, 0, 3, by decide +kernel⟩,
   ⟨tGroup (tStop) { Group.reset with okTicks := 800, supplyLow := true }, 0, 95, by decide +kernel⟩,
   ⟨tCell (tStop) { tMode 6 with holdMs := 0 }, 3, 4, by decide +kernel⟩,
   ⟨tCell (tStop) { tMode 7 with holdMs := 0 }, 3, by decide +kernel⟩,
   ⟨tCell (tStop) { tMode 6 with holdMs := 0 }, 3, by decide +kernel⟩,
   ⟨tChan (tIn .follow) { Channel.reset with mode := 8 }, 3, false, 0, 4, by decide +kernel⟩⟩

/-- States and operands that meet the hypotheses of `Obligations.LanesAreVotedTestedAndRepaired`, clause by clause. -/
theorem meets_lanes_are_voted_tested_and_repaired :
    (∃ (s : State), s.voting = true ∧ s.prog.safety.isSome = true ∧ s.tri.allIn = true) ∧
    (∃ (s : State) (c : EgressCopy), c.kind = .publish ∧ s.inBody0 = true) ∧
    (∃ (s : State) (c : EgressCopy), c.kind ≠ .eventLog ∧ s.inBody0 = false) ∧
    (∃ (s : State) (c : EgressCopy) (d : Option EgressCopy), s.voting = true ∧ s.prog.safety.isSome = true ∧ s.tri.allIn = true ∧ d ≠ some c) ∧
    (∃ (s : State) (a b d : EgressCopy), s.voting = true ∧ s.prog.safety.isSome = true ∧ s.pwr.on = true ∧ s.sys.mode ≠ .start ∧ s.sys.mode ≠ .halt ∧ a ≠ b ∧ ((s.tri.allIn = true ∧ a ≠ d ∧ b ≠ d) ∨ s.tri.mask .inVote = 3)) ∧
    (∃ (s : State) (l : Fin 3) (i : Instr) (k : BitVec 4) (n : Fin 3), s.voting = true ∧ ((i = .lateLane l ∧ k = 4) ∨ (i = .laneException l ∧ k = 6) ∨ (i = .tcmEccError l true ∧ k = 5) ∨ (i = .scrubPass (1 <<< l.val) ∧ k = 8 ∧ 256 ≤ s.tri.scrub)) ∧ s.tri.allIn = true ∧ n ≠ l) ∧
    (∃ (s : State) (l : Fin 3) (i : Instr) (k : BitVec 4), s.voting = true ∧ ((i = .lateLane l ∧ k = 4) ∨ (i = .laneException l ∧ k = 6) ∨ (i = .tcmEccError l true ∧ k = 5) ∨ (i = .scrubPass (1 <<< l.val) ∧ k = 8 ∧ 256 ≤ s.tri.scrub)) ∧ s.tri.allIn = false ∧ (s.tri.lane l).state = .inVote ∧ s.pwr.on = true ∧ s.sys.mode ≠ .start ∧ s.sys.mode ≠ .halt) ∧
    (∃ (s : State) (l : Fin 3), s.domOn 1 = true ∧ (s.tri.lane l).state = .selfTest ∧ (s.tri.lane l).since + 8 * countsMs ≤ s.now ∧ (withinHours 24 s.opMs (s.tri.lane l).transients).length < 2) ∧
    (∃ (s : State) (l : Fin 3) (i : Instr), s.domOn 1 = true ∧ (((s.tri.lane l).state = .selfTest ∧ (s.tri.lane l).since + 8 * countsMs ≤ s.now ∧ (i = .partialSelfTestComplete l false ∨ (i = .partialSelfTestComplete l true ∧ 2 ≤ (withinHours 24 s.opMs (s.tri.lane l).transients).length))) ∨ ((s.tri.lane l).state = .resync ∧ (s.tri.lane l).since + 40 * countsMs ≤ s.now ∧ i = .resyncTimeout l))) ∧
    (∃ (s : State) (l : Fin 3), s.domOn 1 = true ∧ (s.tri.lane l).state = .resync ∧ (s.tri.lane l).copied = false ∧ (s.tri.lane l).since + 262144 ≤ s.now) ∧
    (∃ (s : State) (l : Fin 3), s.domOn 1 = true ∧ (s.tri.lane l).state = .resync ∧ s.now < (s.tri.lane l).since + 262144) ∧
    (∃ (s : State) (l : Fin 3), s.domOn 1 = true ∧ (s.tri.lane l).state = .resync ∧ (s.tri.lane l).copied = true ∧ s.inGap = true) ∧
    (∃ (s : State) (l : Fin 3) (a b : Bool), s.domOn 1 = true ∧ (s.tri.lane l).state = .resync ∧ (a = false ∨ b = false ∨ s.inGap = false)) ∧
    (∃ (s : State), s.domOn 1 = true ∧ s.inBody0 = false) ∧
    (∃ (s : State), s.domOn 1 = true ∧ s.inBody0 = true ∧ s.pwr.on = true) ∧
    (∃ (s : State) (k : VoterFaultKind) (i : Instr), s.domOn 1 = true ∧ s.pwr.on = true ∧ s.sys.mode ≠ .start ∧ s.sys.mode ≠ .halt ∧ (i = .voterFault k ∨ (i = .testWindow (some k) false ∧ s.inBody0 = false))) ∧
    (∃ (s : State) (e : Nat), s.pwr.on = true ∧ s.tri.repairEnd = some e ∧ s.tri.repairStage = 0 ∧ s.tri.repairSpan ≤ 2 * (s.tri.repairSpan - (e - s.opMs))) ∧
    (∃ (s : State) (e : Nat), s.pwr.on = true ∧ s.tri.repairEnd = some e ∧ s.tri.repairStage = 1 ∧ 9 * s.tri.repairSpan ≤ 10 * (s.tri.repairSpan - (e - s.opMs))) ∧
    (∃ (s : State) (e : Nat), s.pwr.on = true ∧ s.tri.repairEnd = some e ∧ e ≤ s.opMs ∧ s.sys.mode ≠ .start ∧ s.sys.mode ≠ .halt) ∧
    (∃ (s : State), s.pwr.on = true) ∧
    (∃ (s : State) (k : PairKind) (kib : Nat) (n : Fin 17), s.domOn 2 = true ∧ s.cpr.split = false ∧ s.cpr.excluded ||| s.cpr.permanent = 0 ∧ s.cpr.recovery = 0 ∧ k ≠ .checker ∧ kib ≤ 8192 ∧ n ≠ 0 ∧ (s.task n).present = true) ∧
    (∃ (s : State) (k : PairKind) (kib : Nat), s.domOn 2 = true ∧ s.cpr.split = false ∧ s.cpr.excluded ||| s.cpr.permanent = 0 ∧ s.cpr.recovery = 0 ∧ (k = .checker ∨ 8192 < kib) ∧ s.pwr.on = true ∧ s.sys.mode ≠ .start ∧ s.sys.mode ≠ .halt) ∧
    (∃ (s : State), s.domOn 2 = true ∧ s.cpr.patrolAt + 8 * 3600000 * countsMs ≤ s.now) ∧
    (∃ (s : State), s.domOn 2 = true ∧ s.pairMode ≠ 2 ∧ s.pwr.on = true ∧ s.sys.mode ≠ .start ∧ s.sys.mode ≠ .halt) ∧
    (∃ (s : State), s.domOn 2 = true ∧ s.cpr.recovery = 1 ∧ s.cpr.since + 5 * countsMs ≤ s.now ∧ s.pwr.on = true ∧ s.sys.mode ≠ .start ∧ s.sys.mode ≠ .halt) ∧
    (∃ (s : State), ∃ k, s.domOn 2 = true ∧ s.cpr.recovery = 2 ∧ s.open ≠ [] ∧ (∀ k, k ∈ s.open → (s.task k).held = true) ∧ k ∈ s.open) :=
  ⟨⟨{ tStop with prog := { tStop.prog with safety := some { tCont with kind := 1 } } }, by decide +kernel⟩,
   ⟨tTask (tIn .run) 0 fun k => { k with running := true }, ⟨.publish, 0, 0, [], 0⟩, by decide +kernel⟩,
   ⟨tStop, ⟨.output, 0, 0, [], 0⟩, by decide +kernel⟩,
   ⟨{ tStop with prog := { tStop.prog with safety := some { tCont with kind := 1 } } }, ⟨.publish, 0, 0, [], 0⟩, some ⟨.publish, 0, 0, [], 1⟩, by decide +kernel⟩,
   ⟨{ tStop with prog := { tStop.prog with safety := some { tCont with kind := 1 } } }, ⟨.publish, 0, 0, [], 1⟩, ⟨.publish, 0, 0, [], 2⟩, ⟨.publish, 0, 0, [], 3⟩, by decide +kernel⟩,
   ⟨tStop, 1, .lateLane 1, 4, 2, ⟨by decide +kernel, .inl ⟨rfl, rfl⟩, by decide +kernel⟩⟩,
   ⟨{ tStop with tri := { tStop.tri with lane2 := { Lane.reset with state := .excluded } } }, 1, .lateLane 1, 4, ⟨by decide +kernel, .inl ⟨rfl, rfl⟩, by decide +kernel⟩⟩,
   ⟨{ { tStop with tbu := { tStop.tbu with count := 8 * countsMs } } with tri := { tStop.tri with lane1 := { Lane.reset with state := .selfTest } } }, 1, by decide +kernel⟩,
   ⟨{ { tStop with tbu := { tStop.tbu with count := 8 * countsMs } } with tri := { tStop.tri with lane1 := { Lane.reset with state := .selfTest } } }, 1, .partialSelfTestComplete 1 false, ⟨by decide +kernel, .inl ⟨by decide +kernel, by decide +kernel, .inl rfl⟩⟩⟩,
   ⟨tAt { tStop with tri := { tStop.tri with lane1 := { Lane.reset with state := .resync } } } 262144, 1, by decide +kernel⟩,
   ⟨{ tStop with tri := { tStop.tri with lane1 := { Lane.reset with state := .resync } } }, 1, by decide +kernel⟩,
   ⟨{ tStop with tri := { tStop.tri with lane1 := { Lane.reset with state := .resync, copied := true } } }, 1, by decide +kernel⟩,
   ⟨{ tStop with tri := { tStop.tri with lane1 := { Lane.reset with state := .resync, copied := true } } }, 1, false, true, by decide +kernel⟩,
   ⟨tStop, by decide +kernel⟩,
   ⟨tTask (tIn .run) 0 fun k => { k with running := true }, by decide +kernel⟩,
   ⟨tStop, .rail, .voterFault .rail, ⟨by decide +kernel, by decide +kernel, by decide +kernel, by decide +kernel, .inl rfl⟩⟩,
   ⟨{ { tStop with tbu := { tStop.tbu with count := 50 * countsMs } } with tri := { tStop.tri with repairEnd := some 100, repairSpan := 100 } }, 100, by decide +kernel⟩,
   ⟨{ { tStop with tbu := { tStop.tbu with count := 90 * countsMs } } with tri := { tStop.tri with repairEnd := some 100, repairSpan := 100, repairStage := 1 } }, 100, by decide +kernel⟩,
   ⟨{ { tStop with tbu := { tStop.tbu with count := 100 * countsMs } } with tri := { tStop.tri with repairEnd := some 100 } }, 100, by decide +kernel⟩,
   ⟨tStop, by decide +kernel⟩,
   ⟨tTask tStop 1 id, .request, 8192, 1, by decide +kernel⟩,
   ⟨tStop, .request, 8193, by decide +kernel⟩,
   ⟨tAt tStop (8 * 3600000 * countsMs), by decide +kernel⟩,
   ⟨tStop, by decide +kernel⟩,
   ⟨{ { tStop with tbu := { tStop.tbu with count := 5 * countsMs } } with cpr := { tStop.cpr with recovery := 1 } }, by decide +kernel⟩,
   ⟨{ tTask tStop 1 fun k => { k with running := true, held := true } with cpr := { tStop.cpr with recovery := 2 } }, 1, by decide +kernel⟩⟩

/-- States and operands that meet the hypotheses of `Obligations.SwapDrainsAndChangesRoles`, clause by clause. -/
theorem meets_swap_drains_and_changes_roles :
    (∃ (s : State) (h : Quad) (e : JEntry), s.begins h 0x2017 false e ∧ s.inSync = false) ∧
    (∃ (s : State) (h : Quad) (e : JEntry), s.begins h 0x2017 false e ∧ s.inSync = true ∧ (s.journal.any fun x => x.opcode == 0x2021 && !x.committed) = true) ∧
    (∃ (s : State) (h : Quad) (e : JEntry), s.begins h 0x2017 false e ∧ s.inSync = true ∧ (s.journal.any fun x => x.opcode == 0x2021 && !x.committed) = false) ∧
    (∃ (s : State) (h : Quad) (e : JEntry), s.pwr.on = true ∧ (s.sys.mode = .run ∨ s.sys.mode = .stop) ∧ s.dpx.swap = some (some h) ∧ s.swapReady = true ∧ s.entry h = some e) ∧
    (∃ (s : State), s.pwr.on = true ∧ s.sys.mode = .follow ∧ s.dpx.standby = 2) :=
  ⟨⟨tCmd (tStop) 0x2017 [] 0 false, 7, tEntry 0x2017 [] 0 false, by unfold State.begins; decide +kernel⟩,
   ⟨{ tSync tStop with journal := [tEntry 0x2017 [] 0 false, { tEntry 0x2021 [] 0 false with handle := 8 }] }, 7, tEntry 0x2017 [] 0 false, by unfold State.begins; decide +kernel⟩,
   ⟨tCmd (tSync tStop) 0x2017 [] 0 false, 7, tEntry 0x2017 [] 0 false, by unfold State.begins; decide +kernel⟩,
   ⟨{ tSync (tCmd tStop 0x2017 [] 0 false) with dpx := { (tSync tStop).dpx with swap := some (some 7) } }, 7, tEntry 0x2017 [] 0 false, by decide +kernel⟩,
   ⟨{ tIn .follow with dpx := { tStop.dpx with standby := 2 } }, by decide +kernel⟩⟩

/-- States and operands that meet the hypotheses of `Obligations.StandbyTakesOver`, clause by clause. -/
theorem meets_standby_takes_over :
    (∃ (s : State), s.pwr.on = true ∧ s.dpx.partnerClaim = true ∧ s.sys.mode = .follow ∧ s.dpx.role = 2 ∧ s.dpx.standby = 2 ∧ (s.dpx.partnerSeen = false ∨ s.dpx.lastBeat.any (·.faultReport) = true)) ∧
    (∃ (s : State), s.pwr.on = true ∧ s.dpx.partnerSeen = true ∧ s.dpx.beatAt + 60 * countsUs ≤ s.now ∧ s.sys.mode = .follow ∧ s.dpx.role = 2 ∧ s.dpx.standby = 2 ∧ s.dpx.partnerClaim = false) ∧
    (∃ (s : State), s.pwr.on = true ∧ s.dpx.partnerClaim = true ∧ s.sys.mode = .follow ∧ s.dpx.standby ≠ 2) ∧
    (∃ (s : State), s.pwr.on = true ∧ s.dpx.partnerClaim = true ∧ s.sys.mode ≠ .follow) :=
  ⟨⟨{ tIn .follow with dpx := { tStop.dpx with partnerClaim := true, role := 2, standby := 2, partnerSeen := true, lastBeat := some ⟨0, 2, 0, 0, false, true⟩ } }, by decide +kernel⟩,
   ⟨{ { tIn .follow with dpx := { tStop.dpx with partnerSeen := true, role := 2, standby := 2 } } with tbu := { tStop.tbu with count := 60 * countsUs } }, by decide +kernel⟩,
   ⟨{ tIn .follow with dpx := { tStop.dpx with partnerClaim := true } }, by decide +kernel⟩,
   ⟨{ tStop with dpx := { tStop.dpx with partnerClaim := true } }, by decide +kernel⟩⟩

/-- States and operands that meet the hypotheses of `Obligations.ClaimsExclude`, clause by clause. -/
theorem meets_claims_exclude :
    (∃ (s : State), s.pwr.on = true ∧ s.dpx.partnerClaim = false ∧ s.dpx.ownClaim = true ∧ s.mfg.slotPos = true ∧ s.now ≤ s.dpx.claimAt + 500 * countsUs) ∧
    (∃ (s : State), s.pwr.on = true ∧ s.dpx.partnerClaim = false ∧ s.dpx.ownClaim = true ∧ (s.mfg.slotPos = false ∨ s.dpx.claimAt + 500 * countsUs < s.now)) ∧
    (∃ (s : State), ∃ n, s.pwr.on = true ∧ s.dpx.partnerClaim = false ∧ s.dpx.ownClaim = false ∧ (s.sys.mode = .run ∨ s.sys.mode = .stop) ∧ s.prog.forceJob = none ∧ n ≤ 16) :=
  ⟨⟨{ { tStop with dpx := { tStop.dpx with ownClaim := true } } with mfg := { tStop.mfg with slotPos := true }, tbu := { tStop.tbu with count := 500 * countsUs } }, by decide +kernel⟩,
   ⟨{ tStop with dpx := { tStop.dpx with ownClaim := true } }, by decide +kernel⟩,
   ⟨tStop, 16, by decide +kernel⟩⟩

/-- States and operands that meet the hypotheses of `Obligations.HeartbeatsShowThePartner`, clause by clause. -/
theorem meets_heartbeats_show_the_partner :
    (∃ (s : State), s.domOn 5 = true ∧ (s.dpx.beatSent = 0 ∨ s.dpx.beatSent + 20 * countsUs ≤ s.now)) ∧
    (∃ (s : State), s.domOn 5 = true ∧ s.sys.mode ≠ .follow ∧ s.dpx.ownClaim = false) ∧
    (∃ (s : State) (m : HeartbeatMsg), s.domOn 5 = true ∧ s.sys.mode ≠ .follow ∧ s.dpx.ownClaim = true ∧ m.mode = 4 ∧ m.role = 2 ∧ s.dpx.standby = 0 ∧ s.dpx.incompat = 0) ∧
    (∃ (s : State), s.pwr.on = true ∧ s.dpx.partnerSeen = true ∧ s.dpx.beatAt + 60 * countsUs ≤ s.now ∧ s.sys.mode ≠ .follow ∧ s.dpx.standby = 0) ∧
    (∃ (s : State) (l : Fin 2), ((s.dpx.setLane l false).lane0 = true ∨ (s.dpx.setLane l false).lane1 = true ∨ s.dpx.standby ≠ 1)) ∧
    (∃ (s : State), s.domOn 5 = true) :=
  ⟨⟨tStop, by decide +kernel⟩,
   ⟨tStop, by decide +kernel⟩,
   ⟨{ tStop with dpx := { tStop.dpx with ownClaim := true } }, ⟨2, 4, 0, 0, false, false⟩, by decide +kernel⟩,
   ⟨{ { tStop with dpx := { tStop.dpx with partnerSeen := true } } with tbu := { tStop.tbu with count := 60 * countsUs } }, by decide +kernel⟩,
   ⟨tStop, 0, by decide +kernel⟩,
   ⟨tStop, by decide +kernel⟩⟩

/-- States and operands that meet the hypotheses of `Obligations.MirrorsAreWholeAndAcknowledged`, clause by clause. -/
theorem meets_mirrors_are_whole_and_acknowledged :
    (∃ (m : CycleMirror), m.complete = false) ∧
    (∃ (s : State) (m : CycleMirror), ∃ n, s.domOn 5 = true ∧ s.sys.mode = .follow ∧ s.dpx.swapBack = false ∧ m.complete = true ∧ s.dpx.staged = [] ∧ n ≠ m.task.val) ∧
    (∃ (s : State) (m : CycleMirror), ∃ c, ∃ e, s.domOn 5 = true ∧ s.sys.mode = .follow ∧ s.dpx.swapBack = false ∧ m.complete = true ∧ s.dpx.staged = [] ∧ m.commits = [c] ∧ s.entry c.handle = some e) ∧
    (∃ (s : State) (k : Fin 17) (q : Quad), s.domOn 5 = true ∧ (s.task k).unacked = some q ∧ s.dpx.standby = 2 ∧ s.dpx.swapBack = false ∧ (s.task k).mirrorWait = false) ∧
    (∃ (s : State) (k : Fin 17) (q : Quad), s.domOn 5 = true ∧ (s.task k).unacked = some q ∧ s.dpx.standby = 3 ∧ s.dpx.catchUp.erase k = [] ∧ (s.task k).mirrorWait = false) ∧
    (∃ (s : State) (k : Fin 17), s.sys.mode = .run ∧ (s.task k).mirrorWait = true ∧ s.inSync = true ∧ (s.task k).heldAt + s.stretchLimit k ≤ s.now) :=
  ⟨⟨⟨1, 0, 0, 0, [], [], [], none, [], [], [], [], [], false⟩, by decide +kernel⟩,
   ⟨tIn .follow, ⟨1, 0, 0, 0, [], [], [], none, [], [], [], [], [], true⟩, 2, by decide +kernel⟩,
   ⟨tCmd (tIn .follow) 0x2010 [] 0 false, ⟨1, 0, 0, 0, [], [], [], none, [], [], [], [⟨7, 0, [], false, false⟩], [], true⟩, ⟨7, 0, [], false, false⟩, tEntry 0x2010 [] 0 false, by decide +kernel⟩,
   ⟨{ { tStop with dpx := { tStop.dpx with standby := 2 } } with tasks := Tbl.set (fun _ => Task.reset) [] 1 { Task.reset with present := true, unacked := some 5 } }, 1, 5, by decide +kernel⟩,
   ⟨{ { tStop with dpx := { tStop.dpx with standby := 3, catchUp := [1] } } with tasks := Tbl.set (fun _ => Task.reset) [] 1 { Task.reset with present := true, unacked := some 5 } }, 1, 5, by decide +kernel⟩,
   ⟨tAt ({ { tSync tStop with sys := (tIn .run).sys } with tasks := Tbl.set (fun _ => Task.reset) [] 1 { Task.reset with present := true, mirrorWait := true } }) (5000 * countsMs), 1, by decide +kernel⟩⟩

/-- States and operands that meet the hypotheses of `Obligations.ResyncRunsItsPhases`, clause by clause. -/
theorem meets_resync_runs_its_phases :
    (∃ (s : State), s.pwr.on = true ∧ s.dpx.phase = 1) ∧
    (∃ (s : State) (c : BitVec 4), s.pwr.on = true ∧ s.dpx.phase = 1 ∧ c ≠ 0) ∧
    (∃ (s : State), s.pwr.on = true ∧ s.dpx.phase = 2) ∧
    (∃ (s : State), s.pwr.on = true ∧ s.dpx.phase = 3) ∧
    (∃ (s : State), s.pwr.on = true ∧ s.dpx.phase = 4 ∧ s.dpx.catchUp = [] ∧ (s.sys.mode = .follow → s.dpx.partnerClaim = true)) ∧
    (∃ (s : State), s.pwr.on = true ∧ s.dpx.phase = 4 ∧ s.dpx.catchUp = [] ∧ s.sys.mode = .follow ∧ s.dpx.partnerClaim = false ∧ s.dpx.partnerSeen = false) ∧
    (∃ (s : State), s.pwr.on = true ∧ s.dpx.phase = 3 ∧ s.dpx.phaseAt + 30000 * countsMs ≤ s.now) ∧
    (∃ (s : State), s.pwr.on = true ∧ 720 ≤ s.exerciseHours ∧ s.dpx.milestone < 720 + (s.exerciseHours - 720) / 24 * 24) :=
  ⟨⟨{ tStop with dpx := { tStop.dpx with phase := 1 } }, by decide +kernel⟩,
   ⟨{ tStop with dpx := { tStop.dpx with phase := 1 } }, 1, by decide +kernel⟩,
   ⟨{ tStop with dpx := { tStop.dpx with phase := 2 } }, by decide +kernel⟩,
   ⟨{ tStop with dpx := { tStop.dpx with phase := 3 } }, by decide +kernel⟩,
   ⟨{ tStop with dpx := { tStop.dpx with phase := 4 } }, by decide +kernel⟩,
   ⟨{ tIn .follow with dpx := { tStop.dpx with phase := 4 } }, by decide +kernel⟩,
   ⟨tAt { tStop with dpx := { tStop.dpx with phase := 3 } } (30000 * countsMs), by decide +kernel⟩,
   ⟨tAt tStop (744 * msHour * countsMs), by decide +kernel⟩⟩

/-- States and operands that meet the hypotheses of `Obligations.StandbyTakesMirroredItems`, clause by clause. -/
theorem meets_standby_takes_mirrored_items :
    (∃ (s : State), s.sys.mode ≠ .follow) ∧
    (∃ (s : State), s.domOn 5 = true ∧ s.sys.mode = .follow) ∧
    (∃ (s : State), s.domOn 5 = true ∧ s.sys.mode = .follow ∧ (s.journal.any fun e => (e.opcode == 0x2020 || e.opcode == 0x2021 || e.opcode == 0x2026) && !e.committed) = true) :=
  ⟨⟨tStop, by decide +kernel⟩,
   ⟨tIn .follow, by decide +kernel⟩,
   ⟨tCmd (tIn .follow) 0x2020 [] 0 false, by decide +kernel⟩⟩

/-- States and operands that meet the hypotheses of `Obligations.TransfersAreRoutedAndAnswered`, clause by clause. -/
theorem meets_transfers_are_routed_and_answered :
    (∃ (s : State) (h : Quad) (e : JEntry) (b : Buf) (c : Instr) (v1 : Bool) (n : Net) (d : Bytes), (c = .stileTransfer h b ∧ v1 = false ∨ c = .remoteXfer h b ∧ v1 = true) ∧ s.begins h 0x2080 v1 e ∧ s.stileUp = true ∧ portNet (byteAt e.args 3).toNat = some n ∧ s.guarded n (leAt e.args 4 4 / 65536 % 256) e.context = false ∧ s.inSchedule n (leAt e.args 4 4 / 65536 % 256) = true ∧ (s.net n).isIntegrated = true ∧ (byteAt e.args 2).toNat = 2 ∧ (s.ctx e.context).fenced (n == .hl2) (leAt e.args 4 4 / 65536 % 256) = false ∧ (s.ctx e.context).free ≠ 0 ∧ s.input e.ring (sub e.args 16 16) b = some d ∧ s.stationFailed n (leAt e.args 4 4 / 65536 % 256) = false) ∧
    (∃ (s : State) (h : Quad) (e : JEntry) (b : Buf) (c : Instr) (v1 : Bool) (n : Net), (c = .stileTransfer h b ∧ v1 = false ∨ c = .remoteXfer h b ∧ v1 = true) ∧ s.begins h 0x2080 v1 e ∧ s.stileUp = true ∧ portNet (byteAt e.args 3).toNat = some n ∧ s.guarded n (leAt e.args 4 4 / 65536 % 256) e.context = false ∧ s.inSchedule n (leAt e.args 4 4 / 65536 % 256) = true ∧ (s.net n).isIntegrated = true ∧ (byteAt e.args 2).toNat = 0 ∧ s.outReach e.ring (sub e.args 16 16) (b != .unreachable) = true ∧ s.stationFailed n (leAt e.args 4 4 / 65536 % 256) = false ∧ (∀ q ∈ s.stl.reqs, q.busy = false)) ∧
    (∃ (s : State) (h : Quad) (e : JEntry) (b : Buf) (c : Instr) (v1 : Bool) (n : Net) (st : BitVec 16) (res : Bytes), (c = .stileTransfer h b ∧ v1 = false ∨ c = .remoteXfer h b ∧ v1 = true) ∧ s.begins h 0x2080 v1 e ∧ s.stileUp = true ∧ portNet (byteAt e.args 3).toNat = some n ∧ ((s.guarded n (leAt e.args 4 4 / 65536 % 256) e.context = true ∧ st = stBusy ∧ res = transferResult 0 0 0) ∨ (s.guarded n (leAt e.args 4 4 / 65536 % 256) e.context = false ∧ s.inSchedule n (leAt e.args 4 4 / 65536 % 256) = false ∧ st = stNoRoute ∧ res = transferResult 0 0 0) ∨ (s.guarded n (leAt e.args 4 4 / 65536 % 256) e.context = false ∧ s.inSchedule n (leAt e.args 4 4 / 65536 % 256) = true ∧ (s.net n).isIntegrated = false ∧ st = stRefused ∧ res = leBytes 4 0x91) ∨ (s.guarded n (leAt e.args 4 4 / 65536 % 256) e.context = false ∧ s.inSchedule n (leAt e.args 4 4 / 65536 % 256) = true ∧ (s.net n).isIntegrated = true ∧ (byteAt e.args 2).toNat = 2 ∧ (s.ctx e.context).fenced (n == .hl2) (leAt e.args 4 4 / 65536 % 256) = true ∧ st = stFenced ∧ res = transferResult 0 0 0))) ∧
    (∃ (s : State) (h : Quad) (e : JEntry) (b : Buf) (c : Instr) (v1 : Bool) (m : Bytes), ∃ p, (c = .stileTransfer h b ∧ v1 = false ∨ c = .remoteXfer h b ∧ v1 = true) ∧ s.begins h 0x2080 v1 e ∧ s.stileUp = true ∧ (byteAt e.args 3).toNat < 6 ∧ s.input e.ring (sub e.args 16 16) b = some m ∧ m.length ≤ s.longestFor (byteAt e.args 3).toNat (BitVec.ofNat 32 (leAt e.args 4 4)) ∧ (s.port (byteAt e.args 3).toNat).queue.length < 64 ∧ p ≠ (byteAt e.args 3).toNat) :=
  ⟨⟨tCmd ({ tNet (tStop) { tNode with state := .integrated } with stl := { tStop.stl with ctxs := Tbl.set (fun _ => Ctx.reset) [] 0 { Ctx.reset with credits := 1 } } }) 0x2080 [0, 0, 2, 7, 0, 0, 2, 0] 0 false, 7, tEntry 0x2080 [0, 0, 2, 7, 0, 0, 2, 0] 0 false, .bytes [], .stileTransfer 7 (.bytes []), false, .hl1, [], ⟨.inl ⟨rfl, rfl⟩, by unfold State.begins; decide +kernel, by decide +kernel⟩⟩,
   ⟨tCmd (tNet (tStop) { tNode with state := .integrated }) 0x2080 [0, 0, 0, 7, 0, 0, 2, 0] 0 false, 7, tEntry 0x2080 [0, 0, 0, 7, 0, 0, 2, 0] 0 false, .bytes [], .stileTransfer 7 (.bytes []), false, .hl1, ⟨.inl ⟨rfl, rfl⟩, by unfold State.begins; decide +kernel, by decide +kernel⟩⟩,
   ⟨tCmd (tStop) 0x2080 [0, 0, 0, 7, 0, 0, 2, 0] 0 false, 7, tEntry 0x2080 [0, 0, 0, 7, 0, 0, 2, 0] 0 false, .bytes [], .stileTransfer 7 (.bytes []), false, .hl1, stNoRoute, transferResult 0 0 0, ⟨.inl ⟨rfl, rfl⟩, by unfold State.begins; decide +kernel, by decide +kernel, by decide +kernel, .inr (.inl ⟨by decide +kernel, by decide +kernel, rfl, rfl⟩)⟩⟩,
   ⟨tCmd (tStop) 0x2080 [0, 0, 0, 1] 0 false, 7, tEntry 0x2080 [0, 0, 0, 1] 0 false, .bytes [], .stileTransfer 7 (.bytes []), false, [], 2, ⟨.inl ⟨rfl, rfl⟩, by unfold State.begins; decide +kernel, by decide +kernel⟩⟩⟩

/-- States and operands that meet the hypotheses of `Obligations.AnswersAndLimitsEndRequests`, clause by clause. -/
theorem meets_answers_and_limits_end_requests :
    (∃ (s : State) (n : Net) (a : Byte) (x : Answer) (r : Req), s.stileUp = true ∧ x.status = 0 ∧ r.op = 3 ∧ (s.stl.reqs.find? fun r => r.at x.context.val (n == .hl2) a.toNat && r.tag == x.tag && r.op + 0x80 == x.op && r.onWire) = some r ∧ s.stl.reqs.count r = 1) ∧
    (∃ (s : State) (n : Net) (a : Byte) (x : Answer) (r : Req) (h : Quad) (e : JEntry), s.stileUp = true ∧ x.status = 0 ∧ r.op = 1 ∧ (s.stl.reqs.find? fun r => r.at x.context.val (n == .hl2) a.toNat && r.tag == x.tag && r.op + 0x80 == x.op && r.onWire) = some r ∧ r.h = some h ∧ s.entry h = some e ∧ e.committed = false ∧ s.commitMode e = true ∧ (handleRing h < 8 ∨ 12 ≤ handleRing h)) ∧
    (∃ (s : State) (n : Net) (a : Byte) (x : Answer) (r : Req), s.stileUp = true ∧ x.status = 3 ∧ r.op = 3 ∧ (s.stl.reqs.find? fun r => r.at x.context.val (n == .hl2) a.toNat && r.tag == x.tag && r.op + 0x80 == x.op && r.onWire) = some r) ∧
    (∃ (s : State) (n : Net) (a : Byte) (x : Answer) (r : Req), ∃ i, s.stileUp = true ∧ x.status ≠ 0 ∧ x.status ≠ 3 ∧ r.op = 3 ∧ (s.stl.reqs.find? fun r => r.at x.context.val (n == .hl2) a.toNat && r.tag == x.tag && r.op + 0x80 == x.op && r.onWire) = some r ∧ s.freePel = some i) ∧
    (∃ (s : State) (n : Net) (a : Byte) (x : Fin 128) (g : Word) (r : Req), ∃ i, s.stileUp = true ∧ r.op = 3 ∧ (s.stl.reqs.find? fun r => r.at x.val (n == .hl2) a.toNat && r.tag == g && r.onWire) = some r ∧ (s.net n).isIntegrated = true ∧ s.respLimit n a.toNat ≤ ((s.net n).cycle - r.cycle).toNat ∧ s.freePel = some i) ∧
    (∃ (s : State) (n : Net) (a : Byte) (x : Fin 128) (g : Word) (r : Req) (h : Quad) (e : JEntry), s.stileUp = true ∧ (r.op = 1 ∨ r.op = 2) ∧ r.win = none ∧ r.h = some h ∧ s.entry h = some e ∧ e.committed = false ∧ s.commitMode e = true ∧ (s.stl.reqs.find? fun r => r.at x.val (n == .hl2) a.toNat && r.tag == g && r.onWire) = some r ∧ (s.net n).isIntegrated = true ∧ s.respLimit n a.toNat ≤ ((s.net n).cycle - r.cycle).toNat) ∧
    (∃ (s : State) (x : Fin 128) (r : Req) (k w c : Nat), s.stileUp = true ∧ r.op = 1 ∧ r.win = some (k, w, c) ∧ (s.stl.reqs.find? fun r => r.ctx == x.val && r.op == 1 && match r.win with | some (_, _, t) => decide (t + s.readTimeout x * countsMs ≤ s.now) | none => false) = some r) ∧
    (∃ (s : State) (h : Quad) (e : JEntry) (p : Pel), ∃ i, s.begins h 0x2081 false e ∧ byteAt e.args 2 ≠ 0xFF ∧ s.pel (byteAt e.args 2).toNat = some p ∧ p.ctx = e.context ∧ i ≠ (byteAt e.args 2).toNat) ∧
    (∃ (s : State) (h : Quad) (e : JEntry), s.begins h 0x2081 false e ∧ byteAt e.args 2 ≠ 0xFF ∧ s.pel (byteAt e.args 2).toNat = none) :=
  ⟨⟨tReqs (tStop) [tReq 3 (none)], .hl1, 2, ⟨3 + 0x80, 0, 5, 0, []⟩, tReq 3 (none), by decide +kernel⟩,
   ⟨tReqs (tCmd tStop 0x2080 [] 0 false) [tReq 1 (some 7)], .hl1, 2, ⟨1 + 0x80, 0, 5, 0, []⟩, tReq 1 (some 7), 7, tEntry 0x2080 [] 0 false, by decide +kernel⟩,
   ⟨tReqs (tStop) [tReq 3 (none)], .hl1, 2, ⟨3 + 0x80, 3, 5, 0, []⟩, tReq 3 (none), by decide +kernel⟩,
   ⟨tReqs (tStop) [tReq 3 (none)], .hl1, 2, ⟨3 + 0x80, 1, 5, 0, []⟩, tReq 3 (none), 0, by decide +kernel⟩,
   ⟨{ tReqs (tStop) [tReq 3 (none)] with hl1 := { tNode with state := .integrated, cycle := 8 } }, .hl1, 2, 0, 5, tReq 3 (none), 0, by decide +kernel⟩,
   ⟨{ tReqs (tCmd tStop 0x2080 [] 0 false) [tReq 1 (some 7)] with hl1 := { tNode with state := .integrated, cycle := 8 } }, .hl1, 2, 0, 5, tReq 1 (some 7), 7, tEntry 0x2080 [] 0 false, by decide +kernel⟩,
   ⟨{ tReqs tStop [{ tReq 1 none with win := some (1, 0, 0) }] with tbu := { tStop.tbu with count := 20 * countsMs } }, 0, { tReq 1 none with win := some (1, 0, 0) }, 1, 0, 0, by decide +kernel⟩,
   ⟨tCmd ({ tStop with stl := { tStop.stl with log := Tbl.set (fun _ => none) [] 0 (some ⟨1, false, 0, false, 2, 5, 0, 0, 0, 0, 0⟩) } }) 0x2081 [] 0 false, 7, tEntry 0x2081 [] 0 false, ⟨1, false, 0, false, 2, 5, 0, 0, 0, 0, 0⟩, 1, by unfold State.begins; decide +kernel⟩,
   ⟨tCmd (tStop) 0x2081 [] 0 false, 7, tEntry 0x2081 [] 0 false, by unfold State.begins; decide +kernel⟩⟩

/-- States and operands that meet the hypotheses of `Obligations.PortsSemaphoresAndWindows`, clause by clause. -/
theorem meets_ports_semaphores_and_windows :
    (∃ (s : State) (p : Fin 10) (i : Word) (m : Bytes), s.stileUp = true ∧ hits p (portIdent p i m) 4 s.cfg.cur.routing = []) ∧
    (∃ (s : State) (p : Fin 10) (i d : Word) (m x : Bytes) (r : Route), ∃ k, s.stileUp = true ∧ hits p (portIdent p i m) 4 s.cfg.cur.routing = [r] ∧ transform r.transform p (portIdent p i m) r.dstId m = some (x, d) ∧ 4 ≤ r.dstPort.toNat ∧ r.dstPort.toNat < 9 ∧ x.length ≤ s.longestFor r.dstPort.toNat d ∧ (s.port r.dstPort.toNat).queue.length < 64 ∧ k ≠ r.dstPort.toNat) ∧
    (∃ (s : State) (p : Fin 10) (i : Word) (m : Bytes) (h : Quad) (e : JEntry), ∃ q, q ∈ (s.port p).queue ∧ s.stileUp = true ∧ p.val < 7 ∧ (s.port p).state ≠ 3 ∧ (s.port p).next (decide (p.val < 4)) = some (i, m, some h) ∧ s.entry h = some e ∧ e.committed = false ∧ s.commitMode e = true ∧ p.val < 4) ∧
    (∃ (s : State) (p : Fin 4), ∃ i, ∃ m, ∃ h, ∃ e, s.stileUp = true ∧ (i, m, some h) ∈ (s.port p).queue ∧ s.entry h = some e ∧ e.committed = false ∧ s.commitMode e = true) ∧
    (∃ (s : State) (p : Fin 4), ∃ k, s.stileUp = true ∧ (s.port p).state = 3 ∧ k ≠ p.val) ∧
    (∃ (s : State) (p : Party) (k : Fin 64) (x : Fin 128), ∃ j, s.stileUp = true ∧ s.ownsCtx p x = true ∧ (p = .legacy → s.sys.legacyWrite = true) ∧ (p = .part0 ∨ p = .part1 → s.sys.progSem = true) ∧ j ≠ k.val) ∧
    (∃ (s : State) (k : Fin 64), ∃ j, s.stileUp = true ∧ (s.sem k).held = true ∧ (s.sem k).since + s.holdLimit k * countsMs < s.now ∧ j ≠ k.val) ∧
    (∃ (s : State) (k : Fin 17) (a : Quad) (n : Nat) (w : WindowCfg) (i : Nat), s.windowing k = true ∧ s.windowAt (partOfTask k) a n = some (w, i) ∧ s.inSchedule w.netOf w.station = true ∧ (s.net w.netOf).isIntegrated = true ∧ s.stationFailed w.netOf w.station = false) ∧
    (∃ (s : State) (k : Fin 17) (a : Quad) (d : Bytes) (w : WindowCfg) (i : Nat), s.windowing k = true ∧ s.windowAt (partOfTask k) a d.length = some (w, i) ∧ s.inSchedule w.netOf w.station = true ∧ (s.net w.netOf).isIntegrated = true ∧ s.stationFailed w.netOf w.station = false ∧ w.posted = false) ∧
    (∃ (s : State) (k : Fin 17) (a : Quad) (n : Nat), ∃ j, s.windowing k = true ∧ s.windowAt (partOfTask k) a n = none ∧ j ≠ k.val) ∧
    (∃ (s : State) (k : Fin 17) (a : Quad) (d : Bytes), ∃ j, s.windowing k = true ∧ s.windowAt (partOfTask k) a d.length = none ∧ j ≠ k.val) ∧
    (∃ (s : State), ∃ e, e ∈ s.journal ∧ s.stileUp = true ∧ e.opcode = 0x2080 ∧ e.phase = .executing ∧ s.entry e.handle = some e) ∧
    (∃ (s : State), s.stileUp = true ∧ (∀ r ∈ s.stl.reqs, r.posted = false ∨ r.onWire = false)) :=
  ⟨⟨tStop, 0, 5, [], by decide +kernel⟩,
   ⟨{ tStop with cfg := { tStop.cfg with cur := { ConfigSet.reset with routing := [⟨0, 4, 0, true, false, 5, 0xFFFFFFFF, 6⟩] } } }, 0, 5, 6, [], [], ⟨0, 4, 0, true, false, 5, 0xFFFFFFFF, 6⟩, 5, by decide +kernel⟩,
   ⟨{ tCmd tStop 0x2080 [] 0 false with stl := { tStop.stl with ports := Tbl.set (fun _ => StlPort.reset) [] 1 { StlPort.reset with queue := [(5, [], some 7)] } } }, 1, 5, [], 7, tEntry 0x2080 [] 0 false, (5, [], some 7), by decide +kernel⟩,
   ⟨{ tCmd tStop 0x2080 [] 0 false with stl := { tStop.stl with ports := Tbl.set (fun _ => StlPort.reset) [] 1 { StlPort.reset with queue := [(5, [], some 7)] } } }, 1, 5, [], 7, tEntry 0x2080 [] 0 false, by decide +kernel⟩,
   ⟨{ tStop with stl := { tStop.stl with ports := Tbl.set (fun _ => StlPort.reset) [] 3 { StlPort.reset with state := 3 } } }, 3, 2, by decide +kernel⟩,
   ⟨{ tStop with stl := { tStop.stl with ctxs := Tbl.set (fun _ => Ctx.reset) [] 0 { Ctx.reset with owner := 1 } } }, .pcie, 63, 0, 0, ⟨by decide +kernel, by decide +kernel, fun h => by simp at h, fun h => by simp at h, by decide⟩⟩,
   ⟨{ tStop with stl := { tStop.stl with sems := Tbl.set (fun _ => Sem.reset) [] 0 { Sem.reset with held := true } }, tbu := { tStop.tbu with count := 100 * countsMs + 1 } }, 0, 1, by decide +kernel⟩,
   ⟨{ tNet (tTask (tIn .run) 1 fun k => { k with running := true }) { tNode with state := .integrated } with cfg := { tStop.cfg with cur := { ConfigSet.reset with windows := [⟨0, 1, 0, 0, 2, 0, false, false, false, 0⟩] } } }, 1, 0x0200000000, 4, ⟨0, 1, 0, 0, 2, 0, false, false, false, 0⟩, 0, by decide +kernel⟩,
   ⟨{ tNet (tTask (tIn .run) 1 fun k => { k with running := true }) { tNode with state := .integrated } with cfg := { tStop.cfg with cur := { ConfigSet.reset with windows := [⟨0, 1, 0, 0, 2, 0, false, false, false, 0⟩] } } }, 1, 0x020000FFFF, [1], ⟨0, 1, 0, 0, 2, 0, false, false, false, 0⟩, 0, by decide +kernel⟩,
   ⟨{ tNet (tTask (tIn .run) 1 fun k => { k with running := true }) { tNode with state := .integrated } with cfg := { tStop.cfg with cur := { ConfigSet.reset with windows := [⟨0, 1, 0, 0, 2, 0, false, false, false, 0⟩] } } }, 1, 0x0200010000, 1, 2, by decide +kernel⟩,
   ⟨{ tNet (tTask (tIn .run) 1 fun k => { k with running := true }) { tNode with state := .integrated } with cfg := { tStop.cfg with cur := { ConfigSet.reset with windows := [⟨0, 1, 0, 0, 2, 0, false, false, false, 0⟩] } } }, 1, 0x0200010000, [1], 2, by decide +kernel⟩,
   ⟨{ tStop with journal := [{ tEntry 0x2080 [] 0 false with phase := .executing }] }, { tEntry 0x2080 [] 0 false with phase := .executing }, by decide +kernel⟩,
   ⟨tStop, by decide +kernel⟩⟩

/-- States and operands that meet the hypotheses of `Obligations.HeathlineFramesAreJudgedBySlot`, clause by clause. -/
theorem meets_heathline_frames_are_judged_by_slot :
    (∃ (s : State) (n : Net), s.netUp n = true ∧ (s.net n).isIntegrated = true ∧ ((n = .hl1 ∧ s.dpx.takeHub1 = true) ∨ (n = .hl2 ∧ s.dpx.takeHub2 = true))) ∧
    (∃ (s : State) (n : Net), ∃ x, ∃ i, s.netUp n = true ∧ (s.net n).isIntegrated = true ∧ (s.net n).hub = true ∧ s.dpx.drives = true ∧ (x, i) ∈ s.outSegs ∧ srcNetOf x.source = some n) ∧
    (∃ (s : State) (n : Net), s.netUp n = true ∧ (s.net n).state = .coldstart) ∧
    (∃ (s : State) (n : Net) (p : Fin 4) (f : Bytes), s.netUp n = true ∧ (s.net n).state = .listen ∧ (s.net n).hub = false ∧ (s.net n).beaconOk (portB p) f = true ∧ beAt f 16 4 = (s.net n).schedId.toNat ∧ hOut f = true) ∧
    (∃ (s : State) (n : Net) (p : Fin 4) (at_ : Nat) (f : Bytes) (c : SlotDesc), s.netUp n = true ∧ (s.net n).state = .integrated ∧ (s.net n).hub = false ∧ (s.net n).beaconOk (portB p) f = true ∧ beAt f 16 4 = (s.net n).schedId.toNat ∧ hOut f = true ∧ hCycle f = (s.net n).cycle ∧ (s.net n).beaconNow = false ∧ (if portB p then (s.net n).join.upB else (s.net n).join.upA) = some (secondPort p) ∧ (s.net n).slotAt true (portB p) at_ = some c ∧ c.kind = 0 ∧ (s.net n).hasD (portB p) = true ∧ (s.net n).valid c true (portB p) at_ f = true ∧ ((s.net n).rxOf c.slot).on (portB p) = 0) ∧
    (∃ (s : State) (n : Net) (p : Fin 4) (at_ : Nat) (f : Bytes) (c : SlotDesc) (y : Segment) (i : Nat), s.netUp n = true ∧ (s.net n).hub = true ∧ (s.net n).isIntegrated = true ∧ (s.arrive n p at_ f).2 = some (c, false) ∧ hType f = 2 ∧ (s.net n).firstCopy c.slot (portB p) = true ∧ s.feeds n c false = true ∧ s.slotSegment n false c.slot = some (y, i) ∧ y.station = (hSrc f).toNat ∧ y.size = (hBody f).length ∧ (s.inSeg i).subst = false) ∧
    (∃ (s : State) (n : Net) (p : Fin 4) (at_ : Nat) (f : Bytes) (i : Instr), s.netUp n = true ∧ (s.net n).hub = true ∧ (s.net n).isIntegrated = true ∧ (s.net n).join.startPhase = false ∧ (s.net n).chainPort p = true ∧ (s.net n).slotAt false (portB p) at_ = none ∧ (i = .dataFrame n p at_ f ∨ i = .claimFrame n p at_ f ∨ i = .acyclicFrame n p at_ f ∨ i = .delayFrame n p at_ f)) ∧
    (∃ (s : State) (n : Net) (f : Bytes), s.netUp n = true ∧ hdrOk f = true ∧ crcOk f = true ∧ hType f = 3 ∧ byteAt f 1 = (s.net n).netId ∧ hSlot f = 0 ∧ hCycle f = 0 ∧ s.starter n (hSrc f) = true ∧ hGen f = (s.net n).gen.toNat ∧ beAt f 16 4 = (s.net n).schedId.toNat ∧ hSrc f ≠ (s.net n).addr ∧ ((s.net n).state = .listen ∨ (s.net n).state = .wait ∨ ((s.net n).state = .coldstart ∧ (hSrc f).toNat < (s.net n).addr.toNat))) ∧
    (∃ (s : State) (n : Net) (f : Bytes), s.netUp n = true ∧ hdrOk f = true ∧ crcOk f = true ∧ hType f = 3 ∧ byteAt f 1 = (s.net n).netId ∧ hSlot f = 0 ∧ hCycle f = 0 ∧ s.starter n (hSrc f) = true ∧ hGen f = (s.net n).gen.toNat ∧ beAt f 16 4 = (s.net n).schedId.toNat ∧ hSrc f ≠ (s.net n).addr ∧ (s.net n).state = .coldstart ∧ (s.net n).addr.toNat ≤ (hSrc f).toNat) ∧
    (∃ (s : State) (n : Net) (p : Fin 4) (at_ : Nat) (f : Bytes) (c : SlotDesc) (k : Schedule), ∃ m0, ∃ c0, s.netUp n = true ∧ (s.net n).hub = true ∧ (s.net n).isIntegrated = true ∧ (s.arrive n p at_ f).2 = some (c, false) ∧ hType f = 4 ∧ hLen f = 16 ∧ beAt f 16 4 = (s.net n).schedId.toNat ∧ beAt f 20 2 = c.slot ∧ (s.net n).sched = some k ∧ (hSrc f).toNat ∉ k.stations ∧ (∀ g, g ∈ (s.net n).grants → g.2.1 ≠ hSrc f) ∧ (s.net n).claims = [(c.slot, hSrc f, m0, c0)]) ∧
    (∃ (s : State) (n : Net) (p : Fin 4) (at_ : Nat) (f : Bytes) (c : SlotDesc) (k : Schedule), s.netUp n = true ∧ (s.net n).hub = true ∧ (s.net n).isIntegrated = true ∧ (s.arrive n p at_ f).2 = some (c, false) ∧ hType f = 4 ∧ hLen f = 16 ∧ beAt f 16 4 = (s.net n).schedId.toNat ∧ beAt f 20 2 = c.slot ∧ (s.net n).sched = some k ∧ (hSrc f).toNat ∉ k.stations ∧ (∀ g, g ∈ (s.net n).grants → g.2.1 ≠ hSrc f) ∧ (∀ k ∈ (s.net n).claims, k.1 ≠ c.slot ∨ k.2.1 ≠ hSrc f)) ∧
    (∃ (s : State) (n : Net) (p : Fin 4) (at_ : Nat) (f : Bytes) (c : SlotDesc), s.netUp n = true ∧ (s.net n).hub = true ∧ (s.net n).isIntegrated = true ∧ (s.net n).join.startPhase = false ∧ (s.arrive n p at_ f).2 = some (c, false) ∧ c.kind = 6 ∧ byteAt f 16 = 0 ∧ byteAt f 18 = (s.net n).addr) ∧
    (∃ (s : State) (n : Net) (p : Fin 4) (at_ : Nat) (f : Bytes) (ta tb : Int) (e : Nat), s.netUp n = true ∧ (s.net n).hub = false ∧ (s.net n).state = .sync ∧ (s.net n).delayOk f = true ∧ hOut f = true ∧ ((s.net n).join.asked.find? fun r => r.2.2 == byteAt f 17) = some (ta, tb, byteAt f 17) ∧ byteAt f 16 = 1 ∧ byteAt f 18 = (s.net n).addr ∧ 2 * (e : Int) = (s.net n).cycleTime + at_ - (if portB p then tb else ta) - ((beAt f 28 8 : Int) - (beAt f 20 8 : Int)) % 2 ^ 64) ∧
    (∃ (s : State) (n : Net) (p : Fin 4) (at_ : Nat) (f : Bytes) (c : SlotDesc), s.netUp n = true ∧ (s.net n).hub = true ∧ (s.net n).isIntegrated = true ∧ (s.arrive n p at_ f).2 = some (c, false) ∧ c.kind = 4) ∧
    (∃ (s : State) (n : Net) (slot : Fin 4096) (c : SlotDesc), s.netUp n = true ∧ (s.net n).isIntegrated = true ∧ (s.net n).slot slot = some c ∧ ((s.net n).state = .reference ∨ (s.net n).noBeacon ≤ 3) ∧ (s.net n).sends c = false) ∧
    (∃ (s : State) (n : Net) (slot : Fin 4096) (c : SlotDesc) (a : Int), s.netUp n = true ∧ (s.net n).isIntegrated = true ∧ (s.net n).slot slot = some c ∧ ((s.net n).state = .reference ∨ (s.net n).noBeacon ≤ 3) ∧ (s.net n).sends c = true ∧ (s.net n).hub = true ∧ (c.kind = 0 ∨ c.kind = 2) ∧ 4 * a.natAbs ≤ (s.net n).guard) ∧
    (∃ (s : State) (n : Net) (slot : Fin 4096) (c : SlotDesc) (q : Nat), s.netUp n = true ∧ (s.net n).isIntegrated = true ∧ (s.net n).hub = false ∧ (s.net n).slot slot = some c ∧ c.kind = 3 ∧ (s.net n).own = some slot.val ∧ (s.net n).upPort false = [q] ∧ ((s.net n).state = .reference ∨ (s.net n).noBeacon ≤ 3)) ∧
    (∃ (s : State) (n : Net) (slot : Fin 4096) (c : SlotDesc), s.netUp n = true ∧ (s.net n).isIntegrated = true ∧ (s.net n).slot slot = some c ∧ (s.net n).expects c = true ∧ ((s.net n).rxOf slot).a ≠ 3) :=
  ⟨⟨{ tNet (tStop) { tNode with state := .integrated } with dpx := { tStop.dpx with takeHub1 := true } }, .hl1, ⟨by decide +kernel, by decide +kernel, .inl ⟨rfl, by decide +kernel⟩⟩⟩,
   ⟨{ { tNet (tStop) { tHub with hub := true } with dpx := { tStop.dpx with ownClaim := true } } with cfg := { tStop.cfg with cur := { ConfigSet.reset with segments := [⟨true, 0, 2, 0, 2, 4, 0, 0, 0⟩] } } }, .hl1, ⟨true, 0, 2, 0, 2, 4, 0, 0, 0⟩, 0, by decide +kernel⟩,
   ⟨tNet (tStop) { tNode with state := .coldstart }, .hl1, by decide +kernel⟩,
   ⟨tNet (tStop) { tNode with state := .listen }, .hl1, 0, tBeacon, ⟨by decide +kernel, by decide +kernel, by decide +kernel, by unfold HlNet.beaconOk; rw [tBeacon_crc]; decide +kernel, by decide +kernel⟩⟩,
   ⟨tNet (tStop) { tNode with state := .integrated, dA := some 0, join := { HlJoin.reset with upA := some false } }, .hl1, 0, 640, tBeacon, (tSlot 0 0 0 0), (by and_intros <;> first | (unfold HlNet.beaconOk; rw [tBeacon_crc]; decide +kernel) | (unfold HlNet.valid; rw [tBeacon_crc]; decide +kernel) | decide +kernel)⟩,
   ⟨{ tNet (tStop) tHub with cfg := { tStop.cfg with cur := { ConfigSet.reset with segments := [⟨false, 0, 2, 0, 1, 4, 0, 0, 0⟩] } } }, .hl1, 0, 550000, tFrame 2 1 0 2 false 4 [1, 2, 3, 4], tSlot 1 1 2 50000, ⟨false, 0, 2, 0, 1, 4, 0, 0, 0⟩, 0, by decide +kernel⟩,
   ⟨tNet (tStop) tHub, .hl1, 0, 0, [], .dataFrame .hl1 0 0 [], (by and_intros <;> first | exact .inl rfl | decide +kernel)⟩,
   ⟨{ tNet (tStop) { tNode with state := .listen } with cfg := { tStop.cfg with cur := { ConfigSet.reset with stations := [⟨.hl1, 1, 4, 4, 8, true⟩, ⟨.hl1, 3, 4, 4, 8, true⟩] } } }, .hl1, tFrame 3 0 0 1 true 16 ([1, 2, 3, 4] ++ List.replicate 12 0), (by and_intros <;> first | exact .inl (by decide +kernel) | decide +kernel)⟩,
   ⟨{ tNet (tStop) { tNode with state := .coldstart } with cfg := { tStop.cfg with cur := { ConfigSet.reset with stations := [⟨.hl1, 1, 4, 4, 8, true⟩, ⟨.hl1, 3, 4, 4, 8, true⟩] } } }, .hl1, tFrame 3 0 0 3 true 16 ([1, 2, 3, 4] ++ List.replicate 12 0), by decide +kernel⟩,
   ⟨tNet (tStop) { tHub with claims := [(3, 7, 1, 4)] }, .hl1, 0, 650000, tFrame 4 3 0 7 false 16 ([1, 2, 3, 4, 0, 3] ++ List.replicate 10 0), tSlot 3 3 0 150000, tSched, 1, 4, by decide +kernel⟩,
   ⟨tNet (tStop) tHub, .hl1, 0, 650000, tFrame 4 3 0 7 false 16 ([1, 2, 3, 4, 0, 3] ++ List.replicate 10 0), tSlot 3 3 0 150000, tSched, by decide +kernel⟩,
   ⟨tNet (tStop) tHub, .hl1, 0, 750000, tFrame 5 5 0 2 false 20 ([0, 0, 1] ++ List.replicate 17 0), tSlot 5 6 0 250000, by decide +kernel⟩,
   ⟨tNet (tStop) { tNode with state := .sync, join := { HlJoin.reset with asked := [(0, 0, 0)] } }, .hl1, 0, 10, tFrame 5 5 0 1 true 20 ([1, 0, 2] ++ List.replicate 17 0), 0, 0, 5, by decide +kernel⟩,
   ⟨tNet (tStop) tHub, .hl1, 0, 700000, tFrame 6 4 0 2 false 4 [0, 0, 0, 0], tSlot 4 4 2 200000, by decide +kernel⟩,
   ⟨tNet (tStop) tHub, .hl1, 1, tSlot 1 1 2 50000, by decide +kernel⟩,
   ⟨tNet (tStop) tHub, .hl1, 0, tSlot 0 0 0 0, 300, by decide +kernel⟩,
   ⟨tNet (tStop) { tNode with state := .integrated, own := some 3, join := { HlJoin.reset with upA := some false } }, .hl1, 3, tSlot 3 3 0 150000, 0, by decide +kernel⟩,
   ⟨tNet (tStop) { tNode with state := .integrated }, .hl1, 2, tSlot 2 2 255 100000, by decide +kernel⟩⟩

/-- States and operands that meet the hypotheses of `Obligations.HeathlineLimitsChangeTheState`, clause by clause. -/
theorem meets_heathline_limits_change_the_state :
    (∃ (s : State) (n : Net), s.netUp n = true ∧ (s.net n).state = .listen ∧ s.now < (s.net n).since + (s.net n).cyclesCounts 8 + countsMs) ∧
    (∃ (s : State) (n : Net), s.netUp n = true ∧ (s.net n).state = .listen ∧ (s.net n).since + (s.net n).cyclesCounts 8 + countsMs ≤ s.now) ∧
    (∃ (s : State) (n : Net), s.netUp n = true ∧ (s.net n).state = .coldstart ∧ s.now < (s.net n).since + (s.net n).cyclesCounts 8) ∧
    (∃ (s : State) (n : Net), s.netUp n = true ∧ (s.net n).state = .coldstart ∧ (s.net n).since + (s.net n).cyclesCounts 8 ≤ s.now) ∧
    (∃ (s : State) (n : Net), s.netUp n = true ∧ (s.net n).state = .wait ∧ s.now < (s.net n).since + (s.net n).cyclesCounts 16) ∧
    (∃ (s : State) (n : Net), s.netUp n = true ∧ (s.net n).state = .wait ∧ (s.net n).since + (s.net n).cyclesCounts 16 ≤ s.now) ∧
    (∃ (s : State) (n : Net), s.netUp n = true ∧ (s.net n).state = .observe ∧ s.now < (s.net n).since + (s.net n).cyclesCounts 16) ∧
    (∃ (s : State) (n : Net), s.netUp n = true ∧ (s.net n).state = .observe ∧ (s.net n).since + (s.net n).cyclesCounts 16 ≤ s.now) ∧
    (∃ (s : State) (n : Net), s.netUp n = true ∧ ((s.net n).state = .sync ∨ (s.net n).state = .observe ∨ (s.net n).state = .integrated) ∧ (s.net n).noBeacon < 4) ∧
    (∃ (s : State) (n : Net), s.netUp n = true ∧ ((s.net n).state = .sync ∨ (s.net n).state = .observe ∨ (s.net n).state = .integrated) ∧ 4 ≤ (s.net n).noBeacon ∧ (s.net n).state = .integrated) ∧
    (∃ (s : State) (n : Net), s.netUp n = true ∧ (s.net n).hub = true ∧ (s.net n).state = .integrated ∧ (s.net n).noBeacon < 2) ∧
    (∃ (s : State) (n : Net), s.netUp n = true ∧ (s.net n).hub = true ∧ (s.net n).state = .integrated ∧ 2 ≤ (s.net n).noBeacon) ∧
    (∃ (s : State) (n : Net), s.netUp n = true ∧ (s.net n).isIntegrated = true ∧ (s.net n).refusals.length < 8) ∧
    (∃ (s : State) (n : Net), s.netUp n = true ∧ (s.net n).isIntegrated = true ∧ 8 ≤ (s.net n).refusals.length) ∧
    (∃ (s : State) (n : Net), s.netUp n = true ∧ (s.net n).hub = true ∧ (s.net n).isIntegrated = true ∧ (s.net n).port2 = 2 ∧ 2 ≤ (s.net n).ringMissA) ∧
    (∃ (s : State) (n : Net), s.netUp n = true ∧ (s.net n).hub = true ∧ (s.net n).isIntegrated = true ∧ (s.net n).port2 = 2 ∧ 2 ≤ (s.net n).ringMissB) ∧
    (∃ (s : State) (n : Net), s.netUp n = true ∧ (s.net n).hub = true ∧ (s.net n).isIntegrated = true ∧ (s.net n).port2 = 2 ∧ (s.net n).ringMissA < 2) ∧
    (∃ (s : State) (n : Net) (j k : Nat), s.netUp n = true ∧ (s.net n).claim = some (j, k)) ∧
    (∃ (s : State) (n : Net), s.netUp n = true ∧ (s.net n).hub = true) ∧
    (∃ (s : State), s.domOn 4 = true) :=
  ⟨⟨tNet (tStop) { tNode with state := .listen }, .hl1, by decide +kernel⟩,
   ⟨{ tNet (tStop) { tNode with state := .listen } with tbu := { tStop.tbu with count := 4000000 + countsMs } }, .hl1, by decide +kernel⟩,
   ⟨tNet (tStop) { tNode with state := .coldstart }, .hl1, by decide +kernel⟩,
   ⟨{ tNet (tStop) { tNode with state := .coldstart } with tbu := { tStop.tbu with count := 4000000 } }, .hl1, by decide +kernel⟩,
   ⟨tNet (tStop) { tNode with state := .wait }, .hl1, by decide +kernel⟩,
   ⟨{ tNet (tStop) { tNode with state := .wait } with tbu := { tStop.tbu with count := 8000000 } }, .hl1, by decide +kernel⟩,
   ⟨tNet (tStop) { tNode with state := .observe }, .hl1, by decide +kernel⟩,
   ⟨{ tNet (tStop) { tNode with state := .observe } with tbu := { tStop.tbu with count := 8000000 } }, .hl1, by decide +kernel⟩,
   ⟨tNet (tStop) { tNode with state := .sync, noBeacon := 3 }, .hl1, by decide +kernel⟩,
   ⟨tNet (tStop) { tNode with state := .integrated, noBeacon := 4 }, .hl1, by decide +kernel⟩,
   ⟨tNet (tStop) { tNode with hub := true, state := .integrated, noBeacon := 1 }, .hl1, by decide +kernel⟩,
   ⟨tNet (tStop) { tNode with hub := true, state := .integrated, noBeacon := 2 }, .hl1, by decide +kernel⟩,
   ⟨tNet (tStop) { tNode with state := .integrated, refusals := List.replicate 7 0 }, .hl1, by decide +kernel⟩,
   ⟨tNet (tStop) { tNode with state := .integrated, refusals := List.replicate 8 0 }, .hl1, by decide +kernel⟩,
   ⟨tNet (tStop) { tHub with port2 := 2, ringMissA := 2 }, .hl1, by decide +kernel⟩,
   ⟨tNet (tStop) { tHub with port2 := 2, ringMissB := 2 }, .hl1, by decide +kernel⟩,
   ⟨tNet (tStop) { tHub with port2 := 2, ringMissA := 1 }, .hl1, by decide +kernel⟩,
   ⟨tNet (tStop) { tNode with claim := some (3, 1) }, .hl1, 3, 1, by decide +kernel⟩,
   ⟨tNet (tStop) tHub, .hl1, by decide +kernel⟩,
   ⟨tStop, by decide +kernel⟩⟩

/-- States and operands that meet the hypotheses of `Obligations.SysRestartColdWins`, clause by clause. -/
theorem meets_sys_restart_cold_wins :
    (∃ (s : State) (v : Word), s.domOn 5 = true ∧ s.sys.mode = .halt ∧ s.sys.haltCause ≠ 2 ∧ (v >>> 8).setWidth 8 = (0xA5 : Byte) ∧ v.getLsbD 0 = true ∧ v.getLsbD 1 = true) ∧
    (∃ (s : State), s.domOn 5 = true ∧ s.sys.mode ≠ .halt) :=
  ⟨⟨tHalt 4, 0xA503, by decide +kernel⟩,
   ⟨tStop, by decide +kernel⟩⟩

/-- States and operands that meet the hypotheses of `Obligations.EventBitsMaskAndHostConfiguration`, clause by clause. -/
theorem meets_event_bits_mask_and_host_configuration :
    (∃ (s : State), s.domOn 5 = true) ∧
    (∃ (s : State), s.domOn 5 = true ∧ s.host.masked 9 = false) :=
  ⟨⟨tStop, by decide +kernel⟩,
   ⟨{ tStop with host := { tStop.host with msixTable := Tbl.set msixDefault [] 39 0 } }, by decide +kernel⟩⟩

/-- A state and operands that meet the hypotheses of `Obligations.OnePinForBothPaths`. -/
theorem meets_one_pin_for_both_paths :
    (∃ (s : State), s.domOn 5 = true ∧ s.sys.legacyWrite = true ∧ s.sys.mode ≠ .halt ∧ s.sys.substate ≠ 6) :=
  ⟨tStop, by decide +kernel⟩

/-- States and operands that meet the hypotheses of `Obligations.VariantIsFixed`, clause by clause. -/
theorem meets_variant_is_fixed :
    (∃ (s : State) (p : Party) (w : Word), s.reg p 0 = some w) ∧
    (∃ (s t : State) (c : Instr), exec c s = .next t) :=
  ⟨⟨tStop, .pcie, 0x00027300, by decide +kernel⟩,
   ⟨tStop, effBistDue tStop, .bistDue, rfl⟩⟩

/-- A state and operands that meet the hypotheses of `Obligations.CapturesFreeze`. -/
theorem meets_captures_freeze :
    (∃ (s : State) (p : Party) (i : Nat), s.lifeline = false ∧ s.partyUp p = true ∧ partyIx p = some i) :=
  ⟨tStop, .pcie, 0, by decide +kernel⟩

/-- States and operands that meet the hypotheses of `Obligations.RegisterWritesReachTheirFields`, clause by clause. -/
theorem meets_register_writes_reach_their_fields :
    (∃ (s : State) (data : Bytes), s.domOn 5 = true ∧ data.length = 4) ∧
    (∃ (s : State) (data : Bytes), s.domOn 5 = true ∧ s.lifeline = false ∧ data.length = 4) ∧
    (∃ (s : State) (be : Byte), s.domOn 5 = true ∧ be &&& 0x0F ≠ 0x0F) ∧
    (∃ (s : State) (n : Fin 8) (o : Nat) (be : Byte) (data : Bytes), ∃ k, s.domOn 5 = true ∧ s.mailboxUp = true ∧ s.lifeline = false ∧ (s.ring n).enabled = true ∧ (s.ring n).base.toNat * 64 ≤ o ∧ o + data.length ≤ (s.ring n).base.toNat * 64 + (s.ring n).depth * 64 ∧ o + data.length ≤ 0x100000 ∧ data.length ≤ 8 ∧ k < data.length ∧ be.getLsbD k = true) ∧
    (∃ (s : State) (n : Fin 8) (o : Nat) (be : Byte) (data : Bytes), ∃ a, s.domOn 5 = true ∧ s.mailboxUp = true ∧ s.lifeline = false ∧ (s.ring n).enabled = true ∧ (s.ring n).base.toNat * 64 ≤ o ∧ o + data.length ≤ (s.ring n).base.toNat * 64 + (s.ring n).depth * 64 ∧ o + data.length ≤ 0x100000 ∧ data.length ≤ 8 ∧ (∀ k, k < data.length → be.getLsbD k = true → a ≠ o + k)) ∧
    (∃ (s : State), s.domOn 5 = true) :=
  ⟨⟨tStop, [0, 0, 0, 0], by decide +kernel⟩,
   ⟨tStop, [0, 0, 0, 0], by decide +kernel⟩,
   ⟨tStop, 0x0E, by decide +kernel⟩,
   ⟨{ tStop with rings := Tbl.set Ring.reset [] 0 { Ring.reset 0 with enabled := true } }, 0, 0, 0xFF, List.replicate 8 0, 7, by decide +kernel⟩,
   ⟨{ tStop with rings := Tbl.set Ring.reset [] 7 { Ring.reset 7 with enabled := true } }, 7, 16376, 0xFF, List.replicate 8 0, 16384, by decide +kernel⟩,
   ⟨tStop, by decide +kernel⟩⟩

/-- States and operands that meet the hypotheses of `Obligations.LegacyHalvesMakeAWord`, clause by clause. -/
theorem meets_legacy_halves_make_a_word :
    (∃ (s : State) (a : BitVec 24), s.legacyHit a = true ∧ a.toNat % 65536 = 0x1C ∧ s.lifeline = false) ∧
    (∃ (s : State) (a : BitVec 24), s.legacyHit a = true ∧ a.toNat % 65536 = 0x1C) ∧
    (∃ (s : State) (a b : BitVec 24) (lo : BitVec 16), s.legacyHit b = true ∧ b.toNat % 65536 = 0x1E ∧ s.host.writeLatch = some (a, lo) ∧ a.toNat + 2 = b.toNat) :=
  ⟨⟨{ tStop with mfg := { tStop.mfg with lbase := 0x12 } }, 0x12001C, by decide +kernel⟩,
   ⟨{ tStop with mfg := { tStop.mfg with lbase := 0x12 } }, 0x12001C, by decide +kernel⟩,
   ⟨{ tStop with mfg := { tStop.mfg with lbase := 0x12 }, host := { tStop.host with writeLatch := some (0x12001C, 0) } }, 0x12001C, 0x12001E, 0, by decide +kernel⟩⟩

/-! ## Ill-formed terms are refused -/

theorem wf_refuses_uplink : (Instr.uplinkFrame 0 (List.replicate 9 0)).wf = false := by decide +kernel
theorem wf_refuses_command : (Instr.commandFrame 0 (List.replicate 9 0)).wf = false := by decide +kernel
theorem wf_refuses_entry : (Instr.cmdSubmit ⟨1, false⟩ 12 (List.replicate 63 0)).wf = false := by decide +kernel
theorem wf_refuses_log : (Instr.eventLog ⟨1, false⟩ 0x8000 (List.replicate 13 0)).wf = false := by decide +kernel
theorem wf_refuses_offer (a : Byte) (c : BitVec 16) (v : BitVec 4) (r : Nat) :
    (Instr.eventOffer a c v (List.replicate 13 0) r).wf = false := by simp [Instr.wf]
theorem wf_refuses_fault : (Instr.faultRaise ⟨1, false⟩ 0 (List.replicate 11 0)).wf = false := by decide +kernel
theorem wf_refuses_beacon : (Instr.beaconFrame .hl1 0 0 (List.replicate 1501 0)).wf = false := by
  simp only [Instr.wf, List.length_replicate, maxFrame]; decide
theorem wf_refuses_data : (Instr.dataFrame .hl1 0 0 (List.replicate 1501 0)).wf = false := by
  simp only [Instr.wf, List.length_replicate, maxFrame]; decide
theorem wf_refuses_coldstart : (Instr.coldstartFrame .hl1 0 0 (List.replicate 1501 0)).wf = false := by
  simp only [Instr.wf, List.length_replicate, maxFrame]; decide
theorem wf_refuses_claim : (Instr.claimFrame .hl1 0 0 (List.replicate 1501 0)).wf = false := by
  simp only [Instr.wf, List.length_replicate, maxFrame]; decide
theorem wf_refuses_delay : (Instr.delayFrame .hl1 0 0 (List.replicate 1501 0)).wf = false := by
  simp only [Instr.wf, List.length_replicate, maxFrame]; decide
theorem wf_refuses_acyclic : (Instr.acyclicFrame .hl1 0 0 (List.replicate 1501 0)).wf = false := by
  simp only [Instr.wf, List.length_replicate, maxFrame]; decide
theorem wf_refuses_load : (Instr.remoteWindowLoad 1 0 3).wf = false := by decide
theorem wf_refuses_store : (Instr.remoteWindowStore 1 0 [1, 2, 3]).wf = false := by decide
theorem wf_refuses_register (o : Nat) (e : Byte) : (Instr.registerWrite .pcie o e [1, 2]).wf = false := by simp [Instr.wf]
theorem wf_refuses_message : (Instr.messageReceived 0 0 (List.replicate 65537 0)).wf = false := by
  simp only [Instr.wf, List.length_replicate]; decide
theorem wf_refuses_blocks : (Instr.usbRecoveryImage [] [[0]]).wf = false := by decide

/-! ## Check values that the spec gives over "123456789" (R265, R407) -/

def tDigits : Bytes := [0x31, 0x32, 0x33, 0x34, 0x35, 0x36, 0x37, 0x38, 0x39]
theorem test_header_crc : crc16 tDigits = 0x29B1 := by decide +kernel
theorem test_frame_crc : crc32 tDigits = 0xCBF43926 := by decide +kernel
theorem test_update_crc : crc32c tDigits = 0xE3069283 := by decide +kernel

/-! ## Single commands, the results from the spec -/

/-- The state that a command answers. -/
def tDo (c : Instr) (s : State) : State :=
  match exec c s with
  | .next t => t
  | _ => s
/-- R37: the reset column of SYS_MODE. -/
theorem test_reset_mode : modeCode State.reset.sys.mode = 1 := by decide
/-- R36, R38: MODE_RUN enters RUN, code 0x3; outside STOP it changes no mode. -/
theorem test_mode_run : modeCode (tDo (.modeRun 7 tBody) (tCmd (tLoaded tStop tCont) 0x2010 [] 0 false)).sys.mode = 3 := by
  decide +kernel
theorem test_mode_run_wrong : modeCode (tDo (.modeRun 7 tBody) (tCmd (tService 1) 0x2010 [] 0 false)).sys.mode = 5 := by
  decide +kernel
/-- R361: a feed is lost below 19.2 V, 153.6 steps of 0.125 V. -/
theorem test_feed_low : (tDo (.feedLoss .l1 153) tStop).pwr.l1ok = false := by decide +kernel
theorem test_feed_good : (tDo (.feedLoss .l1 154) tStop).pwr.l1ok = true := by decide +kernel
/-- R51: SYS_RESTART with key 0xA5 and COLD leaves HALT for START; with another key it is ignored. -/
theorem test_restart : modeCode (tDo (.sysRestartCold .pcie 0xA502) (tHalt 4)).sys.mode = 1 := by decide +kernel
theorem test_restart_key : modeCode (tDo (.sysRestartCold .pcie 0x5A02) (tHalt 4)).sys.mode = 6 := by decide +kernel
/-- R65: a consumer index behind the producer is taken, one beyond it sets CONS_ERR. -/
theorem test_consumer : ((tDo (.cplConsWrite .pcie 0 1) (tRecords tStop 0)).ring 0).cplCons = 1 := by decide +kernel
theorem test_consumer_error : ((tDo (.cplConsWrite .pcie 0 2) (tRecords tStop 0)).ring 0).consErr = true := by decide +kernel
/-- R199: COUNT is most significant byte first in bytes 3 and 4, SUPPLY byte 6. -/
theorem test_uplink_count : ((tDo (.uplinkFrame 3 (uplinkOf 3 0 0x0102 0 192)) tStop).chan 3).count = 0x0102 := by decide +kernel
theorem test_uplink_supply : ((tDo (.uplinkFrame 3 (uplinkOf 3 0 0 0 192)) tStop).chan 3).supply = 192 := by decide +kernel
/-- R221: OUT is bit 3 of byte 2: both switches of a standard output close. -/
theorem test_command_out : ((tDo (.commandFrame 3 (cmdFrame 3 1 true .idle false false 0)) (tCell tStop (tMode 6))).cell 3).hi = true := by
  decide +kernel
/-- R342: the holder of a semaphore keeps it. -/
theorem test_semaphore : ((tDo (.semaphoreAcquire .pcie 5 0)
    { tStop with stl := { tStop.stl with ctxs := Tbl.set (fun _ => Ctx.reset) [] 0 { Ctx.reset with owner := 1 } } }).sem 5).held = true := by
  decide +kernel
/-- R265: a frame whose last byte is changed is not complete. -/
theorem test_frame_broken : (let f := tFrame 2 1 0 2 false 4 [1, 2, 3, 4]; crcOk f && !crcOk (patch f 23 [byteAt f 23 ^^^ 1])) = true := by decide +kernel
/-- A word spells no command: the rows give no bits. -/
theorem test_decode (n w : Nat) : decodeTableWord n w = none := rfl

end Sys2Proof.Machine.Tests
end

section
/-! What every command keeps, and the obligations of 00_scope.md: soundness along every step, the fixed variant. -/

namespace Sys2Proof.Machine

/-! ## Every command goes on -/

/-- An outcome that goes on from `s` and keeps what no command may change. -/
def GoesOnKeeping (s : State) (r : Res) : Prop := ∃ t, r = .next t ∧ Keeps s t

theorem GoesOnKeeping.next {s t : State} (h : Keeps s t) : GoesOnKeeping s (.next t) := ⟨t, rfl, h⟩

/-- One arm per command, as in `exec`: its effect keeps what no command may change. -/
theorem exec_goesOnKeeping (s : State) : ∀ c : Instr, GoesOnKeeping s (exec c s)
  | .powerUp .. => .next (effPowerUp_keep (.refl s))
  | .reserveReady .. => .next (effReserveReady_keep (.refl s))
  | .holdupReady .. => .next (effHoldupReady_keep (.refl s))
  | .feedLoss .. => .next (effFeedLoss_keep (.refl s))
  | .feedRestored .. => .next (effFeedRestored_keep (.refl s))
  | .onHoldup .. => .next (effOnHoldup_keep (.refl s))
  | .supplyReturn .. => .next (effSupplyReturn_keep (.refl s))
  | .powerFailSequence .. => .next (effPowerFailSequence_keep (.refl s))
  | .temperatureWarning .. => .next (effTemperatureWarning_keep (.refl s))
  | .overtemperature .. => .next (effOvertemperature_keep (.refl s))
  | .rootPllLoss .. => .next (effRootPllLoss_keep (.refl s))
  | .referenceOscillatorLoss .. => .next (effReferenceOscillatorLoss_keep (.refl s))
  | .crossingReset .. => .next (effCrossingReset_keep (.refl s))
  | .sramScrub .. => .next (effSramScrub_keep (.refl s))
  | .memoryUncorrectable .. => .next (effMemoryUncorrectable_keep (.refl s))
  | .supervisorSelfCheckFail .. => .next (effSupervisorSelfCheckFail_keep (.refl s))
  | .coldStart .. => .next (effColdStart_keep (.refl s))
  | .warmStart .. => .next (effWarmStart_keep (.refl s))
  | .startIntoFollow .. => .next (effStartIntoFollow_keep (.refl s))
  | .startStepLimit .. => .next (effStartStepLimit_keep (.refl s))
  | .failCountExpiry .. => .next (effFailCountExpiry_keep (.refl s))
  | .doorbellWrite .. => .next (effDoorbellWrite_keep (.refl s))
  | .cplConsWrite .. => .next (effCplConsWrite_keep (.refl s))
  | .takeEntry .. => .next (effTakeEntry_keep (.refl s))
  | .partnerNoAck .. => .next (effPartnerNoAck_keep (.refl s))
  | .irqTimerExpiry .. => .next (effIrqTimerExpiry_keep (.refl s))
  | .nop .. => .next (effNop_keep (.refl s))
  | .statusGet .. => .next (effStatusGet_keep (.refl s))
  | .handleQuery .. => .next (effHandleQuery_keep (.refl s))
  | .modeRun .. => .next (effModeRun_keep (.refl s))
  | .modeStop .. => .next (effModeStop_keep (.refl s))
  | .serviceEnter .. => .next (effServiceEnter_keep (.refl s))
  | .serviceLeave .. => .next (effServiceLeave_keep (.refl s))
  | .startWarm .. => .next (effStartWarm_keep (.refl s))
  | .startCold .. => .next (effStartCold_keep (.refl s))
  | .shutdown .. => .next (effShutdown_keep (.refl s))
  | .shutdownDrainLimit .. => .next (effShutdownDrainLimit_keep (.refl s))
  | .roleSwap .. => .next (effRoleSwap_keep (.refl s))
  | .swapBoundary .. => .next (effSwapBoundary_keep (.refl s))
  | .containerLoad .. => .next (effContainerLoad_keep (.refl s))
  | .onlineChange .. => .next (effOnlineChange_keep (.refl s))
  | .preCopyPass .. => .next (effPreCopyPass_keep (.refl s))
  | .drain .. => .next (effDrain_keep (.refl s))
  | .switchWindow .. => .next (effSwitchWindow_keep (.refl s))
  | .forceSet .. => .next (effForceSet_keep (.refl s))
  | .forceClear .. => .next (effForceClear_keep (.refl s))
  | .forceList .. => .next (effForceList_keep (.refl s))
  | .persistentReset .. => .next (effPersistentReset_keep (.refl s))
  | .configLoad .. => .next (effConfigLoad_keep (.refl s))
  | .safetyParamChange .. => .next (effSafetyParamChange_keep (.refl s))
  | .passwordLockoutEnd .. => .next (effPasswordLockoutEnd_keep (.refl s))
  | .safetyAck .. => .next (effSafetyAck_keep (.refl s))
  | .updateManifest .. => .next (effUpdateManifest_keep (.refl s))
  | .updateBlock .. => .next (effUpdateBlock_keep (.refl s))
  | .updateArm .. => .next (effUpdateArm_keep (.refl s))
  | .updateCancel .. => .next (effUpdateCancel_keep (.refl s))
  | .checkPoint .. => .next (effCheckPoint_keep (.refl s))
  | .activationBoundary .. => .next (effActivationBoundary_keep (.refl s))
  | .fuseRule .. => .next (effFuseRule_keep (.refl s))
  | .identityGet .. => .next (effIdentityGet_keep (.refl s))
  | .attest .. => .next (effAttest_keep (.refl s))
  | .debugToken .. => .next (effDebugToken_keep (.refl s))
  | .debugExpiry .. => .next (effDebugExpiry_keep (.refl s))
  | .bistRun .. => .next (effBistRun_keep (.refl s))
  | .bistConditionCheck .. => .next (effBistConditionCheck_keep (.refl s))
  | .bistDue .. => .next (effBistDue_keep (.refl s))
  | .plantJumpAccept .. => .next (effPlantJumpAccept_keep (.refl s))
  | .stileTransfer .. => .next (effStileTransfer_keep (.refl s))
  | .stileLogAck .. => .next (effStileLogAck_keep (.refl s))
  | .v1Nop .. => .next (effV1Nop_keep (.refl s))
  | .statusV1 .. => .next (effStatusV1_keep (.refl s))
  | .goV1 .. => .next (effGoV1_keep (.refl s))
  | .holdV1 .. => .next (effHoldV1_keep (.refl s))
  | .restartV1 .. => .next (effRestartV1_keep (.refl s))
  | .initV1 .. => .next (effInitV1_keep (.refl s))
  | .progLoad .. => .next (effProgLoad_keep (.refl s))
  | .forceAddr .. => .next (effForceAddr_keep (.refl s))
  | .unforceAddr .. => .next (effUnforceAddr_keep (.refl s))
  | .remoteXfer .. => .next (effRemoteXfer_keep (.refl s))
  | .cycleInfo .. => .next (effCycleInfo_keep (.refl s))
  | .timeGet .. => .next (effTimeGet_keep (.refl s))
  | .tbuRead .. => .next (effTbuRead_keep (.refl s))
  | .cmdSubmit .. => .next (effCmdSubmit_keep (.refl s))
  | .cplNext .. => .next (effCplNext_keep (.refl s))
  | .errEvents .. => .next (effErrEvents_keep (.refl s))
  | .commitInfo .. => .next (effCommitInfo_keep (.refl s))
  | .forceInfo .. => .next (effForceInfo_keep (.refl s))
  | .eventLog .. => .next (effEventLog_keep (.refl s))
  | .changeInfo .. => .next (effChangeInfo_keep (.refl s))
  | .faultRaise .. => .next (effFaultRaise_keep (.refl s))
  | .baseTick .. => .next (effBaseTick_keep (.refl s))
  | .latchPoint .. => .next (effLatchPoint_keep (.refl s))
  | .publishPoint .. => .next (effPublishPoint_keep (.refl s))
  | .retentiveCommit .. => .next (effRetentiveCommit_keep (.refl s))
  | .commitMade .. => .next (effCommitMade_keep (.refl s))
  | .initTaskTimeout .. => .next (effInitTaskTimeout_keep (.refl s))
  | .channelTick .. => .next (effChannelTick_keep (.refl s))
  | .networkCycleStart .. => .next (effNetworkCycleStart_keep (.refl s))
  | .sampleInstant .. => .next (effSampleInstant_keep (.refl s))
  | .commandFrame .. => .next (effCommandFrame_keep (.refl s))
  | .uplinkFrame .. => .next (effUplinkFrame_keep (.refl s))
  | .uplinkDeadline .. => .next (effUplinkDeadline_keep (.refl s))
  | .couplerLost .. => .next (effCouplerLost_keep (.refl s))
  | .couplerRecovered .. => .next (effCouplerRecovered_keep (.refl s))
  | .cellSupplyLoss .. => .next (effCellSupplyLoss_keep (.refl s))
  | .cellRestarted .. => .next (effCellRestarted_keep (.refl s))
  | .counterEdge .. => .next (effCounterEdge_keep (.refl s))
  | .discrepancy .. => .next (effDiscrepancy_keep (.refl s))
  | .inputStageTest .. => .next (effInputStageTest_keep (.refl s))
  | .cellFault .. => .next (effCellFault_keep (.refl s))
  | .testDue .. => .next (effTestDue_keep (.refl s))
  | .testPhaseEnd .. => .next (effTestPhaseEnd_keep (.refl s))
  | .overload .. => .next (effOverload_keep (.refl s))
  | .thermalLimit .. => .next (effThermalLimit_keep (.refl s))
  | .overloadReclose .. => .next (effOverloadReclose_keep (.refl s))
  | .supplyLow .. => .next (effSupplyLow_keep (.refl s))
  | .cellUndervoltageTrip .. => .next (effCellUndervoltageTrip_keep (.refl s))
  | .groupUndervoltageTrip .. => .next (effGroupUndervoltageTrip_keep (.refl s))
  | .supplyRecovery .. => .next (effSupplyRecovery_keep (.refl s))
  | .holdTimeExpired .. => .next (effHoldTimeExpired_keep (.refl s))
  | .egressEvent .. => .next (effEgressEvent_keep (.refl s))
  | .lateLane .. => .next (effLateLane_keep (.refl s))
  | .laneException .. => .next (effLaneException_keep (.refl s))
  | .scrubPass .. => .next (effScrubPass_keep (.refl s))
  | .partialSelfTestComplete .. => .next (effPartialSelfTestComplete_keep (.refl s))
  | .backgroundCopyComplete .. => .next (effBackgroundCopyComplete_keep (.refl s))
  | .finalPass .. => .next (effFinalPass_keep (.refl s))
  | .resyncTimeout .. => .next (effResyncTimeout_keep (.refl s))
  | .testWindow .. => .next (effTestWindow_keep (.refl s))
  | .voterFault .. => .next (effVoterFault_keep (.refl s))
  | .repairTimerMilestone .. => .next (effRepairTimerMilestone_keep (.refl s))
  | .repairTimerExpiry .. => .next (effRepairTimerExpiry_keep (.refl s))
  | .lockstepMismatch .. => .next (effLockstepMismatch_keep (.refl s))
  | .cacheEccError .. => .next (effCacheEccError_keep (.refl s))
  | .pairSelfTestComplete .. => .next (effPairSelfTestComplete_keep (.refl s))
  | .checkpointRestore .. => .next (effCheckpointRestore_keep (.refl s))
  | .programAccessRefused .. => .next (effProgramAccessRefused_keep (.refl s))
  | .remoteWindowLoad .. => .next (effRemoteWindowLoad_keep (.refl s))
  | .remoteWindowStore .. => .next (effRemoteWindowStore_keep (.refl s))
  | .readTimeout .. => .next (effReadTimeout_keep (.refl s))
  | .beaconFrame .. => .next (effBeaconFrame_keep (.refl s))
  | .dataFrame .. => .next (effDataFrame_keep (.refl s))
  | .coldstartFrame .. => .next (effColdstartFrame_keep (.refl s))
  | .claimFrame .. => .next (effClaimFrame_keep (.refl s))
  | .delayFrame .. => .next (effDelayFrame_keep (.refl s))
  | .acyclicFrame .. => .next (effAcyclicFrame_keep (.refl s))
  | .slotStart .. => .next (effSlotStart_keep (.refl s))
  | .acceptanceWindowEnd .. => .next (effAcceptanceWindowEnd_keep (.refl s))
  | .listenTimeout .. => .next (effListenTimeout_keep (.refl s))
  | .coldstartWindowEnd .. => .next (effColdstartWindowEnd_keep (.refl s))
  | .waitTimeout .. => .next (effWaitTimeout_keep (.refl s))
  | .observeTimeout .. => .next (effObserveTimeout_keep (.refl s))
  | .beaconLoss .. => .next (effBeaconLoss_keep (.refl s))
  | .hubAssumesReference .. => .next (effHubAssumesReference_keep (.refl s))
  | .guardianLimit .. => .next (effGuardianLimit_keep (.refl s))
  | .ringSplit .. => .next (effRingSplit_keep (.refl s))
  | .claimAbandoned .. => .next (effClaimAbandoned_keep (.refl s))
  | .grantReleased .. => .next (effGrantReleased_keep (.refl s))
  | .linkChange .. => .next (effLinkChange_keep (.refl s))
  | .heartbeat .. => .next (effHeartbeat_keep (.refl s))
  | .heartbeatSend .. => .next (effHeartbeatSend_keep (.refl s))
  | .heartbeatLoss .. => .next (effHeartbeatLoss_keep (.refl s))
  | .claimReleased .. => .next (effClaimReleased_keep (.refl s))
  | .claimRecognised .. => .next (effClaimRecognised_keep (.refl s))
  | .claimWatchdogExpiry .. => .next (effClaimWatchdogExpiry_keep (.refl s))
  | .cycleMirror .. => .next (effCycleMirror_keep (.refl s))
  | .mirrorAck .. => .next (effMirrorAck_keep (.refl s))
  | .mirrorStretchLimit .. => .next (effMirrorStretchLimit_keep (.refl s))
  | .pairLinkLaneLoss .. => .next (effPairLinkLaneLoss_keep (.refl s))
  | .resyncPhaseComplete .. => .next (effResyncPhaseComplete_keep (.refl s))
  | .catchUpTimeout .. => .next (effCatchUpTimeout_keep (.refl s))
  | .exerciseDue .. => .next (effExerciseDue_keep (.refl s))
  | .messageReceived .. => .next (effMessageReceived_keep (.refl s))
  | .remoteAnswer .. => .next (effRemoteAnswer_keep (.refl s))
  | .responseLimit .. => .next (effResponseLimit_keep (.refl s))
  | .semaphoreAcquire .. => .next (effSemaphoreAcquire_keep (.refl s))
  | .semaphoreRelease .. => .next (effSemaphoreRelease_keep (.refl s))
  | .semaphoreHoldLimit .. => .next (effSemaphoreHoldLimit_keep (.refl s))
  | .busOff .. => .next (effBusOff_keep (.refl s))
  | .serviceWatchdogExpiry .. => .next (effServiceWatchdogExpiry_keep (.refl s))
  | .ptpSample .. => .next (effPtpSample_keep (.refl s))
  | .eventOffer .. => .next (effEventOffer_keep (.refl s))
  | .tokenRefill .. => .next (effTokenRefill_keep (.refl s))
  | .opTimeSave .. => .next (effOpTimeSave_keep (.refl s))
  | .sysRestartWarm .. => .next (effSysRestartWarm_keep (.refl s))
  | .sysRestartCold .. => .next (effSysRestartCold_keep (.refl s))
  | .sysEventClear .. => .next (effSysEventClear_keep (.refl s))
  | .sysEventMaskWrite .. => .next (effSysEventMaskWrite_keep (.refl s))
  | .hostcfgLock .. => .next (effHostcfgLock_keep (.refl s))
  | .pin .. => .next (effPin_keep (.refl s))
  | .pinClear .. => .next (effPinClear_keep (.refl s))
  | .slotCounterCapture .. => .next (effSlotCounterCapture_keep (.refl s))
  | .tbuCapture .. => .next (effTbuCapture_keep (.refl s))
  | .hayrickCapture .. => .next (effHayrickCapture_keep (.refl s))
  | .legacyLowHalfRead .. => .next (effLegacyLowHalfRead_keep (.refl s))
  | .legacyLowHalfWrite .. => .next (effLegacyLowHalfWrite_keep (.refl s))
  | .legacyHighHalfWrite .. => .next (effLegacyHighHalfWrite_keep (.refl s))
  | .registerWrite .. => .next (effRegisterWrite_keep (.refl s))
  | .pcieLinkReset .. => .next (effPcieLinkReset_keep (.refl s))
  | .usbRecoveryImage .. => .next (effUsbRecoveryImage_keep (.refl s))
  | .pairLinkLaneRestored .. => .next (effPairLinkLaneRestored_keep (.refl s))
  | .plantEthernetLinkChange .. => .next (effPlantEthernetLinkChange_keep (.refl s))
  | .ptpMessage .. => .next (effPtpMessage_keep (.refl s))
  | .messageTransmitted .. => .next (effMessageTransmitted_keep (.refl s))
  | .busOffRecovery .. => .next (effBusOffRecovery_keep (.refl s))
  | .junctionCooled .. => .next (effJunctionCooled_keep (.refl s))
  | .dramPatrolScrub .. => .next (effDramPatrolScrub_keep (.refl s))
  | .tcmEccError .. => .next (effTcmEccError_keep (.refl s))
  | .firewallRefusal .. => .next (effFirewallRefusal_keep (.refl s))
  | .mirroredItem .. => .next (effMirroredItem_keep (.refl s))
  | .testAnnouncement .. => .next (effTestAnnouncement_keep (.refl s))
  | .transientReadmissionExpiry .. => .next (effTransientReadmissionExpiry_keep (.refl s))
  | .exclusionExpiry .. => .next (effExclusionExpiry_keep (.refl s))

/-- What a command keeps, read off the state it answers. -/
theorem keeps_of_exec {c : Instr} {s t : State} (h : exec c s = .next t) : Keeps s t := by
  obtain ⟨u, hu, hk⟩ := exec_goesOnKeeping s c
  obtain rfl : u = t := by simpa [h] using hu.symm
  exact hk

/-! ## Every step goes on -/

/-- The queue is no part of soundness. -/
theorem State.sound.modPending {s : State} {f : List Instr → List Instr} (h : s.sound) : (s.modPending f).sound :=
  ⟨h.mem, h.rings, h.tasks, h.chans, h.cells, h.pairs, h.groups, h.hyk⟩

/-- Every event of a sound recorder was written or dropped (R391, R393). -/
theorem State.sound.raised {s : State} (h : s.sound) : s.hyk.raised = s.hyk.written + s.hyk.dropped := by
  obtain ⟨-, -, -, hr⟩ := h.hyk
  exact hr

/-- A change of the queue that leaves it as it was changes nothing. -/
theorem State.modPending_of_eq {s : State} {f : List Instr → List Instr} (h : f s.pending = s.pending) :
    s.modPending f = s := by
  rw [State.modPending, h]

/-- A step runs the front command on the state with the queue's rest, or idles on an empty queue. -/
theorem step_goesOnKeeping (s : State) : GoesOnKeeping (s.modPending List.tail) (step s) := by
  unfold step
  split
  · next hq =>
    rw [State.modPending_of_eq (by rw [hq]; rfl)]
    exact .next (State.idle_keep (.refl s))
  · next c rest hq =>
    have hs : s.modPending List.tail = s.modPending fun _ => rest := by simp [State.modPending, hq]
    rw [hs]
    exact exec_goesOnKeeping _ c

/-- Settles O4: every arm of `exec` answers an effect that keeps its state (`exec_goesOnKeeping`), and taking a command
off the queue touches neither the fuses nor what soundness speaks of. -/
theorem everyStepGoesOnAndKeepsSoundness : Obligations.EveryStepGoesOnAndKeepsSoundness := by
  refine ⟨fun c s => exec_goesOnKeeping s c, fun s hs => ?_⟩
  obtain ⟨t, ht, hk⟩ := step_goesOnKeeping s
  have hsound : t.sound := hk.sound hs.modPending
  exact ⟨t, ht, hsound, hk.fused, hk.revoked, hsound.raised⟩

/-! ## The variant -/

/-- A register word of three fields, as a sum with no width or position evaluated. -/
theorem fields_three (l₀ w₀ v₀ l₁ w₁ v₁ l₂ w₂ v₂ : Nat) :
    fields [(l₀, w₀, v₀), (l₁, w₁, v₁), (l₂, w₂, v₂)] =
      BitVec.ofNat 32 (v₀ % 2 ^ w₀ * 2 ^ l₀ + (v₁ % 2 ^ w₁ * 2 ^ l₁ + v₂ % 2 ^ w₂ * 2 ^ l₂)) := by
  simp [fields]

/-- SYS_ID as every party reads it: part number, hardware issue, variant (R4, R430). -/
theorem State.reg_sysId (s : State) (p : Party) :
    s.reg p 0 = some (fields [(0, 16, 0x7300), (16, 4, 2), (20, 4, s.mfg.variant.toNat)]) := rfl

/-- Bits 23:20 of SYS_ID: part number and hardware issue end below bit 20. -/
theorem variant_of_sysId (v : BitVec 4) :
    (fields [(0, 16, 0x7300), (16, 4, 2), (20, 4, v.toNat)] >>> 20).setWidth 4 = v := by
  have hv := v.isLt
  apply BitVec.eq_of_toNat_eq
  rw [fields_three, BitVec.toNat_setWidth, BitVec.toNat_ushiftRight, BitVec.toNat_ofNat, Nat.shiftRight_eq_div_pow]
  omega

/-- Settles O57: SYS_ID is made of the variant fixed at manufacture, which every command keeps (`keeps_of_exec`). -/
theorem variantIsFixed : Obligations.VariantIsFixed := by
  refine ⟨fun s p w h => ?_, fun s t c h => (keeps_of_exec h).variant⟩
  rw [State.reg_sysId, Option.some.injEq] at h
  rw [← h, variant_of_sysId, BitVec.setWidth_eq]

end Sys2Proof.Machine
end

section
/-! Latch points that fall on one TBU count, and the obligation of 01_architecture.md about them. -/

namespace Sys2Proof.Machine

/-! ## What a latch point leaves to the other tasks -/

/-- From `s` to `t` nothing changes that could keep a task other than `a` from latching: the mode, a stop, power, a takeover,
recovery and time stay, and of the other tasks at most STATE, which pre-emption decides (R87), differs. -/
structure State.keepsLatching (s t : State) (a : Nat) : Prop where
  mode : t.sys.mode = s.sys.mode
  stop : t.sys.stopJob = s.sys.stopJob
  power : t.pwr = s.pwr
  dpx : t.dpx = s.dpx
  cpr : t.cpr = s.cpr
  time : t.tbu = s.tbu
  others : ∀ k, k ≠ a → ∃ x, t.task k = { s.task k with state := x }

namespace State.keepsLatching

variable {s t u : State} {a k : Nat}

/-- An operation that keeps the tasks and the parts a latch point looks at. -/
theorem of_tasks_eq (hy : t.sys = s.sys) (hp : t.pwr = s.pwr) (hd : t.dpx = s.dpx) (hc : t.cpr = s.cpr)
    (ht : t.tbu = s.tbu) (hk : t.tasks = s.tasks) : s.keepsLatching t a :=
  ⟨by rw [hy], by rw [hy], hp, hd, hc, ht, fun k _ => ⟨(s.task k).state, by unfold State.task; rw [hk]⟩⟩

protected theorem refl (s : State) (a : Nat) : s.keepsLatching s a := of_tasks_eq rfl rfl rfl rfl rfl rfl

protected theorem trans (h : s.keepsLatching t a) (g : t.keepsLatching u a) : s.keepsLatching u a := by
  refine ⟨g.mode.trans h.mode, g.stop.trans h.stop, g.power.trans h.power, g.dpx.trans h.dpx, g.cpr.trans h.cpr,
    g.time.trans h.time, fun k hk => ?_⟩
  obtain ⟨x, hx⟩ := h.others k hk
  obtain ⟨y, hy⟩ := g.others k hk
  exact ⟨y, by rw [hy, hx]⟩

theorem foldl {β : Type} {f : State → β → State} (hf : ∀ (s : State) x, s.keepsLatching (f s x) a) (l : List β) (s : State) :
    s.keepsLatching (l.foldl f s) a :=
  List.foldlRecOn (motive := (s.keepsLatching · a)) l f (.refl s a) fun _ h x _ => h.trans (hf _ x)

/-- A task whose latch point nothing kept back still latches. -/
theorem latching (h : s.keepsLatching t a) (hk : k ≠ a) (hl : s.latching k) : t.latching k := by
  obtain ⟨x, hx⟩ := h.others k hk
  obtain ⟨⟨hm, hp⟩, ⟨hd, hs, hc⟩, ht, hdue⟩ := hl
  refine ⟨⟨h.mode.trans hm, by rw [h.power, hp]⟩, ⟨by rw [h.dpx, hd], h.stop.trans hs, by rw [h.cpr, hc]⟩, ?_, ?_⟩
  · rw [hx]; exact ht
  · rw [hx, now_eq, h.time]; exact hdue

/-- Another task's Current stays. -/
theorem cur (h : s.keepsLatching t a) (hk : k ≠ a) : (t.task k).cur = (s.task k).cur := by
  obtain ⟨x, hx⟩ := h.others k hk
  rw [hx]

end State.keepsLatching

/-! ## The parts of a latch point -/

@[simp] theorem State.task_modTask_self (s : State) (a : Nat) (f : Task → Task) : (s.modTask a f).task a = f (s.task a) := by
  simp [State.task, State.modTask]

theorem State.task_modTask_ne (s : State) {a k : Nat} (f : Task → Task) (h : k ≠ a) : (s.modTask a f).task k = s.task k :=
  Tbl.get_upd_ne _ _ _ _ _ h

theorem State.task_congr {s t : State} (h : t.tasks = s.tasks) (k : Nat) : t.task k = s.task k := by
  unfold State.task; rw [h]

theorem State.keepsLatching_modTask (s : State) (a : Nat) (f : Task → Task) : s.keepsLatching (s.modTask a f) a :=
  ⟨rfl, rfl, rfl, rfl, rfl, rfl, fun k hk => ⟨(s.task k).state, State.task_modTask_ne s f hk⟩⟩

theorem State.keepsLatching_modTri (s : State) (a : Nat) (f : Tri → Tri) : s.keepsLatching (s.modTri f) a :=
  .of_tasks_eq rfl rfl rfl rfl rfl rfl

theorem State.keepsLatching_modLanes (s : State) (a : Nat) (p : Lane → Bool) (f : Lane → Lane) :
    s.keepsLatching (s.modLanes p f) a := by
  unfold State.modLanes; exact s.keepsLatching_modTri a _

/-- A lane's change of state writes the lane, the mirror and the record (R160, R303). -/
theorem State.laneState_keepsLatching (s : State) (l : Nat) (x : LaneState) (a : Nat) :
    s.keepsLatching (s.laneState l x) a := by
  unfold State.laneState State.sendLanes State.sendState State.modLane
  refine .of_tasks_eq ?_ ?_ ?_ ?_ ?_ ?_ <;> simp

@[simp] theorem State.laneState_swd (s : State) (l : Nat) (x : LaneState) : (s.laneState l x).swd = s.swd := by
  simp [State.laneState, State.sendLanes, State.sendState, State.modLane]

theorem State.readmitReady_keepsLatching (s : State) (a : Nat) : s.keepsLatching s.readmitReady a := by
  unfold State.readmitReady
  refine .foldl (fun s l => ?_) _ s
  dsimp only
  split
  · exact (s.keepsLatching_modTri a _).trans (State.laneState_keepsLatching _ _ _ _)
  · exact .refl s a

@[simp] theorem State.readmitReady_swd (s : State) : s.readmitReady.swd = s.swd := by
  unfold State.readmitReady
  exact foldl_keeps State.swd _ (fun s l => by dsimp only; split <;> simp [State.modLane]) _ s

theorem State.event_keepsLatching (s : State) (a : Nat) (k : BitVec 16) (n b : Byte) (d : Word) :
    s.keepsLatching (s.event a k n b d) a := by
  unfold State.event
  dsimp only
  split
  · exact (s.keepsLatching_modTask a _).trans (State.keepsLatching_modTri _ _ _)
  · exact s.keepsLatching_modTask a _

@[simp] theorem State.event_swd (s : State) (a : Nat) (k : BitVec 16) (n b : Byte) (d : Word) :
    (s.event a k n b d).swd = s.swd := by
  unfold State.event; dsimp only; split <;> rfl

theorem State.ite_event_keepsLatching (p : Prop) [Decidable p] (s : State) (a : Nat) (k : BitVec 16) (n b : Byte) (d : Word) :
    s.keepsLatching (if p then s.event a k n b d else s) a := by
  split
  · exact s.event_keepsLatching ..
  · exact .refl s a

theorem State.latchEvents_keepsLatching (s : State) (a : Nat) : s.keepsLatching (s.latchEvents a) a :=
  ((s.ite_event_keepsLatching ..).trans (State.ite_event_keepsLatching ..)).trans (State.ite_event_keepsLatching ..)

@[simp] theorem State.latchEvents_swd (s : State) (a : Nat) : (s.latchEvents a).swd = s.swd := by
  simp [State.latchEvents]

theorem State.fresh_keepsLatching (s : State) (a : Nat) : s.keepsLatching s.fresh a := .of_tasks_eq rfl rfl rfl rfl rfl rfl

/-- A promotion changes Sward's versions at most (R120). -/
theorem State.promote_keepsLatching (s : State) (a : Nat) : s.keepsLatching s.promote.1 a := by
  unfold State.promote
  split
  · split
    · exact .refl s a
    · exact s.fresh_keepsLatching a
  · exact s.fresh_keepsLatching a

theorem State.prune_keepsLatching (s : State) (a : Nat) : s.keepsLatching s.prune a := .of_tasks_eq rfl rfl rfl rfl rfl rfl

theorem State.judgeConns_keepsLatching (s : State) (a : Nat) : s.keepsLatching s.judgeConns a := by
  unfold State.judgeConns
  refine .foldl (fun s c => ?_) _ s
  exact .of_tasks_eq rfl rfl rfl rfl rfl rfl

@[simp] theorem State.judgeConns_swd (s : State) : s.judgeConns.swd = s.swd := by
  unfold State.judgeConns
  refine foldl_keeps State.swd _ (fun s c => ?_) _ s
  rfl

/-- Pre-emption changes STATE of the open bodies only (R87). -/
theorem State.restate_keepsLatching (s : State) (a : Nat) : s.keepsLatching s.restate a := by
  unfold State.restate
  refine .foldl (fun s b => ?_) _ s
  refine ⟨rfl, rfl, rfl, rfl, rfl, rfl, fun k _ => ?_⟩
  by_cases h : k = b
  · exact ⟨_, by rw [h, State.task_modTask_self]⟩
  · exact ⟨(s.task k).state, State.task_modTask_ne s _ h⟩

@[simp] theorem State.restate_swd (s : State) : s.restate.swd = s.swd := by
  unfold State.restate
  refine foldl_keeps State.swd _ (fun s b => ?_) _ s
  rfl

/-- The answer of a command that ends here writes its commit and its records (R32). -/
theorem State.complete_keepsLatching (s : State) (h : Quad) (st : BitVec 16) (r : Bytes) (a : Nat) :
    s.keepsLatching (s.complete h st r) a :=
  .of_tasks_eq (by simp) (by simp) (by simp) (by simp) (by simp) (by simp)

theorem State.forceProgress_keepsLatching (s : State) (done : Nat × Bool → Bool) (a : Nat) :
    s.keepsLatching (s.forceProgress done) a := by
  unfold State.forceProgress
  split
  · exact .refl s a
  · dsimp only
    split
    · refine .trans ?_ (State.complete_keepsLatching ..)
      exact .of_tasks_eq rfl rfl rfl rfl rfl rfl
    · exact .of_tasks_eq rfl rfl rfl rfl rfl rfl

@[simp] theorem State.forceProgress_swd (s : State) (done : Nat × Bool → Bool) : (s.forceProgress done).swd = s.swd := by
  unfold State.forceProgress
  split
  · rfl
  · dsimp only; split <;> simp

theorem State.firstLatch_keepsLatching (s : State) (a : Nat) : s.keepsLatching s.firstLatch a := by
  unfold State.firstLatch
  split
  · exact .refl s a
  · refine .trans ?_ (State.complete_keepsLatching ..)
    exact ⟨rfl, rfl, rfl, rfl, rfl, rfl, fun k _ => ⟨(s.task k).state, rfl⟩⟩

@[simp] theorem State.firstLatch_tasks (s : State) : s.firstLatch.tasks = s.tasks := by
  unfold State.firstLatch; split <;> simp

@[simp] theorem State.firstLatch_swd (s : State) : s.firstLatch.swd = s.swd := by
  unfold State.firstLatch; split <;> simp

/-! ## The version of a TBU count -/

/-- Version `v` was promoted on the present TBU count (R121). -/
def State.promotedNow (s : State) (v : Word) : Prop :=
  ∃ w rest, s.swd.versions = w :: rest ∧ w.at_ = s.now ∧ w.num = v ∧ s.swd.version = v ∧ s.swd.promoted = true

theorem State.promotedNow_congr {s t : State} {v : Word} (hw : t.swd = s.swd) (ht : t.tbu = s.tbu) :
    t.promotedNow v ↔ s.promotedNow v := by
  simp [State.promotedNow, hw, ht]

/-- A promotion gives the version of its count (R120). -/
theorem State.promote_promotedNow (s : State) : s.promote.1.promotedNow s.promote.2 := by
  have hfresh : s.fresh.promotedNow (s.swd.version + 1) := ⟨_, _, rfl, rfl, rfl, rfl, rfl⟩
  unfold State.promote
  split
  · next w rest hw =>
    split
    · next h => exact ⟨w, rest, hw, h.1, rfl, h.2.1.symm, h.2.2⟩
    · exact hfresh
  · exact hfresh

/-- On a count that has its version the promotion gives that version and changes nothing (R24, R121). -/
theorem State.promote_of_promotedNow {s : State} {v : Word} (h : s.promotedNow v) : s.promote = (s, v) := by
  obtain ⟨w, rest, hw, ht, rfl, hv, hp⟩ := h
  simp [State.promote, hw, ht, hv, hp]

/-- The version promoted last is not released (R122). -/
theorem State.promotedNow_prune {s : State} {v : Word} (h : s.promotedNow v) : s.prune.promotedNow v := by
  obtain ⟨w, rest, hw, ht, rfl, hv, hp⟩ := h
  refine ⟨w, rest.filter fun v => s.heldVersions.contains v.num || (s.swd.promoted && v.num == s.swd.version), ?_, ht,
    rfl, hv, hp⟩
  simp [State.prune, hw, hv, hp]

/-! ## A latch point that is taken -/

/-- What stands after a latch point of task `a`: version `v` is its Current and the version of the count, the other tasks
may still latch, and a version that the count had before is `v` itself. -/
structure State.latchedOn (s t : State) (a : Nat) (v : Word) : Prop where
  cur : (t.task a).cur = some v
  now : t.promotedNow v
  keeps : s.keepsLatching t a
  same : ∀ w, s.promotedNow w → v = w

/-- What follows the latching itself leaves the version in place. -/
theorem State.latchedOn.after {s t u : State} {a : Nat} {v : Word} (h : s.latchedOn t a v)
    (hk : ∀ b, t.keepsLatching u b) (hw : u.swd = t.swd) : s.latchedOn u a v :=
  ⟨((hk (a + 1)).cur (by omega)).trans h.cur, (State.promotedNow_congr hw (hk a).time).mpr h.now, h.keeps.trans (hk a), h.same⟩

/-- What precedes the latching leaves the count's version as it was. -/
theorem State.latchedOn.before {s t u : State} {a : Nat} {v : Word} (h : t.latchedOn u a v)
    (hk : s.keepsLatching t a) (hw : t.swd = s.swd) : s.latchedOn u a v :=
  ⟨h.cur, h.now, hk.trans h.keeps, fun w g => h.same w ((State.promotedNow_congr hw hk.time).mpr g)⟩

/-- Releasing versions keeps the one latched (R122). -/
theorem State.latchedOn.prune {s t : State} {a : Nat} {v : Word} (h : s.latchedOn t a v) : s.latchedOn t.prune a v :=
  ⟨h.cur, State.promotedNow_prune h.now, h.keeps.trans (t.prune_keepsLatching a), h.same⟩

/-- Latching on the version that the promotion gives (R120). -/
theorem State.latchedOn_promote (s : State) (a : Nat) (f : Task → Task) (hf : ∀ k, (f k).cur = some s.promote.2) :
    s.latchedOn ((s.promote.1.latchEvents a).modTask a f) a s.promote.2 := by
  have hkeep : s.promote.1.keepsLatching ((s.promote.1.latchEvents a).modTask a f) a :=
    (State.latchEvents_keepsLatching _ a).trans (State.keepsLatching_modTask _ a f)
  refine ⟨by rw [State.task_modTask_self, hf], ?_, (s.promote_keepsLatching a).trans hkeep, fun w h => ?_⟩
  · exact (State.promotedNow_congr (by simp) hkeep.time).mpr s.promote_promotedNow
  · rw [State.promote_of_promotedNow h]

/-- The task latches the version of the count: the one that stands, or one promoted for it (R24, R120). -/
theorem State.latch_latchedOn (s : State) (a : Nat) (re : Bool) : ∃ v, s.latchedOn (s.latch a re) a v := by
  have hready : s.keepsLatching (if a = 0 then s.readmitReady else s) a ∧
      (if a = 0 then s.readmitReady else s).swd = s.swd := by
    split
    · exact ⟨s.readmitReady_keepsLatching a, s.readmitReady_swd⟩
    · exact ⟨.refl s a, rfl⟩
  unfold State.latch
  dsimp only
  generalize (if a = 0 then s.readmitReady else s) = u at hready
  refine ⟨u.promote.2, .before ?_ hready.1 hready.2⟩
  refine .after (.prune ?_) (State.forceProgress_keepsLatching _ _) (State.forceProgress_swd _ _)
  split
  · refine .after ?_ (State.judgeConns_keepsLatching _) (State.judgeConns_swd _)
    refine .after ?_ (fun b => (State.keepsLatching_modTri _ b _).trans (State.keepsLatching_modLanes _ b _ _)) rfl
    exact u.latchedOn_promote a _ fun _ => rfl
  · exact .after (u.latchedOn_promote a _ fun _ => rfl) (State.restate_keepsLatching _) (State.restate_swd _)

/-- Where nothing keeps the task from latching, its latch point is taken (R86, R89). -/
theorem State.effLatchPoint_of_latching {s : State} {a : Fin 17} (h : s.latching a) :
    effLatchPoint a s = (s.latchFalls a).firstLatch.latch a false := by
  obtain ⟨⟨hmode, hon⟩, ⟨hdec, hstop, hrec⟩, ⟨hpres, hst, hheld, hrun, hun, hw⟩, hdue⟩ := h
  have htask : (s.latchFalls a).firstLatch.task a = { s.task a with due := none } := by
    rw [State.task_congr (State.firstLatch_tasks _), State.latchFalls, State.task_modTask_self]
  have hfirst := State.firstLatch_keepsLatching (s.latchFalls a) a
  have hgap : (s.latchFalls a).gapEnds a = s.latchFalls a := by simp [State.gapEnds, State.latchFalls, hdec]
  have htaken : (s.latchFalls a).firstLatch.latchPoint a = (s.latchFalls a).firstLatch.latch a false := by
    have hstop' : (s.latchFalls a).firstLatch.sys.stopJob = none := hfirst.stop.trans hstop
    have hrec' : (s.latchFalls a).firstLatch.cpr.recovery = 0 := by rw [hfirst.cpr]; exact hrec
    simp [State.latchPoint, htask, hstop', hrec', hst, hheld, hrun, hun, hw]
  have hsoon : s.tooSoon = false := by simp [State.tooSoon, hdec]
  simp [effLatchPoint, hmode, hon, hpres, hdue, hsoon, hgap, htaken]

/-- A latch point that nothing keeps back (R86): the task latches. -/
theorem State.exec_latchPoint {s : State} {a : Fin 17} (h : s.latching a) :
    ∃ t v, exec (.latchPoint a) s = .next t ∧ s.latchedOn t a v := by
  have hfirst : s.keepsLatching (s.latchFalls a).firstLatch a :=
    (s.keepsLatching_modTask a _).trans (State.firstLatch_keepsLatching _ a)
  obtain ⟨v, hv⟩ := State.latch_latchedOn (s.latchFalls a).firstLatch a false
  have hexec : exec (.latchPoint a) s = .next (effLatchPoint a s) := rfl
  refine ⟨_, v, by rw [hexec, State.effLatchPoint_of_latching h], hv.before hfirst ?_⟩
  rw [State.firstLatch_swd, State.latchFalls, State.modTask_swd]

/-- Settles O37: the first latch point leaves the version of the count and whatever lets the second task latch
(`State.latchedOn`); the second promotion on that count gives the same version (`State.promote_of_promotedNow`). -/
theorem sameCountSameVersion : Obligations.SameCountSameVersion := by
  intro s a b hab ha hb
  obtain ⟨t, v, ht, hl⟩ := State.exec_latchPoint ha
  have hne : a.val ≠ b.val := fun h => hab (Fin.ext h)
  obtain ⟨u, w, hu, hm⟩ := State.exec_latchPoint (hl.keeps.latching hne.symm hb)
  obtain rfl : w = v := hm.same v hl.now
  exact ⟨t, u, w, ht, hu, (hm.keeps.cur hne).trans hl.cur, hm.cur⟩

end Sys2Proof.Machine
end

section
/-! Command entries that the Supervisor takes (R66 to R70), and the obligation of 01_architecture.md about them. -/

namespace Sys2Proof.Machine

/-! ## Ring pairs under a change of one -/

@[simp] theorem State.ring_modRing_self (s : State) (n : Nat) (f : Ring → Ring) : (s.modRing n f).ring n = f (s.ring n) := by
  simp [State.ring, State.modRing]

theorem State.ring_modRing_ne (s : State) {n k : Nat} (f : Ring → Ring) (h : k ≠ n) : (s.modRing n f).ring k = s.ring k :=
  Tbl.get_upd_ne _ _ _ _ _ h

theorem State.ring_congr {s t : State} (h : t.rings = s.rings) (n : Nat) : t.ring n = s.ring n := by
  unfold State.ring; rw [h]

/-! ## A record that finds its slot free -/

/-- No record of ring pair `n` waits for a slot, and its next slot is free (R63). -/
def State.slotFree (s : State) (n : Nat) : Prop := (s.ring n).backlog = [] ∧ (s.ring n).full = false

theorem State.putRecord_of_slotFree {s : State} {n : Nat} (h : s.slotFree n) (rec : Bytes) (c : Bool) :
    s.putRecord n rec c = s.placeRecord n rec c := by
  simp [State.putRecord, h.1, h.2]

/-- The record stands in the next completion slot (R59). -/
theorem State.putRecord_memRing {s : State} {n : Nat} (h : s.slotFree n) (rec : Bytes) (c : Bool) :
    (s.putRecord n rec c).mem.ring = s.mem.ring.store ((s.ring n).cplOff (s.ring n).cplProd) rec := by
  rw [State.putRecord_of_slotFree h]
  simp [State.placeRecord]

/-- The producer index covers it, and it is undelivered. -/
theorem State.putRecord_pair {s : State} {n : Nat} (h : s.slotFree n) (rec : Bytes) (c : Bool) :
    (s.putRecord n rec c).ring n = { s.ring n with
      cplProd := (s.ring n).cplProd + 1, undelivered := (s.ring n).undelivered ++ [((s.ring n).cplProd, s.now, c)] } := by
  rw [State.putRecord_of_slotFree h]
  unfold State.placeRecord
  dsimp only
  rw [State.irqEdge_ring, State.ring_modRing_self]
  rfl

/-- All that putting a record writes. -/
theorem State.putRecord_eq (s : State) (n : Nat) (rec : Bytes) (c : Bool) :
    s.putRecord n rec c = s.withAnswer (s.putRecord n rec c) := by
  apply State.ext_parts <;> try simp [State.withAnswer]
  · exact State.putRecord_host ..
  · refine Mem.ext_parts rfl ?_ ?_ ?_ ?_ <;> simp

/-! ## Entries leave the head of a command ring -/

/-- Of a ring pair only what belongs to the head of its command ring differs. -/
def Ring.headMoved (r q : Ring) : Prop :=
  ∃ i subs from1 held, q = { r with cmdCons := i, subs := subs, from1 := from1, acceptHeld := held }

theorem Ring.headMoved.trans {r q p : Ring} (h : r.headMoved q) (g : q.headMoved p) : r.headMoved p := by
  obtain ⟨_, _, _, _, rfl⟩ := h
  obtain ⟨_, _, _, _, rfl⟩ := g
  exact ⟨_, _, _, _, rfl⟩

/-- Entries passed over leave the command ring (R88). -/
theorem Ring.passVoid_headMoved (live : Word → Bool) (k : Nat) (r : Ring) : r.headMoved (r.passVoid live k) := by
  induction k generalizing r with
  | zero => exact ⟨_, _, _, _, rfl⟩
  | succ k ih =>
    unfold Ring.passVoid
    split
    · exact .trans ⟨_, _, _, _, rfl⟩ (ih _)
    · exact ⟨_, _, _, _, rfl⟩

/-- From `s` to `t` only heads of command rings move, and the ring pair served last may be another. -/
structure State.headsMoved (s t : State) : Prop where
  rest : ∃ rings k, t = { s with rings := rings, sys := { s.sys with served := k } }
  pairs : ∀ n, (s.ring n).headMoved (t.ring n)

namespace State.headsMoved

variable {s t u : State}

protected theorem refl (s : State) : s.headsMoved s := ⟨⟨_, _, rfl⟩, fun _ => ⟨_, _, _, _, rfl⟩⟩

protected theorem trans (h : s.headsMoved t) (g : t.headsMoved u) : s.headsMoved u := by
  refine ⟨?_, fun n => (h.pairs n).trans (g.pairs n)⟩
  obtain ⟨_, _, rfl⟩ := h.rest
  obtain ⟨_, _, rfl⟩ := g.rest
  exact ⟨_, _, rfl⟩

theorem foldl {β : Type} {f : State → β → State} (hf : ∀ (s : State) x, s.headsMoved (f s x)) (l : List β) (s : State) :
    s.headsMoved (l.foldl f s) :=
  List.foldlRecOn (motive := (s.headsMoved ·)) l f (.refl s) fun _ h x _ => h.trans (hf _ x)

theorem modRing (s : State) (n : Nat) {f : Ring → Ring} (hf : ∀ r : Ring, r.headMoved (f r)) : s.headsMoved (s.modRing n f) := by
  refine ⟨⟨_, _, rfl⟩, fun k => ?_⟩
  by_cases h : k = n
  · rw [h, State.ring_modRing_self]; exact hf _
  · rw [State.ring_modRing_ne s f h]; exact ⟨_, _, _, _, rfl⟩

theorem journal (h : s.headsMoved t) : t.journal = s.journal := by obtain ⟨_, _, rfl⟩ := h.rest; rfl
theorem mem (h : s.headsMoved t) : t.mem = s.mem := by obtain ⟨_, _, rfl⟩ := h.rest; rfl
theorem hyk (h : s.headsMoved t) : t.hyk = s.hyk := by obtain ⟨_, _, rfl⟩ := h.rest; rfl
theorem dpx (h : s.headsMoved t) : t.dpx = s.dpx := by obtain ⟨_, _, rfl⟩ := h.rest; rfl
theorem epoch (h : s.headsMoved t) : t.sys.epoch = s.sys.epoch := by obtain ⟨_, _, rfl⟩ := h.rest; rfl
theorem mode (h : s.headsMoved t) : t.sys.mode = s.sys.mode := by obtain ⟨_, _, rfl⟩ := h.rest; rfl
theorem mailboxUp (h : s.headsMoved t) : t.mailboxUp = s.mailboxUp := by obtain ⟨_, _, rfl⟩ := h.rest; rfl
theorem now (h : s.headsMoved t) : t.now = s.now := by obtain ⟨_, _, rfl⟩ := h.rest; rfl
theorem seq (h : s.headsMoved t) (n : Nat) : (t.ring n).seq = (s.ring n).seq := by
  obtain ⟨_, _, _, _, hn⟩ := h.pairs n; rw [hn]
theorem cplProd (h : s.headsMoved t) (n : Nat) : (t.ring n).cplProd = (s.ring n).cplProd := by
  obtain ⟨_, _, _, _, hn⟩ := h.pairs n; rw [hn]
theorem cplOff (h : s.headsMoved t) (n : Nat) : (t.ring n).cplOff = (s.ring n).cplOff := by
  obtain ⟨_, _, _, _, hn⟩ := h.pairs n; rw [hn]; rfl
theorem slotFree (h : s.headsMoved t) {n : Nat} : t.slotFree n ↔ s.slotFree n := by
  obtain ⟨_, _, _, _, hn⟩ := h.pairs n
  unfold State.slotFree
  rw [hn]
  rfl

end State.headsMoved

theorem State.passVoids_headsMoved (s : State) : s.headsMoved s.passVoids := by
  unfold State.passVoids
  refine .foldl (fun s n => .modRing s n fun r => ?_) _ s
  exact Ring.passVoid_headMoved ..

theorem State.markHeld_headsMoved (s : State) : s.headsMoved s.markHeld := by
  unfold State.markHeld
  refine .foldl (fun s n => ?_) _ s
  split
  · exact .modRing s n fun _ => ⟨_, _, _, _, rfl⟩
  · exact .refl s

theorem State.taking_headsMoved (s : State) : s.headsMoved s.taking :=
  s.passVoids_headsMoved.trans s.passVoids.markHeld_headsMoved

theorem State.advance_headsMoved (s : State) (n : Nat) : s.headsMoved (s.advance n) :=
  (State.headsMoved.modRing s n fun _ => ⟨_, _, _, _, rfl⟩).trans ⟨⟨_, _, rfl⟩, fun _ => ⟨_, _, _, _, rfl⟩⟩

@[simp] theorem State.advance_cmdCons (s : State) (n : Nat) : ((s.advance n).ring n).cmdCons = (s.ring n).cmdCons + 1 := by
  unfold State.advance
  rw [State.ring_congr (State.modSys_rings _ _), State.ring_modRing_self]

@[simp] theorem State.headEntry_ring (s : State) (n : Nat) : (s.headEntry n).ring = n := rfl
theorem State.headEntry_index (s : State) (n : Nat) : (s.headEntry n).index = (s.ring n).cmdCons := rfl

/-! ## TAKE_ENTRY with an entry to take -/

section
variable {s : State} {n : Nat}

/-- The state in which the entry taken is judged: heads moved, nothing else. -/
theorem State.taken_headsMoved (s : State) (n : Nat) : s.headsMoved (s.taking.advance n) :=
  s.taking_headsMoved.trans (s.taking.advance_headsMoved n)

/-- A ring pair that is served has its slot (R63, R66). -/
theorem State.serves.slotFree (h : s.serves n) : s.slotFree n := by
  refine ⟨h.slots, ?_⟩
  have hroom := List.find?_some h.next
  simp only [Bool.and_eq_true] at hroom
  have hr : s.taking.room n = true := hroom.2
  obtain ⟨_, _, _, _, hn⟩ := s.taking_headsMoved.pairs n
  simp only [State.room, hn, decide_eq_true_eq] at hr
  have hd : ∀ r : Ring, r.depth = (2 ^ r.depthLog2.toNat) := fun _ => rfl
  simp only [Ring.full, decide_eq_false_iff_not, hd] at hr ⊢
  omega

/-- A failed check rejects the entry (R69 steps 1 to 4). -/
theorem State.serves.takeEntry_of_error (h : s.serves n) {st : BitVec 16}
    (hc : (s.taking.advance n).check (s.taking.headEntry n) = .error st) (jo ack o : Bool) :
    s.takeEntry jo ack o = (s.taking.advance n).reject (s.taking.headEntry n) st := by
  obtain ⟨⟨hup, hacc⟩, hnext, -⟩ := h
  unfold State.taking at *
  simp [State.takeEntry, hup, hacc, hnext, hc]

variable {op : BitVec 16} {c : CmdInfo} {a : Bytes}

/-- A failed journal write is recorded and rejects the entry (R30). -/
theorem State.serves.takeEntry_of_notJournalled (h : s.serves n)
    (hc : (s.taking.advance n).check (s.taking.headEntry n) = .ok (op, c, a)) (ack o : Bool) :
    s.takeEntry false ack o =
      ((s.taking.advance n).raise srcSup 0x2003 4 ([BitVec.ofNat 8 n, 0, 0, 0] ++ le 4 (s.taking.ring n).cmdCons
        ++ le 2 (s.taking.headEntry n).opcode)).reject (s.taking.headEntry n) stJournalFailed := by
  obtain ⟨⟨hup, hacc⟩, hnext, -⟩ := h
  unfold State.taking at *
  simp [State.takeEntry, hup, hacc, hnext, hc, State.headEntry_index]

/-- A standby in IN_SYNC that stays silent becomes LAGGING, and the entry is rejected (R70). -/
theorem State.serves.takeEntry_of_noAck (h : s.serves n) (hs : s.inSync = true)
    (hc : (s.taking.advance n).check (s.taking.headEntry n) = .ok (op, c, a)) (o : Bool) :
    ∃ q, s.takeEntry true false o =
      (((s.taking.advance n).emit (.mirrorAccept q)).lag 2).reject (s.taking.headEntry n) stPartnerNoAck := by
  have hsync : (s.taking.advance n).inSync = true := by rw [State.inSync, (s.taken_headsMoved n).dpx]; exact hs
  obtain ⟨⟨hup, hacc⟩, hnext, -⟩ := h
  unfold State.taking at *
  exact ⟨_, by simp [State.takeEntry, hup, hacc, hnext, hc, hsync]; rfl⟩

/-- Otherwise the entry is accepted (R69 steps 5 and 6). -/
theorem State.serves.takeEntry_of_ok (h : s.serves n) (hs : s.inSync = false)
    (hc : (s.taking.advance n).check (s.taking.headEntry n) = .ok (op, c, a)) (ack o : Bool) :
    s.takeEntry true ack o = (s.taking.advance n).accept ((s.taking.advance n).journalEntry (s.taking.headEntry n) op c a) o := by
  have hsync : (s.taking.advance n).inSync = false := by rw [State.inSync, (s.taken_headsMoved n).dpx]; exact hs
  obtain ⟨⟨hup, hacc⟩, hnext, -⟩ := h
  unfold State.taking at *
  simp [State.takeEntry, hup, hacc, hnext, hc, hsync]

end

/-! ## What is written -/

/-- Besides an answer's writes only the ring pair served last and the recorder differ. -/
def State.entryTaken (s t : State) : Prop :=
  t = { s.withAnswer t with sys := { s.sys with served := t.sys.served }, hyk := t.hyk }

theorem State.headsMoved.entryTaken {s t : State} (h : s.headsMoved t) : s.entryTaken t := by
  obtain ⟨_, _, rfl⟩ := h.rest; rfl

/-- An answer's writes on top of it. -/
theorem State.entryTaken.answer {s t u : State} (h : s.entryTaken t) (hu : u = t.withAnswer u) : s.entryTaken u := by
  have hsys : u.sys.served = t.sys.served := by rw [hu]; rfl
  have hhyk : u.hyk = t.hyk := by rw [hu]; rfl
  calc u = t.withAnswer u := hu
    _ = ({ s.withAnswer t with sys := { s.sys with served := t.sys.served }, hyk := t.hyk } : State).withAnswer u :=
      congrArg (·.withAnswer u) h
    _ = { s.withAnswer u with sys := { s.sys with served := u.sys.served }, hyk := u.hyk } := by rw [hsys, hhyk]; rfl

theorem State.entryTaken.eq_of_hyk {s t : State} (h : s.entryTaken t) (hh : t.hyk = s.hyk) :
    t = { s.withAnswer t with sys := { s.sys with served := t.sys.served } } := by
  rw [State.entryTaken, hh] at h; exact h

/-- The REJECTED record of an entry (R60, R81). -/
def Entry.rejectedRecord (e : Entry) (st : BitVec 16) : Bytes :=
  mkRecord 0 e.tag (shownStatus e.v1 st) kindRejected (shownResult e.v1 st (le 4 e.index))

theorem State.reject_eq (s : State) (e : Entry) (st : BitVec 16) :
    s.reject e st = s.putRecord e.ring (e.rejectedRecord st) (!e.flags.getLsbD 1) := rfl

@[simp] theorem State.reject_journal (s : State) (e : Entry) (st : BitVec 16) : (s.reject e st).journal = s.journal := by
  simp [State.reject_eq]
@[simp] theorem State.reject_hyk (s : State) (e : Entry) (st : BitVec 16) : (s.reject e st).hyk = s.hyk := by
  simp [State.reject_eq]
@[simp] theorem State.reject_dpx (s : State) (e : Entry) (st : BitVec 16) : (s.reject e st).dpx = s.dpx := by
  simp [State.reject_eq]

/-- The REJECTED record stands in the next completion slot of the ring pair served. -/
theorem State.serves.reject_memRing {s u : State} {n : Nat} (h : s.serves n) (hr : u.rings = (s.taking.advance n).rings)
    (hm : u.mem = s.mem) (st : BitVec 16) :
    (u.reject (s.taking.headEntry n) st).mem.ring =
      s.mem.ring.store ((s.ring n).cplOff (s.ring n).cplProd) ((s.taking.headEntry n).rejectedRecord st) := by
  have hheads := s.taken_headsMoved n
  have hring : u.ring n = (s.taking.advance n).ring n := State.ring_congr hr n
  have hfree : u.slotFree n := by rw [State.slotFree, hring]; exact hheads.slotFree.mpr h.slotFree
  rw [State.reject_eq, State.headEntry_ring, State.putRecord_memRing hfree, hring, hheads.cplOff, hheads.cplProd, hm]

/-! ## The standby that stays silent -/

/-- IN_SYNC becomes LAGGING, and LAGS counts it (R302). -/
theorem State.lag_dpx {s : State} (h : s.inSync = true) (c : Nat) : (s.lag c).dpx =
    { s.dpx with standby := 3, lags := satInc s.dpx.lags, catchUp := s.catchUpList } := by
  simp [State.lag, h, State.standbyTo, State.setRole_dpx]
@[simp] theorem State.lag_rings (s : State) (c : Nat) : (s.lag c).rings = s.rings := by
  unfold State.lag; split <;> simp [State.standbyTo]
@[simp] theorem State.lag_mem (s : State) (c : Nat) : (s.lag c).mem = s.mem := by
  unfold State.lag; split <;> simp [State.standbyTo]
@[simp] theorem State.lag_journal (s : State) (c : Nat) : (s.lag c).journal = s.journal := by
  unfold State.lag; split <;> simp [State.standbyTo]

/-! ## Acceptance -/

/-- The journal takes the entry, and the handle is used up (R30, R61). -/
def State.journalled (s : State) (j : JEntry) : State :=
  (s.modJournal fun l => l ++ [j]).modRing j.ring fun r => { r with seq := nextHandleSeq r.seq }

theorem State.journalled_pair (s : State) (j : JEntry) :
    (s.journalled j).ring j.ring = { s.ring j.ring with seq := nextHandleSeq (s.ring j.ring).seq } :=
  State.ring_modRing_self ..

/-- Journalling on top of moved heads, whatever the recorder took with it. -/
theorem State.headsMoved.entryTaken_journalled {s t : State} (h : s.headsMoved t) (j : JEntry) (x : Hyk) :
    s.entryTaken { t.journalled j with hyk := x } := by
  obtain ⟨_, _, rfl⟩ := h.rest; rfl

/-- Without an IN_SYNC standby: journalled, the start of a shutdown recorded (R53), then performed or ACCEPTED. -/
theorem State.accept_of_not_inSync {s : State} (h : s.inSync = false) (j : JEntry) (o : Bool) :
    s.accept j o =
      let u := if j.opcode = 0x2016 then (s.journalled j).shutdownRecord 1 ((s.journalled j).leftOver j.handle)
        else s.journalled j
      if j.combined then u.performQ j o else u.putAccepted j false := by
  have hsync : (s.journalled j).inSync = false := h
  unfold State.journalled at *
  simp [State.accept, hsync]

/-- A command not of class Q: besides the journal the recorder alone may have changed when its ACCEPTED record is put. -/
theorem State.accept_of_queued {s : State} (h : s.inSync = false) {j : JEntry} (hj : j.combined = false) (o : Bool) :
    ∃ x, s.accept j o =
      ({ s.journalled j with hyk := x } : State).putRecord j.ring (j.acceptedRecord false) (!j.noIrq) := by
  rw [State.accept_of_not_inSync h]
  simp only [hj, Bool.false_eq_true, if_false]
  split
  · exact ⟨_, congrArg (State.putAccepted · j false) (State.raise_eq ..)⟩
  · exact ⟨s.hyk, rfl⟩

/-- A class Q command that its fence does not hold back begins wherever the mailboxes answer outside START (R39, R71). -/
theorem State.mayBegin_of_q {s : State} {e : JEntry} (hup : s.mailboxUp = true) (hm : s.sys.mode ≠ .start)
    (hf : e.fence = false) (hq : e.cls = .q) : s.mayBegin e = true := by
  simp only [State.mailboxUp, Bool.and_eq_true] at hup
  obtain ⟨⟨hon, hhalt⟩, hoff⟩ := hup
  simpa [State.mayBegin, hon, hhalt, hm, hf, hq] using hoff

/-- NOP is permitted in every mode that takes commands (R80). -/
theorem cmdInfo_nop_inMode {m : Mode} (h : m ≠ .start) (h' : m ≠ .halt) :
    ((cmdInfo 0x2000).map fun c => c.inMode m) = some true := by
  cases m with
  | start => exact absurd rfl h
  | halt => exact absurd rfl h'
  | _ => rfl

/-- The entry journalled last is found when its handle is new. -/
theorem State.entry_journalled {s : State} {j : JEntry} (h : s.entry j.handle = none) :
    (s.journalled j).entry j.handle = some j := by
  have hj : (s.journalled j).journal = s.journal ++ [j] := rfl
  unfold State.entry at *
  rw [hj, List.find?_append, h]
  simp

/-- A NOP without FENCE begins at its acceptance. -/
theorem State.begins_nop {s : State} {j : JEntry} (hup : s.mailboxUp = true) (hm : s.sys.mode ≠ .start)
    (hop : j.opcode = 0x2000) (hf : j.fence = false) (hp : j.phase = .accepted) (he : s.entry j.handle = some j) :
    s.begins j.handle j.opcode j.v1 j := by
  have hhalt : s.sys.mode ≠ .halt := by
    simp only [State.mailboxUp, Bool.and_eq_true] at hup
    simpa using hup.1.2
  have hcls : j.cls = .q := by rw [JEntry.cls, hop]; rfl
  exact ⟨he, rfl, rfl, hp, State.mayBegin_of_q hup hm hf hcls, by rw [hop]; exact cmdInfo_nop_inMode hm hhalt⟩

/-- It is answered OK with an empty RESULT (R80). -/
theorem State.performQ_nop {s : State} {j : JEntry} (hb : s.begins j.handle j.opcode j.v1 j) (hop : j.opcode = 0x2000)
    (o : Bool) : s.performQ j o = s.complete j.handle stOk [] := by
  rw [State.performQ, State.begin_of hb, hop]
  rfl

theorem State.accept_of_nop {s : State} (h : s.inSync = false) {j : JEntry} (hop : j.opcode = 0x2000) (hj : j.combined = true)
    (o : Bool) : s.accept j o = (s.journalled j).performQ j o := by
  rw [State.accept_of_not_inSync h]
  simp [hop, hj]

/-- What passes the checks is a row of the catalogue (R69, R80). -/
theorem State.cmdInfo_of_check {s : State} {e : Entry} {op : BitVec 16} {c : CmdInfo} {a : Bytes}
    (h : s.check e = .ok (op, c, a)) : cmdInfo op = some c := by
  unfold State.check at h
  repeat' split at h
  all_goals cases h
  all_goals assumption

/-- The acceptance of a command that queues, on top of moved heads: the journal, the ring pair and its record. -/
theorem State.headsMoved.accept_queued {s t : State} (h : s.headsMoved t) {j : JEntry} {n : Nat} (hs : s.inSync = false)
    (hj : j.combined = false) (hn : j.ring = n) (hf : s.slotFree n) (o : Bool) :
    (t.accept j o).journal = s.journal ++ [j] ∧
      ((t.accept j o).ring n).cmdCons = (t.ring n).cmdCons ∧
      ((t.accept j o).ring n).seq = nextHandleSeq (s.ring n).seq ∧
      ((t.accept j o).ring n).cplProd = (s.ring n).cplProd + 1 ∧
      (t.accept j o).mem.ring =
        s.mem.ring.store ((s.ring n).cplOff (s.ring n).cplProd) (j.acceptedRecord false) ∧
      s.entryTaken (t.accept j o) := by
  subst hn
  have hsync : t.inSync = false := by rw [State.inSync, h.dpx]; exact hs
  obtain ⟨x, hx⟩ := State.accept_of_queued hsync hj o
  have htaken := h.entryTaken_journalled j x
  have hpair : ({ t.journalled j with hyk := x } : State).ring j.ring =
      { t.ring j.ring with seq := nextHandleSeq (t.ring j.ring).seq } := t.journalled_pair j
  have hjournal : ({ t.journalled j with hyk := x } : State).journal = t.journal ++ [j] := rfl
  have hmem : ({ t.journalled j with hyk := x } : State).mem = t.mem := rfl
  generalize ({ t.journalled j with hyk := x } : State) = w at *
  have hfree : w.slotFree j.ring := by rw [State.slotFree, hpair]; exact h.slotFree.mpr hf
  rw [hx]
  refine ⟨?_, ?_, ?_, ?_, ?_, htaken.answer (State.putRecord_eq ..)⟩
  · rw [State.putRecord_journal, hjournal, h.journal]
  · rw [State.putRecord_pair hfree, hpair]
  · rw [State.putRecord_pair hfree, hpair, ← h.seq]
  · rw [State.putRecord_pair hfree, hpair, ← h.cplProd]
  · rw [State.putRecord_memRing hfree, hpair, ← h.cplOff, ← h.cplProd, ← h.mem, hmem]
    rfl

/-- The acceptance of a NOP that its fence does not hold back, on top of moved heads: answered OK at once (R80). -/
theorem State.headsMoved.accept_nop {s t : State} (h : s.headsMoved t) {j : JEntry} (hup : s.mailboxUp = true)
    (hm : s.sys.mode ≠ .start) (hs : s.inSync = false) (hop : j.opcode = 0x2000) (hj : j.combined = true)
    (hf : j.fence = false) (hp : j.phase = .accepted) (hnew : s.entry j.handle = none) (o : Bool) :
    (t.accept j o).answered j.handle stOk [] ∧
      t.accept j o = { s.withAnswer (t.accept j o) with sys := { s.sys with served := (t.accept j o).sys.served } } := by
  have hsync : t.inSync = false := by rw [State.inSync, h.dpx]; exact hs
  have hentry : (t.journalled j).entry j.handle = some j :=
    State.entry_journalled (by rw [State.entry_congr h.journal, hnew])
  have hmode : (t.journalled j).sys.mode ≠ .start := fun hstart => hm (h.mode.symm.trans hstart)
  have hb : (t.journalled j).begins j.handle j.opcode j.v1 j :=
    State.begins_nop (h.mailboxUp.trans hup) hmode hop hf hp hentry
  have htaken : s.entryTaken (t.journalled j) := h.entryTaken_journalled j t.hyk
  have hhyk : (t.journalled j).hyk = s.hyk := h.hyk
  rw [State.accept_of_nop hsync hop hj, State.performQ_nop hb hop]
  exact ⟨State.answered_complete hentry (State.begins_uncommitted hb) ..,
    (htaken.answer (State.complete_eq ..)).eq_of_hyk (by rw [State.complete_hyk, hhyk])⟩

/-! ## The ways of TAKE_ENTRY and PARTNER_NO_ACK -/

section
variable {s : State} {n : Nat} {op : BitVec 16} {c : CmdInfo} {a : Bytes}

theorem State.exec_takeEntry (s : State) (k o : Bool) : exec (.takeEntry k o) s = .next (s.takeEntry k true o) := rfl

/-- The handle of the entry taken is the next one of its ring pair (R61). -/
theorem State.taken_handle (s : State) (n : Nat) (op : BitVec 16) (c : CmdInfo) (a : Bytes) :
    ((s.taking.advance n).journalEntry (s.taking.headEntry n) op c a).handle = mkHandle n s.sys.epoch (s.ring n).seq := by
  rw [← (s.taken_headsMoved n).epoch, ← (s.taken_headsMoved n).seq]
  rfl

/-- An entry of a class that queues is journalled with the next handle and ACCEPTED (R30, R61). -/
theorem State.serves.queued (h : s.serves n) (hs : s.inSync = false)
    (hc : (s.taking.advance n).check (s.taking.headEntry n) = .ok (op, c, a)) (hq : c.cls ≠ .q) (o : Bool) :
    ∃ t j, exec (.takeEntry true o) s = .next t ∧ t.journal = s.journal ++ [j] ∧
      j.handle = mkHandle n s.sys.epoch (s.ring n).seq ∧ j.opcode = op ∧ j.args = a ∧ j.phase = .accepted ∧
      j.accepted = s.now ∧ (t.ring n).cmdCons = (s.taking.ring n).cmdCons + 1 ∧
      (t.ring n).seq = nextHandleSeq (s.ring n).seq ∧ (t.ring n).cplProd = (s.ring n).cplProd + 1 ∧
      t.mem.ring = s.mem.ring.store ((s.ring n).cplOff (s.ring n).cplProd) (j.acceptedRecord false) ∧ s.entryTaken t := by
  have hheads := s.taken_headsMoved n
  have hj : ((s.taking.advance n).journalEntry (s.taking.headEntry n) op c a).combined = false := by
    simpa [State.journalEntry] using hq
  obtain ⟨hjournal, hcons, hseq, hprod, hmem, htaken⟩ := hheads.accept_queued hs hj rfl h.slotFree o
  exact ⟨_, _, by rw [State.exec_takeEntry, h.takeEntry_of_ok hs hc true o], hjournal, State.taken_handle .., rfl, rfl, rfl,
    hheads.now, hcons.trans (State.advance_cmdCons ..), hseq, hprod, hmem, htaken⟩

/-- A NOP without FENCE is answered at its acceptance (R80). -/
theorem State.serves.nop (h : s.serves n) (hm : s.sys.mode ≠ .start) (hs : s.inSync = false)
    (hc : (s.taking.advance n).check (s.taking.headEntry n) = .ok (0x2000, c, a))
    (hf : (s.taking.headEntry n).flags.getLsbD 0 = false) (hnew : s.entry (mkHandle n s.sys.epoch (s.ring n).seq) = none)
    (o : Bool) :
    ∃ t, exec (.takeEntry true o) s = .next t ∧ t.answered (mkHandle n s.sys.epoch (s.ring n).seq) stOk [] ∧
      t = { s.withAnswer t with sys := { s.sys with served := t.sys.served } } := by
  have hcomb : ((s.taking.advance n).journalEntry (s.taking.headEntry n) 0x2000 c a).combined = true := by
    obtain rfl := Option.some.inj (State.cmdInfo_of_check hc)
    rfl
  have hhandle := s.taken_handle n 0x2000 c a
  obtain ⟨hans, hrest⟩ := (s.taken_headsMoved n).accept_nop h.up.1 hm hs rfl hcomb hf rfl (by rw [hhandle, hnew]) o
  exact ⟨_, by rw [State.exec_takeEntry, h.takeEntry_of_ok hs hc true o], hhandle ▸ hans, hrest⟩

/-- A failed check leaves a REJECTED record (R60). -/
theorem State.serves.rejected (h : s.serves n) {st : BitVec 16}
    (hc : (s.taking.advance n).check (s.taking.headEntry n) = .error st) (k o : Bool) :
    ∃ t, exec (.takeEntry k o) s = .next t ∧ t.journal = s.journal ∧
      t.mem.ring = s.mem.ring.store ((s.ring n).cplOff (s.ring n).cplProd) ((s.taking.headEntry n).rejectedRecord st) ∧
      t = { s.withAnswer t with sys := { s.sys with served := t.sys.served } } := by
  have hheads := s.taken_headsMoved n
  refine ⟨_, by rw [State.exec_takeEntry, h.takeEntry_of_error hc k true o], by simp [hheads.journal],
    h.reject_memRing rfl hheads.mem st, (hheads.entryTaken.answer ?_).eq_of_hyk (by simp [hheads.hyk])⟩
  exact State.putRecord_eq ..

/-- A failed journal write is logged and leaves a REJECTED record (R30). -/
theorem State.serves.notJournalled (h : s.serves n)
    (hc : (s.taking.advance n).check (s.taking.headEntry n) = .ok (op, c, a)) (o : Bool) :
    ∃ t, exec (.takeEntry false o) s = .next t ∧ t.journal = s.journal ∧
      s.logged t srcSup 0x2003 4 ([BitVec.ofNat 8 n, 0, 0, 0] ++ le 4 (s.taking.ring n).cmdCons
        ++ le 2 (s.taking.headEntry n).opcode) ∧
      t.mem.ring = s.mem.ring.store ((s.ring n).cplOff (s.ring n).cplProd)
        ((s.taking.headEntry n).rejectedRecord stJournalFailed) := by
  have hheads := s.taken_headsMoved n
  refine ⟨_, by rw [State.exec_takeEntry, h.takeEntry_of_notJournalled hc true o], by simp [hheads.journal],
    State.logged_congr (State.raise_logged ..) hheads.hyk.symm (State.reject_hyk ..), h.reject_memRing ?_ ?_ _⟩
  · exact State.raise_rings ..
  · rw [State.raise_mem, hheads.mem]

/-- A standby that stays silent is LAGGING, and a REJECTED record is left (R70, R302). -/
theorem State.serves.noAck (h : s.serves n) (hs : s.inSync = true)
    (hc : (s.taking.advance n).check (s.taking.headEntry n) = .ok (op, c, a)) :
    ∃ t, exec .partnerNoAck s = .next t ∧ t.journal = s.journal ∧ t.dpx.standby = 3 ∧ t.dpx.lags = satInc s.dpx.lags ∧
      t.mem.ring = s.mem.ring.store ((s.ring n).cplOff (s.ring n).cplProd)
        ((s.taking.headEntry n).rejectedRecord stPartnerNoAck) := by
  have hheads := s.taken_headsMoved n
  obtain ⟨q, hq⟩ := h.takeEntry_of_noAck hs hc true
  have hsync : ((s.taking.advance n).emit (.mirrorAccept q)).inSync = true := by
    rw [State.inSync, State.emit_dpx, hheads.dpx]; exact hs
  have hexec : exec .partnerNoAck s = .next (effPartnerNoAck s) := rfl
  refine ⟨_, by rw [hexec, effPartnerNoAck, if_pos hs, hq], ?_, ?_, ?_, h.reject_memRing ?_ ?_ _⟩
  · simp [hheads.journal]
  · simp [State.lag_dpx hsync]
  · simp [State.lag_dpx hsync, hheads.dpx]
  · simp
  · simp [hheads.mem]

end

/-- Settles O20: TAKE_ENTRY moves heads of command rings and nothing else (`State.taken_headsMoved`), then goes one of the
five ways stated above it. -/
theorem entriesAreTakenInOrder : Obligations.EntriesAreTakenInOrder :=
  ⟨fun _ o _ _ _ _ h hs hc hq => h.queued hs hc hq o,
   fun _ o _ _ _ h hm hs hc hf hnew => h.nop hm hs hc hf hnew o,
   fun _ k o _ _ h hc => h.rejected hc k o,
   fun _ o _ _ _ _ h hc => h.notJournalled hc o,
   fun _ _ _ _ _ h hs hc => h.noAck hs hc⟩

end Sys2Proof.Machine
end

section
/-! The mailbox registers of a ring pair: doorbell, consumer index and interrupt (R58, R64, R65, R67), and the obligations of
03_mailboxes_and_handles.md about them. -/

namespace Sys2Proof

/-- A change of one entry depends on what it makes of the entry that stands there. -/
theorem Tbl.upd_congr {α : Type} [DecidableEq α] (d : Nat → α) (t : Tbl α) (i : Nat) {f g : α → α}
    (h : f (Tbl.get d t i) = g (Tbl.get d t i)) : Tbl.upd d t i f = Tbl.upd d t i g := by
  rw [Tbl.upd, h, Tbl.upd]

end Sys2Proof

namespace Sys2Proof.Machine

/-! ## Writes to the control block of a ring pair -/

/-- The owner of a ring pair writes its control block while the mailboxes answer (R58, R434). -/
theorem State.ringWrite_of_owner {s : State} {p : Party} {n : Nat} (hup : s.mailboxUp = true) (hown : ownsRing p n = true)
    (hleg : p = .legacy → s.sys.legacyWrite = true) (hsvc : p = .service → s.upd.granted = true) (off : Nat) (v : Word)
    (f : State → State) : s.ringWrite p n off v f = f s := by
  have hgranted : ¬ (p = .service ∧ (!s.upd.granted) = true) := fun ⟨hp, hg⟩ => by simp [hsvc hp] at hg
  have hallowed : ¬ (p = .legacy ∧ (!s.sys.legacyWrite) = true) := fun ⟨hp, hl⟩ => by simp [hleg hp] at hl
  simp only [State.ringWrite, hup, hown, if_neg hgranted, if_neg hallowed, Bool.not_true, Bool.false_eq_true, if_false, if_true]

/-- A PCI Express write to a ring pair of another owner is recorded with reason 4 (R434, R390). -/
theorem State.ringWrite_of_foreign {s : State} {n : Nat} (hup : s.mailboxUp = true) (hn : 8 ≤ n) (off : Nat) (v : Word)
    (f : State → State) : s.ringWrite .pcie n off v f =
      s.raise srcHost 0x2001 3 ([0, 4, 0, 0] ++ leBytes 4 (0x10000 + n * 0x800 + off) ++ le 4 v) := by
  have hown : ownsRing .pcie n = false := by simpa [ownsRing] using hn
  simp [State.ringWrite, hup, hown, State.forbid, State.refuseWrite, partyCode]

/-! ## Doorbells -/

/-- What a doorbell makes of its ring pair (R64). -/
def Ring.rung (r : Ring) (v : Word) : Ring :=
  if (v - r.cmdCons).toNat ≤ r.depth ∧ (r.cmdProd - r.cmdCons).toNat ≤ (v - r.cmdCons).toNat then { r with cmdProd := v }
  else { r with doorbellErr := true }

theorem State.writeDoorbell_eq (s : State) (n : Nat) (v : Word) :
    s.writeDoorbell n v = { s with rings := Tbl.upd Ring.reset s.rings n fun r => r.rung v } := by
  unfold State.writeDoorbell State.modRing
  dsimp only
  split
  · next h => rw [Tbl.upd_congr Ring.reset s.rings n (g := fun r => r.rung v) (if_pos h).symm]
  · next h => rw [Tbl.upd_congr Ring.reset s.rings n (g := fun r => r.rung v) (if_neg h).symm]

/-- Settles O18: the owner's write reaches `State.writeDoorbell` (`State.ringWrite_of_owner`), a foreign one is recorded. -/
theorem doorbellsCoverEntries : Obligations.DoorbellsCoverEntries := by
  refine ⟨fun s p n v hup hown hleg hsvc => ?_, fun s n v hup hn => ?_⟩
  · have hexec : exec (.doorbellWrite p n v) s = .next (s.ringWrite p n 0x008 v fun s => s.writeDoorbell n v) := rfl
    rw [hexec, State.ringWrite_of_owner hup hown hleg hsvc, State.writeDoorbell_eq]
    rfl
  · have hexec : exec (.doorbellWrite .pcie n v) s = .next (s.ringWrite .pcie n 0x008 v fun s => s.writeDoorbell n v) := rfl
    have hoff : 0x10000 + n.val * 0x800 + 0x008 = 0x10008 + n.val * 0x800 := by omega
    rw [hexec, State.ringWrite_of_foreign hup hn, hoff]
    exact ⟨_, rfl, State.raise_logged .., State.raise_eq ..⟩

/-! ## The interrupt of a ring pair -/

/-- A signal of ring pairs 0 to 7 is their vector, or its pending bit while masked (R56, R436). -/
theorem State.signal_of_host {s : State} {n : Nat} (hn : n < 8) (hd : s.domOn 5 = true) : s.signal n =
    if s.host.masked n then { s with host := { s.host with pba := s.host.pba ||| (1 <<< n) } }
    else { s with sent := .msix n :: s.sent } := by
  rw [State.signal, if_pos hn, State.msix, if_pos hd]
  rfl

/-- A signal of the other ring pairs reaches the service side from ring pair 24 on, and nobody below (R56). -/
theorem State.signal_of_other {s : State} {n : Nat} (hn : 8 ≤ n) :
    s.signal n = if 24 ≤ n then { s with sent := .serviceIrq :: s.sent } else s := by
  rw [State.signal, if_neg (by omega)]
  rfl

/-- A signal sets at most pending bits and sends at most a message. -/
theorem State.signal_eq (s : State) (n : Nat) :
    s.signal n = { s with host := { s.host with pba := (s.signal n).host.pba }, sent := (s.signal n).sent } := by
  have hhost : (s.signal n).host = { s.host with pba := (s.signal n).host.pba } := by
    unfold State.signal
    split
    · exact State.msix_host s n
    · split <;> rfl
  apply State.ext_parts <;> first | exact hhost | simp

theorem State.exec_irqTimerExpiry (s : State) (n : Fin 32) : exec (.irqTimerExpiry n) s =
    .next (if s.mailboxUp && (s.ring n).irqOn s.now then s.signal n else s) := rfl

/-- Settles O23: the expiry signals exactly while the condition of R67 holds. -/
theorem ringInterrupts : Obligations.RingInterrupts := by
  refine ⟨fun s n hup hon hn hd => ?_, fun s n hup hon hn => ?_, fun s n hoff => ?_⟩
  · rw [State.exec_irqTimerExpiry, hup, hon, Bool.and_self, if_pos rfl, State.signal_of_host hn hd]
  · rw [State.exec_irqTimerExpiry, hup, hon, Bool.and_self, if_pos rfl, State.signal_of_other hn]
  · rw [State.exec_irqTimerExpiry, hoff, Bool.and_false, if_neg Bool.false_ne_true]

/-! ## Consumer indices -/

/-- A consumer index that moves to `v` passes the record of index `i` (R65). -/
def Ring.passes (r : Ring) (v i : Word) : Bool := decide ((i - r.cplCons).toNat < (v - r.cplCons).toNat)

/-- The consumer index of ring pair `n` has moved to `v`: the records it passed are delivered, and their finished handles
have left the journal (R65, R73). -/
def State.passed (s : State) (n : Nat) (v : Word) : State :=
  (s.modRing n fun r => { r with
    cplCons := v, undelivered := r.undelivered.filter fun u => !(s.ring n).passes v u.1 }).modJournal fun j =>
      j.filter fun e => !(e.ring == n && e.phase == .doneWritten && (s.ring n).passes v e.doneAt)

/-- An index that is taken: delivery, then the waiting records, then ACCEPT_HELD (R63, R65, R66). -/
theorem State.consume_eq (s : State) (n : Nat) (v : Word) : s.consume n v =
    let t := State.drainRecords n ((s.passed n v).ring n).backlog (s.passed n v)
    if t.room n then t.modRing n fun r => { r with acceptHeld := false } else t := rfl

theorem State.passed_pair (s : State) (n : Nat) (v : Word) : (s.passed n v).ring n = { s.ring n with
    cplCons := v, undelivered := (s.ring n).undelivered.filter fun u => !(s.ring n).passes v u.1 } :=
  (State.ring_congr (State.modJournal_rings ..) n).trans (State.ring_modRing_self ..)

theorem State.passed_others (s : State) {n k : Nat} (v : Word) (h : k ≠ n) : (s.passed n v).ring k = s.ring k :=
  (State.ring_congr (State.modJournal_rings ..) k).trans (State.ring_modRing_ne s _ h)

/-! ## Waiting records -/

theorem State.placeRecord_pair (s : State) (n : Nat) (rec : Bytes) (c : Bool) : (s.placeRecord n rec c).ring n = { s.ring n with
    cplProd := (s.ring n).cplProd + 1, undelivered := (s.ring n).undelivered ++ [((s.ring n).cplProd, s.now, c)] } := by
  unfold State.placeRecord
  dsimp only
  rw [State.irqEdge_ring, State.ring_modRing_self]
  rfl

theorem State.placeRecord_others (s : State) {n k : Nat} (rec : Bytes) (c : Bool) (h : k ≠ n) :
    (s.placeRecord n rec c).ring k = s.ring k := by
  unfold State.placeRecord
  dsimp only
  rw [State.irqEdge_ring, State.ring_modRing_ne _ _ h]
  rfl

/-- A waiting record is written into its slot; the last of a replay sets REPLAY_DONE (R63, R73). -/
def State.placeWaiting (s : State) (n : Nat) (w : Bytes × Bool × Bool) : State :=
  let t := s.placeRecord n w.1 w.2.1
  if w.2.2 then t.modRing n fun r => { r with replayDone := true } else t

theorem State.drainRecords_cons (s : State) (n : Nat) (w : Bytes × Bool × Bool) (l : List (Bytes × Bool × Bool)) :
    State.drainRecords n (w :: l) s = if (s.ring n).full then s.modRing n fun r => { r with backlog := w :: l }
      else State.drainRecords n l (s.placeWaiting n w) := rfl

/-- A record written into its slot moves the producer index by one and no other index. -/
theorem State.placeWaiting_pair (s : State) (n : Nat) (w : Bytes × Bool × Bool) :
    ((s.placeWaiting n w).ring n).cplProd = (s.ring n).cplProd + 1 ∧
      ((s.placeWaiting n w).ring n).cplCons = (s.ring n).cplCons ∧
      ((s.placeWaiting n w).ring n).depth = (s.ring n).depth := by
  unfold State.placeWaiting
  dsimp only
  split
  · rw [State.ring_modRing_self, State.placeRecord_pair]; exact ⟨rfl, rfl, rfl⟩
  · rw [State.placeRecord_pair]; exact ⟨rfl, rfl, rfl⟩

theorem State.placeWaiting_others (s : State) {n k : Nat} (w : Bytes × Bool × Bool) (h : k ≠ n) :
    (s.placeWaiting n w).ring k = s.ring k := by
  unfold State.placeWaiting
  dsimp only
  split
  · rw [State.ring_modRing_ne _ _ h, State.placeRecord_others s _ _ h]
  · exact State.placeRecord_others s _ _ h

theorem State.drainRecords_others {n k : Nat} (h : k ≠ n) (l : List (Bytes × Bool × Bool)) (s : State) :
    (State.drainRecords n l s).ring k = s.ring k := by
  induction l generalizing s with
  | nil => exact State.ring_modRing_ne s _ h
  | cons w l ih =>
    rw [State.drainRecords_cons]
    split
    · exact State.ring_modRing_ne s _ h
    · rw [ih, State.placeWaiting_others s w h]

theorem Ring.depth_le (r : Ring) : r.depth ≤ 2 ^ 15 :=
  Nat.pow_le_pow_right (by decide) (by have := r.depthLog2.isLt; omega)

/-- Waiting records that fit into the free slots are all written (R63). -/
theorem State.drainRecords_of_fits {n : Nat} (l : List (Bytes × Bool × Bool)) (s : State)
    (h : ((s.ring n).cplProd - (s.ring n).cplCons).toNat + l.length ≤ (s.ring n).depth) :
    ((State.drainRecords n l s).ring n).cplCons = (s.ring n).cplCons ∧ ((State.drainRecords n l s).ring n).backlog = [] ∧
      ((State.drainRecords n l s).ring n).cplProd = (s.ring n).cplProd + BitVec.ofNat 32 l.length := by
  induction l generalizing s with
  | nil =>
    rw [State.drainRecords, State.ring_modRing_self]
    exact ⟨rfl, rfl, by simp⟩
  | cons w l ih =>
    obtain ⟨hprod, hcons, hdepth⟩ := s.placeWaiting_pair n w
    have hle := (s.ring n).depth_le
    rw [List.length_cons] at h
    have hroom : (s.ring n).full = false := by
      rw [Ring.full, decide_eq_false_iff_not]; omega
    have hone : ((s.ring n).cplProd + 1 - (s.ring n).cplCons).toNat = ((s.ring n).cplProd - (s.ring n).cplCons).toNat + 1 := by
      bv_omega
    obtain ⟨hcons', hback, hprod'⟩ := ih (s.placeWaiting n w) (by rw [hprod, hcons, hdepth, hone]; omega)
    rw [State.drainRecords_cons, hroom, if_neg Bool.false_ne_true]
    refine ⟨hcons'.trans hcons, hback, hprod'.trans ?_⟩
    rw [hprod]
    rw [List.length_cons, Nat.add_comm l.length 1, BitVec.ofNat_add, BitVec.add_assoc]
    rfl

/-! ## A consumer index that is taken, and one that is not -/

section
variable {s : State} {n : Nat} {v : Word}

/-- Besides ACCEPT_HELD the ring pair is as the waiting records leave it. -/
theorem State.consume_pair (s : State) (n : Nat) (v : Word) : ∃ held, (s.consume n v).ring n =
    { (State.drainRecords n (s.ring n).backlog (s.passed n v)).ring n with acceptHeld := held } := by
  have hwait : ((s.passed n v).ring n).backlog = (s.ring n).backlog := by rw [State.passed_pair]
  rw [State.consume_eq, hwait]
  dsimp only
  split
  · exact ⟨false, State.ring_modRing_self ..⟩
  · exact ⟨_, rfl⟩

theorem State.consume_others {k : Nat} (h : k ≠ n) : (s.consume n v).ring k = s.ring k := by
  rw [State.consume_eq]
  dsimp only
  split
  · rw [State.ring_modRing_ne _ _ h, State.drainRecords_others h, State.passed_others s v h]
  · rw [State.drainRecords_others h, State.passed_others s v h]

/-- While no record waits, delivery and ACCEPT_HELD are all there is. -/
theorem State.consume_of_noneWaiting (h : (s.ring n).backlog = []) :
    ∃ rings, s.consume n v = { s with rings := rings, journal := (s.passed n v).journal } := by
  have hwait : ((s.passed n v).ring n).backlog = [] := by rw [State.passed_pair]; exact h
  obtain ⟨rings, hdrained⟩ : ∃ rings, State.drainRecords n [] (s.passed n v) =
      { s with rings := rings, journal := (s.passed n v).journal } := ⟨_, rfl⟩
  rw [State.consume_eq, hwait, hdrained]
  dsimp only
  split
  · exact ⟨_, rfl⟩
  · exact ⟨_, rfl⟩

/-- An index that is taken: the interrupt condition is evaluated again after it (R65, R67). -/
theorem State.writeCons_of_taken (h : (v - (s.ring n).cplCons).toNat ≤ ((s.ring n).cplProd - (s.ring n).cplCons).toNat) :
    s.writeCons n v = s.consume n v ∨ s.writeCons n v = (s.consume n v).signal n := by
  unfold State.writeCons
  dsimp only
  rw [if_pos h]
  split
  · exact .inr rfl
  · exact .inl rfl

theorem State.writeCons_ring (h : (v - (s.ring n).cplCons).toNat ≤ ((s.ring n).cplProd - (s.ring n).cplCons).toNat) (k : Nat) :
    (s.writeCons n v).ring k = (s.consume n v).ring k := by
  rcases State.writeCons_of_taken h with h | h
  · rw [h]
  · rw [h]; exact State.ring_congr (State.signal_rings ..) k

/-- While no record waits, a consumer index changes ring pairs, the journal and what an interrupt sends. -/
theorem State.writeCons_of_noneWaiting
    (h : (v - (s.ring n).cplCons).toNat ≤ ((s.ring n).cplProd - (s.ring n).cplCons).toNat) (hb : (s.ring n).backlog = []) :
    (s.writeCons n v).journal = (s.passed n v).journal ∧
      s.writeCons n v = { s with
        rings := (s.writeCons n v).rings, journal := (s.writeCons n v).journal
        host := { s.host with pba := (s.writeCons n v).host.pba }, sent := (s.writeCons n v).sent } := by
  obtain ⟨rings, hc⟩ := State.consume_of_noneWaiting (v := v) hb
  rcases State.writeCons_of_taken h with h | h
  · rw [h, hc]; exact ⟨rfl, rfl⟩
  · rw [h, hc, State.signal_eq]; exact ⟨rfl, rfl⟩

/-- An index beyond the producer index or behind the previous one sets CONS_ERR alone (R65). -/
theorem State.writeCons_of_wrong (h : ((s.ring n).cplProd - (s.ring n).cplCons).toNat < (v - (s.ring n).cplCons).toNat) :
    s.writeCons n v = { s with rings := Tbl.upd Ring.reset s.rings n fun r => { r with consErr := true } } := by
  unfold State.writeCons
  dsimp only
  rw [if_neg (by omega)]
  rfl

theorem State.mem_passed_undelivered {u : Word × Nat × Bool} : u ∈ ((s.passed n v).ring n).undelivered ↔
    u ∈ (s.ring n).undelivered ∧ ¬ (u.1 - (s.ring n).cplCons).toNat < (v - (s.ring n).cplCons).toNat := by
  rw [State.passed_pair]
  simp [Ring.passes]

theorem State.mem_passed_journal {e : JEntry} : e ∈ (s.passed n v).journal ↔ e ∈ s.journal ∧
    ¬ (e.ring = n ∧ e.phase = .doneWritten ∧ (e.doneAt - (s.ring n).cplCons).toNat < (v - (s.ring n).cplCons).toNat) := by
  simp only [State.passed, State.modJournal_journal, State.modRing_journal, List.mem_filter, Ring.passes,
    ← Bool.not_eq_true, Bool.not_eq_true', Bool.and_eq_true, beq_iff_eq, decide_eq_true_eq, and_assoc]

end

theorem State.exec_cplConsWrite_of_owner {s : State} {p : Party} {n : Fin 32} (hup : s.mailboxUp = true)
    (hown : ownsRing p n = true) (hleg : p = .legacy → s.sys.legacyWrite = true) (hsvc : p = .service → s.upd.granted = true)
    (v : Word) : exec (.cplConsWrite p n v) s = .next (s.writeCons n v) := by
  have hexec : exec (.cplConsWrite p n v) s = .next (s.ringWrite p n 0x014 v fun s => s.writeCons n v) := rfl
  rw [hexec, State.ringWrite_of_owner hup hown hleg hsvc]

/-- Settles O19: delivery is `State.passed`, waiting records that fit are written one by one (`State.drainRecords_of_fits`),
and nothing but the interrupt follows (`State.writeCons_of_taken`). -/
theorem consumerIndexDelivers : Obligations.ConsumerIndexDelivers := by
  refine ⟨fun s p n v hup hown hleg hsvc hv hb => ?_, fun s p n v hup hown hleg hsvc hv hfit => ?_,
    fun s p n v hup hown hleg hsvc hv => ?_⟩
  · obtain ⟨hjournal, hrest⟩ := State.writeCons_of_noneWaiting hv hb
    obtain ⟨held, hpair⟩ := s.consume_pair n v
    rw [hb, State.drainRecords, State.ring_modRing_self] at hpair
    have hring := State.writeCons_ring hv
    refine ⟨_, State.exec_cplConsWrite_of_owner hup hown hleg hsvc v, ?_, fun u => ?_, fun e => ?_, fun k hk => ?_, hrest⟩
    · rw [hring, hpair, State.passed_pair]
    · rw [hring, hpair]; exact State.mem_passed_undelivered
    · rw [hjournal]; exact State.mem_passed_journal
    · rw [hring]; exact State.consume_others hk
  · obtain ⟨held, hpair⟩ := s.consume_pair n v
    have hring := State.writeCons_ring hv
    obtain ⟨hcons, hback, hprod⟩ := State.drainRecords_of_fits (s.ring n).backlog (s.passed n v)
      (by rw [State.passed_pair]; exact hfit)
    rw [State.passed_pair] at hcons hprod
    refine ⟨_, State.exec_cplConsWrite_of_owner hup hown hleg hsvc v, ?_, ?_, ?_, fun k hk => ?_⟩
    · rw [hring, hpair]; exact hcons
    · rw [hring, hpair]; exact hback
    · rw [hring, hpair]; exact hprod
    · rw [hring]; exact State.consume_others hk
  · rw [State.exec_cplConsWrite_of_owner hup hown hleg hsvc, State.writeCons_of_wrong hv]

/-! ## Status queries -/

section
variable {s : State} {h : Quad} {op : BitVec 16} {v : Bool} {e : JEntry}

theorem State.begins.v1 (b : s.begins h op v e) : e.v1 = v := by
  obtain ⟨-, -, hv, -⟩ := b
  exact hv

/-- A command that is answered at its beginning and does nothing else (R32, R80). -/
theorem State.begins.completed (b : s.begins h op v e) (st : BitVec 16) (r : Bytes) :
    s.answers (s.complete e.handle st r) h e.ring st r ∧ s.complete e.handle st r = s.withAnswer (s.complete e.handle st r) := by
  rw [State.entry_handle (State.begins_entry b)]
  exact ⟨State.answers_complete (State.begins_entry b) (State.begins_uncommitted b) .., State.complete_eq ..⟩

end

/-- Settles O21: each query, once begun, is one completion (`State.begins.completed`). -/
theorem queriesAnswerAtOnce : Obligations.QueriesAnswerAtOnce := by
  refine ⟨fun s h v e b => ?_, fun s h e b => ?_, fun s h e b => ?_, fun s h e b hq => ?_, fun s h e x b hq => ?_⟩
  · have hexec : exec (if v then .v1Nop h else .nop h) s = .next (s.begin h 0x2000 v fun e => s.doNop e) := by cases v <;> rfl
    rw [hexec, State.begin_of b, State.doNop]
    exact ⟨_, rfl, b.completed ..⟩
  · have hexec : exec (.statusGet h) s = .next (s.begin h 0x2001 false fun e => s.doStatus e) := rfl
    have hhandle := State.entry_handle (State.begins_entry b)
    obtain ⟨hans, hrest⟩ := b.completed stOk (le 4 s.sys.modeWord ++ [s.dpx.role.setWidth 8, s.dpx.standby.setWidth 8, 0, 0]
      ++ leBytes 8 s.now ++ leBytes 4 s.sys.epoch.toNat ++ leBytes 4 (s.outstandingAll h))
    rw [hhandle] at hans hrest
    rw [hexec, State.begin_of b, State.doStatus, b.v1, hhandle]
    exact ⟨_, rfl, hrest, hans⟩
  · have hexec : exec (.statusV1 h) s = .next (s.begin h 0x2001 true fun e => s.doStatus e) := rfl
    rw [hexec, State.begin_of b, State.doStatus, b.v1]
    exact ⟨_, rfl, (b.completed ..).symm⟩
  · have hexec : exec (.handleQuery h) s = .next (s.begin h 0x2002 false fun e => s.doQuery e) := rfl
    rw [hexec, State.begin_of b, State.doQuery, hq]
    exact ⟨_, rfl, b.completed ..⟩
  · have hexec : exec (.handleQuery h) s = .next (s.begin h 0x2002 false fun e => s.doQuery e) := rfl
    rw [hexec, State.begin_of b, State.doQuery, hq]
    exact ⟨_, rfl, (b.completed ..).symm⟩

end Sys2Proof.Machine
end

section
/-! Runtime calls of standard tasks and refused accesses (R77, R88, R92, R103, R192), and the obligation of
03_mailboxes_and_handles.md about them. -/

namespace Sys2Proof.Machine

/-! ## An event of a program at the recorder -/

theorem padTo_padTo (n : Nat) (b : Bytes) : padTo n (padTo n b) = padTo n b :=
  List.take_left' (padTo_length n b)

/-- The recorder `h` is `g` with one more event raised and no entry written; the buckets may differ (R391, R393). -/
structure Hyk.raisedFrom (h g : Hyk) : Prop where
  raised : h.raised = g.raised + 1
  written : h.written = g.written
  dropped : h.dropped = g.dropped
  general : h.general = g.general
  safety : h.safety = g.safety
  genNext : h.genNext = g.genNext
  safNext : h.safNext = g.safNext
  genSeq : h.genSeq = g.genSeq
  safSeq : h.safSeq = g.safSeq

/-- An offered event at its bucket: the recorder after it, and whether the event may be written (R393). -/
def State.atBucket (s : State) (code : BitVec 16) (sev : BitVec 4) : Hyk × Verdict :=
  let h := { s.hyk with raised := s.hyk.raised + 1 }
  if limitedCode code then h.limit code sev (BitVec.ofNat 48 s.opMs) else (h, .write)

theorem State.atBucket_raisedFrom (s : State) (code : BitVec 16) (sev : BitVec 4) :
    (s.atBucket code sev).1.raisedFrom s.hyk := by
  unfold State.atBucket
  dsimp only
  split
  · obtain ⟨h1, h2, h3, h4, h5, h6, h7, h8, h9⟩ :=
      Hyk.limit_buckets { s.hyk with raised := s.hyk.raised + 1 } code sev (BitVec.ofNat 48 s.opMs)
    exact ⟨h1, h2, h3, h4, h5, h6, h7, h8, h9⟩
  · exact ⟨rfl, rfl, rfl, rfl, rfl, rfl, rfl, rfl, rfl⟩

/-- Only a rate-limited code is ever dropped (R393). -/
theorem State.limitedCode_of_drop {s : State} {code : BitVec 16} {sev : BitVec 4} (h : (s.atBucket code sev).2 = .drop) :
    limitedCode code = true := by
  unfold State.atBucket at h
  dsimp only at h
  split at h
  · assumption
  · simp at h

section
variable {s : State} {src : Byte} {code : BitVec 16} {sev : BitVec 4} {data : Bytes} {re : Bool}

/-- The entry that an event of a task becomes (R385). -/
def State.taskEntry (s : State) (src : Byte) (code : BitVec 16) (sev : BitVec 4) (data : Bytes) (re : Bool) : HykEntry :=
  s.entryOf src code (sevFlags sev (safetyEntry src code) false re (s.sys.mode == .follow)) data

/-- The recorder after an event of a task that is written. -/
def State.hykWritten (s : State) (src : Byte) (code : BitVec 16) (sev : BitVec 4) (data : Bytes) (re : Bool) : Hyk :=
  let h := (s.atBucket code sev).1
  Hyk.put { h with written := h.written + 1 } (safetyEntry src code) (s.taskEntry src code sev data re)

/-- A dropped event is counted. -/
theorem State.offer_of_drop (h : (s.atBucket code sev).2 = .drop) : s.offer src code sev data re 0 =
    ({ s with hyk := { (s.atBucket code sev).1 with dropped := (s.atBucket code sev).1.dropped + 1 } }, false) := by
  unfold State.offer
  dsimp only
  generalize hx : (if limitedCode code then Hyk.limit { s.hyk with raised := s.hyk.raised + 1 } code sev _ else _) = x
  have hbucket : s.atBucket code sev = x := hx
  obtain ⟨g, v⟩ := x
  rw [hbucket] at h ⊢
  obtain rfl : v = .drop := h
  rfl

/-- Any other event is counted and written. -/
theorem State.offer_of_write (h : (s.atBucket code sev).2 ≠ .drop) : s.offer src code sev data re 0 =
    ({ s with hyk := s.hykWritten src code sev data re }, true) := by
  unfold State.offer State.hykWritten
  dsimp only
  generalize hx : (if limitedCode code then Hyk.limit { s.hyk with raised := s.hyk.raised + 1 } code sev _ else _) = x
  have hbucket : s.atBucket code sev = x := hx
  obtain ⟨g, v⟩ := x
  rw [hbucket] at h ⊢
  cases v with
  | drop => exact absurd rfl h
  | write => rfl
  | writeUnlimited => rfl

/-- An entry that is written stands in the slot that was next in its partition (R385, R386). -/
theorem State.logged_of_written {t : State} (ht : t.hyk = s.hykWritten src code sev data re) :
    s.logged t src code sev data ∧ t.hyk.dropped = s.hyk.dropped := by
  have hr := s.atBucket_raisedFrom code sev
  unfold State.hykWritten at ht
  dsimp only at ht
  generalize (s.atBucket code sev).1 = h at hr ht
  have hsev : (s.taskEntry src code sev data re).sevFlags.setWidth 4 = sev := sevFlags_low ..
  unfold State.logged
  dsimp only
  cases hs : safetyEntry src code with
  | true =>
    rw [hs] at ht
    obtain ⟨f, hslot, hsrc, hcode, hflags, hdata, hseq⟩ :=
      Hyk.put_safety { h with written := h.written + 1 } (s.taskEntry src code sev data re)
    obtain ⟨hraised, hwritten, hdropped, hgen, hgenNext, hsafNext⟩ :=
      Hyk.put_safety_rest { h with written := h.written + 1 } (s.taskEntry src code sev data re)
    rw [ht]
    refine ⟨⟨hraised.trans hr.raised, .inr ⟨hdropped.trans hr.dropped, ?_, f, hsrc, hcode, ?_, hdata, ?_, ?_, ?_, ?_, ?_⟩⟩,
      hdropped.trans hr.dropped⟩
    · rw [hwritten, ← hr.written]
    · rw [hflags, hsev]
    · rw [hseq, ← hr.safSeq, if_pos rfl]
    · rw [hslot, ← hr.safety, ← hr.safNext, if_pos rfl]
    · rw [hgen, ← hr.general, if_pos rfl]
    · rw [hsafNext, ← hr.safNext, if_pos rfl]
    · rw [hgenNext, ← hr.genNext, if_pos rfl]
  | false =>
    rw [hs] at ht
    obtain ⟨f, hslot, hsrc, hcode, hflags, hdata, hseq⟩ :=
      Hyk.put_general { h with written := h.written + 1 } (s.taskEntry src code sev data re)
    obtain ⟨hraised, hwritten, hdropped, hsaf, hsafNext, hgenNext⟩ :=
      Hyk.put_general_rest { h with written := h.written + 1 } (s.taskEntry src code sev data re)
    rw [ht]
    refine ⟨⟨hraised.trans hr.raised, .inr ⟨hdropped.trans hr.dropped, ?_, f, hsrc, hcode, ?_, hdata, ?_, ?_, ?_, ?_, ?_⟩⟩,
      hdropped.trans hr.dropped⟩
    · rw [hwritten, ← hr.written]
    · rw [hflags, hsev]
    · rw [hseq, ← hr.genSeq, if_neg Bool.false_ne_true]
    · rw [hsaf, ← hr.safety, if_neg Bool.false_ne_true]
    · rw [hslot, ← hr.general, ← hr.genNext, if_neg Bool.false_ne_true]
    · rw [hsafNext, ← hr.safNext, if_neg Bool.false_ne_true]
    · rw [hgenNext, ← hr.genNext, if_neg Bool.false_ne_true]

/-- An offered event is one accepted event, and the answer says whether it was dropped, also of a task that is re-executed
(R391, R393). -/
theorem State.offer_logged (s : State) (src : Byte) (code : BitVec 16) (sev : BitVec 4) (data : Bytes) (re : Bool) :
    s.logged (s.offer src code sev data re 0).1 src code sev data ∧
      ((s.offer src code sev data re 0).2 = true ↔ (s.offer src code sev data re 0).1.hyk.dropped = s.hyk.dropped) := by
  have hr := s.atBucket_raisedFrom code sev
  by_cases hv : (s.atBucket code sev).2 = .drop
  · rw [State.offer_of_drop hv]
    refine ⟨⟨hr.raised, .inl ⟨?_, State.limitedCode_of_drop hv, hr.written, hr.general, hr.safety, hr.genNext, hr.safNext⟩⟩,
      ?_⟩
    · rw [← hr.dropped]
    · simp [hr.dropped]
  · rw [State.offer_of_write hv]
    have hwritten := State.logged_of_written (t := { s with hyk := s.hykWritten src code sev data re }) rfl
    exact ⟨hwritten.1, iff_of_true rfl hwritten.2⟩

/-- Offering an event changes the recorder alone. -/
theorem State.offer_eq (s : State) (src : Byte) (code : BitVec 16) (sev : BitVec 4) (data : Bytes) (re : Bool) :
    (s.offer src code sev data re 0).1 = { s with hyk := (s.offer src code sev data re 0).1.hyk } := by
  by_cases hv : (s.atBucket code sev).2 = .drop
  · rw [State.offer_of_drop hv]
  · rw [State.offer_of_write hv]

/-- An entry keeps twelve bytes of an event's data (R385). -/
theorem State.logged_padTo {t : State} (h : s.logged t src code sev (padTo 12 data)) : s.logged t src code sev data := by
  unfold State.logged at *
  rwa [padTo_padTo] at h

end

/-! ## A call that is made -/

theorem State.call_of_calling {s : State} {c : Caller} {may : Bool} (h : s.calling c = true) (hm : may = true)
    (f : State → State) : s.call c may f = f s := by
  simp [State.call, h, hm]

theorem State.call_of_task {s : State} {k : Fin 17} (h : s.calling ⟨k, false⟩ = true) (f : State → State) :
    s.call ⟨k, false⟩ (!Caller.ini ⟨k, false⟩) f = f s := State.call_of_calling h rfl f

/-- The groups of the standard tasks: ring pairs 12 to 19 (R56). -/
theorem groupRing_of_standard {k : Fin 17} (hk : k ≠ 0) (r : Nat) : groupRing k r = true ↔ 12 ≤ r ∧ r < 20 := by
  have h : (k : Nat) ≠ 0 := fun h => hk (Fin.ext h)
  simp [groupRing, h]

/-- What a call hands back stands in its task, and nothing else of the task changes. -/
theorem State.ret_task (s : State) (c : Caller) (code : Word) (l : List Quad) (b : Bytes) :
    (s.ret c code l b).task c.task = { s.task c.task with ret := ⟨code, l, b⟩ } := State.task_modTask_self ..

theorem State.ret_task_ne (s : State) (c : Caller) (code : Word) (l : List Quad) (b : Bytes) {n : Nat} (h : n ≠ c.task) :
    (s.ret c code l b).task n = s.task n := State.task_modTask_ne s _ h

@[simp] theorem State.ret_ring (s : State) (c : Caller) (code : Word) (l : List Quad) (b : Bytes) (n : Nat) :
    (s.ret c code l b).ring n = s.ring n := rfl
@[simp] theorem State.ret_mem (s : State) (c : Caller) (code : Word) (l : List Quad) (b : Bytes) :
    (s.ret c code l b).mem = s.mem := rfl
@[simp] theorem State.ret_hyk (s : State) (c : Caller) (code : Word) (l : List Quad) (b : Bytes) :
    (s.ret c code l b).hyk = s.hyk := rfl

/-! ## CMD_SUBMIT -/

section
variable (s : State) (k r : Nat) (b : Bytes)

/-- The entry stands in the next free slot of its ring (R88). -/
theorem State.submit_mem : (s.submit k r b).mem = { s.mem with
    ring := s.mem.ring.store ((s.ring r).cmdOff (s.nextEntry r)) (padTo 64 b) } := rfl

theorem State.submit_rest : ∃ mem rings tasks, s.submit k r b = { s with mem := mem, rings := rings, tasks := tasks } :=
  ⟨_, _, _, rfl⟩

/-- The ring pair notes who submitted it, and that no doorbell covers it yet. -/
theorem State.submit_pair : ∃ from1 subs, (s.submit k r b).ring r = { s.ring r with from1 := from1, subs := subs } := by
  unfold State.submit
  rw [State.ring_congr (State.modTask_rings ..), State.ring_modRing_self]
  exact ⟨_, _, rfl⟩

theorem State.submit_others {n : Nat} (h : n ≠ r) : (s.submit k r b).ring n = s.ring n := by
  unfold State.submit
  rw [State.ring_congr (State.modTask_rings ..), State.ring_modRing_ne _ _ h]
  rfl

/-- The doorbell waits with the task for its publish point. -/
theorem State.submit_task : (s.submit k r b).task k =
    { s.task k with doorbells := (s.task k).doorbells ++ [(r, s.nextEntry r)] } := by
  unfold State.submit
  rw [State.task_modTask_self]
  rfl

theorem State.submit_task_ne {n : Nat} (h : n ≠ k) : (s.submit k r b).task n = s.task n := State.task_modTask_ne _ _ h

end

section
variable {s : State} {k : Fin 17}

/-- CMD_SUBMIT of a standard task: the ring must be one of its group, and have a free slot (R63, R77). -/
theorem State.exec_cmdSubmit (hc : s.calling ⟨k, false⟩ = true) (hk : k ≠ 0) (r : Quad) (b : Bytes) :
    exec (.cmdSubmit ⟨k, false⟩ r b) s = .next
      (if !groupRing k r.toNat then s.ret ⟨k, false⟩ 4 []
      else if !s.hasSlot r.toNat then s.ret ⟨k, false⟩ 1 []
      else (s.submit k r.toNat b).ret ⟨k, false⟩ 0 [res (s.nextEntry r.toNat).toNat]) := by
  have hexec : exec (.cmdSubmit ⟨k, false⟩ r b) s = .next (effCmdSubmit ⟨k, false⟩ r b s) := rfl
  rw [hexec, effCmdSubmit, State.call_of_task hc]
  dsimp only
  rw [if_neg hk]
  rfl

/-- The entry is placed and its doorbell kept (R88). -/
theorem State.cmdSubmit_placed (hc : s.calling ⟨k, false⟩ = true) (hk : k ≠ 0) {r : Quad} (hlo : 12 ≤ r.toNat)
    (hhi : r.toNat < 20) (hslot : s.hasSlot r.toNat = true) (b : Bytes) : exec (.cmdSubmit ⟨k, false⟩ r b) s =
      .next ((s.submit k r.toNat b).ret ⟨k, false⟩ 0 [res (s.nextEntry r.toNat).toNat]) := by
  rw [State.exec_cmdSubmit hc hk, (groupRing_of_standard hk _).mpr ⟨hlo, hhi⟩, hslot]
  rfl

/-! ## CPL_NEXT -/

/-- The value put last for a ring is found. -/
theorem find?_putPair (l : List (Nat × Word)) (r : Nat) (v : Word) :
    ((putPair l r v).find? fun x => x.1 == r) = some (r, v) := by
  have hnone : ((l.filter (·.1 != r)).find? fun x => x.1 == r) = none := by simp
  rw [putPair, List.find?_append, hnone]
  simp

/-- CPL_NEXT of a ring of the caller's group (R77). -/
theorem State.exec_cplNext (hc : s.calling ⟨k, false⟩ = true) {r : Quad} (hg : groupRing k r.toNat = true) :
    exec (.cplNext ⟨k, false⟩ r) s = .next
      (if (s.readEnd k r.toNat - s.readAt k r.toNat).toNat = 0 ∨
          (s.ring r.toNat).depth < (s.readEnd k r.toNat - s.readAt k r.toNat).toNat then s.ret ⟨k, false⟩ 2 []
      else (if k = 0 then s else s.modTask k fun x => { x with
          consumers := putPair x.consumers r.toNat (s.readAt k r.toNat + 1) }).ret ⟨k, false⟩ 0 []
        (s.mem.ring.bytes ((s.ring r.toNat).cplOff (s.readAt k r.toNat)) 64)) := by
  have hexec : exec (.cplNext ⟨k, false⟩ r) s = .next (effCplNext ⟨k, false⟩ r s) := rfl
  rw [hexec, effCplNext, State.call_of_task hc]
  dsimp only
  rw [hg]
  rfl

/-- The consumer index kept for the publish point is where the task reads on (R180). -/
theorem State.readAt_of_consumers {t : State} {k r : Nat} {l : List (Nat × Word)} {v : Word}
    (h : (t.task k).consumers = putPair l r v) : t.readAt k r = v := by
  rw [State.readAt, h, find?_putPair]
  rfl

/-- A record written before the latch point is handed over, and the index behind it is kept (R77). -/
theorem State.cplNext_record (hc : s.calling ⟨k, false⟩ = true) (hk : k ≠ 0) {r : Quad} (hlo : 12 ≤ r.toNat)
    (hhi : r.toNat < 20) (hone : 1 ≤ (s.readEnd k r.toNat - s.readAt k r.toNat).toNat)
    (hdepth : (s.readEnd k r.toNat - s.readAt k r.toNat).toNat ≤ (s.ring r.toNat).depth) :
    ∃ t, exec (.cplNext ⟨k, false⟩ r) s = .next t ∧
      (t.task k).ret = ⟨0, [], s.mem.ring.bytes ((s.ring r.toNat).cplOff (s.readAt k r.toNat)) 64⟩ ∧
      t.readAt k r.toNat = s.readAt k r.toNat + 1 ∧ t = { s with tasks := t.tasks } := by
  have hsome : ¬ ((s.readEnd k r.toNat - s.readAt k r.toNat).toNat = 0 ∨
      (s.ring r.toNat).depth < (s.readEnd k r.toNat - s.readAt k r.toNat).toNat) := by omega
  rw [State.exec_cplNext hc ((groupRing_of_standard hk _).mpr ⟨hlo, hhi⟩), if_neg hsome, if_neg hk]
  refine ⟨_, rfl, ?_, State.readAt_of_consumers (l := (s.task k).consumers) ?_, rfl⟩
  · rw [State.ret_task]
  · rw [State.ret_task, State.task_modTask_self]

/-- Without a record it is EMPTY. -/
theorem State.cplNext_empty (hc : s.calling ⟨k, false⟩ = true) {r : Quad} (hg : groupRing k r.toNat = true)
    (hnone : s.readEnd k r.toNat = s.readAt k r.toNat) :
    exec (.cplNext ⟨k, false⟩ r) s = .next (s.ret ⟨k, false⟩ 2 []) := by
  rw [State.exec_cplNext hc hg, if_pos (.inl (by rw [hnone, BitVec.sub_self]; rfl))]

/-! ## ERR_EVENTS -/

/-- Without a dispatched overflow event the dispatched events are handed over up to the limit (R92, R103). -/
theorem State.errEvents_handedOver (hc : s.calling ⟨k, false⟩ = true) (hl : (s.task k).dispLost = false) (n : Nat) :
    ∃ t, exec (.errEvents ⟨k, false⟩ n) s = .next t ∧
      (t.task k).events = (s.task k).events.drop (Nat.min n (s.task k).dispatched) ∧
      (t.task k).ret = ⟨0, [res ((s.task k).events.take (Nat.min n (s.task k).dispatched)).length],
        ((s.task k).events.take (Nat.min n (s.task k).dispatched)).flatMap ErrEvent.bytes⟩ ∧ t = { s with tasks := t.tasks } := by
  have hexec : exec (.errEvents ⟨k, false⟩ n) s = .next (effErrEvents ⟨k, false⟩ n s) := rfl
  rw [hexec, effErrEvents, State.call_of_task hc]
  dsimp only
  rw [hl]
  refine ⟨_, rfl, ?_, ?_, rfl⟩
  · rw [State.ret_task, State.task_modTask_self]
  · rw [State.ret_task, Bool.false_and, if_neg Bool.false_ne_true, List.append_nil]
    rfl

/-! ## EVENT_LOG and FAULT_RAISE -/

/-- A program-defined code of a standard task reaches the recorder; a dropped event is RATE_LIMITED (R103, R393). -/
theorem State.eventLog_logged (hc : s.calling ⟨k, false⟩ = true) (hk : k ≠ 0) {code : BitVec 16}
    (hcode : code.toNat / 4096 = 8) (d : Bytes) :
    ∃ t v, exec (.eventLog ⟨k, false⟩ code d) s = .next t ∧ s.logged t srcPair code v d ∧
      (t.task k).ret = ⟨if t.hyk.dropped = s.hyk.dropped then 0 else 5, [], []⟩ ∧
      t = { s with hyk := t.hyk, tasks := t.tasks, free := s.free + 1 } := by
  have hexec : exec (.eventLog ⟨k, false⟩ code d) s = .next (effEventLog ⟨k, false⟩ code d s) := rfl
  have hk' : (k : Nat) ≠ 0 := fun h => hk (Fin.ext h)
  obtain ⟨hlogged, hok⟩ := s.offer_logged srcPair code (freeSev s.free) (padTo 12 d) (s.task k).rerun
  have hrest := s.offer_eq srcPair code (freeSev s.free) (padTo 12 d) (s.task k).rerun
  rw [hexec, effEventLog, State.call_of_calling hc rfl]
  dsimp only
  rw [if_neg (by omega), if_neg hk]
  unfold State.logEvent
  dsimp only
  rw [if_neg hk']
  generalize s.offer srcPair code (freeSev s.free) (padTo 12 d) (s.task k).rerun 0 = x at hlogged hok hrest ⊢
  obtain ⟨u, ok⟩ := x
  dsimp only at hlogged hok hrest ⊢
  refine ⟨_, freeSev s.free, rfl, State.logged_padTo (State.logged_congr hlogged rfl rfl), ?_, ?_⟩
  · rw [State.ret_task]
    exact congrArg (RtReturn.mk · [] []) (ite_cond_congr (propext hok))
  · rw [hrest]; rfl

/-- Another code is BAD_ARGUMENT. -/
theorem State.eventLog_badArgument {c : Caller} (hc : s.calling c = true) {code : BitVec 16} (hcode : code.toNat / 4096 ≠ 8)
    (d : Bytes) : exec (.eventLog c code d) s = .next (s.ret c 4 []) := by
  have hexec : exec (.eventLog c code d) s = .next (effEventLog c code d s) := rfl
  rw [hexec, effEventLog, State.call_of_calling hc rfl, if_pos hcode]
  rfl

/-- FAULT_RAISE with reaction 1 is recorded and asks for HALT after the publish point (R103). -/
theorem State.faultRaise_halts (hc : s.calling ⟨k, false⟩ = true) (hk : k ≠ 0) (d : Bytes) :
    ∃ t, exec (.faultRaise ⟨k, false⟩ 1 d) s = .next t ∧ s.logged t srcPair 0x3007 5 (padTo 12 d) ∧
      (t.task k).haltAfter = some 0x08 ∧ (t.task k).ret = ⟨0, [], []⟩ ∧ t = { s with hyk := t.hyk, tasks := t.tasks } := by
  have hexec : exec (.faultRaise ⟨k, false⟩ 1 d) s = .next (effFaultRaise ⟨k, false⟩ 1 d s) := rfl
  have hk' : (k : Nat) ≠ 0 := fun h => hk (Fin.ext h)
  have hraise : s.raiseFault k 1 (padTo 12 d) =
      (s.offer srcPair 0x3007 5 (padTo 12 d) (s.task k).rerun 0).1.modTask k fun x => { x with haltAfter := some 0x08 } := by
    simp [State.raiseFault, hk']
  rw [hexec, effFaultRaise, State.call_of_task hc]
  dsimp only
  rw [if_neg (by decide), if_neg hk]
  have hone : (1 : Quad).toNat = 1 := rfl
  obtain ⟨hlogged, -⟩ := s.offer_logged srcPair 0x3007 5 (padTo 12 d) (s.task k).rerun
  have hrest := s.offer_eq srcPair 0x3007 5 (padTo 12 d) (s.task k).rerun
  rw [hone, hraise]
  refine ⟨_, rfl, State.logged_congr hlogged rfl (by rw [State.ret_hyk, State.modTask_hyk]), ?_, ?_, ?_⟩
  · rw [State.ret_task, State.task_modTask_self]
  · rw [State.ret_task]; rfl
  · rw [hrest]; rfl

/-- A reaction above 1 is BAD_ARGUMENT. -/
theorem State.faultRaise_badArgument {c : Caller} (hc : s.calling c = true) (hi : c.ini = false) {q : Quad}
    (hq : 1 < q.toNat) (d : Bytes) : exec (.faultRaise c q d) s = .next (s.ret c 4 []) := by
  have hexec : exec (.faultRaise c q d) s = .next (effFaultRaise c q d s) := rfl
  rw [hexec, effFaultRaise, State.call_of_calling hc (by rw [hi]; rfl), if_pos hq]
  rfl

/-! ## An access outside the address map -/

/-- An access that the map does not allow is recorded and asks for HALT after the publish point (R192). -/
theorem State.programAccessRefused_halts {a : Byte} {x : Quad} (hd : s.domOn 2 = true) (hk : 1 ≤ k.val)
    (hrun : (s.task k).running = true) (hmap : s.mapAllows k a x = false) :
    ∃ t, exec (.programAccessRefused k a x) s = .next t ∧
      s.logged t srcPair 0x3005 5 ([BitVec.ofNat 8 k, a, 0, 0] ++ le 8 x) ∧ (t.task k).haltAfter = some 0x08 ∧
      (∀ n, n ≠ k.val → t.task n = s.task n) ∧ t = { s with hyk := t.hyk, tasks := t.tasks } := by
  have hexec : exec (.programAccessRefused k a x) s = .next (effProgramAccessRefused k a x s) := rfl
  have hrefused : effProgramAccessRefused k a x s = s.programRefused k a x := by
    simp [effProgramAccessRefused, hd, hk, hrun, hmap]
  have hlogged := s.raise_logged srcPair 0x3005 5 ([BitVec.ofNat 8 k, a, 0, 0] ++ le 8 x)
  have hrest := s.raise_eq srcPair 0x3005 5 ([BitVec.ofNat 8 k, a, 0, 0] ++ le 8 x)
  rw [hexec, hrefused]
  refine ⟨_, rfl, State.logged_congr hlogged rfl (by rw [State.programRefused, State.modTask_hyk]), ?_, fun n hn => ?_, ?_⟩
  · rw [State.programRefused, State.task_modTask_self]
  · rw [State.programRefused, State.task_modTask_ne _ _ hn, State.task_congr (State.raise_tasks ..)]
  · rw [State.programRefused, hrest]; rfl

end

/-- Settles O36, call by call; that an entry is placed at once while its doorbell waits is read off `State.submit`. -/
theorem programCommandsWaitForThePublishPoint : Obligations.ProgramCommandsWaitForThePublishPoint := by
  refine ⟨fun s k r b hc hk hlo hhi hslot => ?_, fun s k r b hc hk hlo hhi hslot => ?_, fun s k r b hc hk hr => ?_,
    fun s k r hc hk hlo hhi hone hdepth => State.cplNext_record hc hk hlo hhi hone hdepth,
    fun s k r hc hg hnone => State.cplNext_empty hc hg hnone, fun s k n hc hl => State.errEvents_handedOver hc hl n,
    fun s k code d hc hk hcode => State.eventLog_logged hc hk hcode d,
    fun s c code d hc hcode => State.eventLog_badArgument hc hcode d, fun s k d hc hk => State.faultRaise_halts hc hk d,
    fun s c q d hc hi hq => State.faultRaise_badArgument hc hi hq d,
    fun s k a x hd hk hrun hmap => State.programAccessRefused_halts hd hk hrun hmap⟩
  · obtain ⟨from1, subs, hpair⟩ := s.submit_pair k r.toNat b
    refine ⟨_, State.cmdSubmit_placed hc hk hlo hhi hslot b, ?_, ?_, ?_, ?_, fun n hn => ?_,
      fun n hn => ?_, ?_⟩
    · rw [State.ret_task]
    · rw [State.ret_mem, State.submit_mem]
    · rw [State.ret_ring, hpair]
    · rw [State.ret_task, State.submit_task]; simp
    · rw [State.ret_ring, s.submit_others k r.toNat b hn]
    · rw [State.ret_task_ne _ _ _ _ _ hn, s.submit_task_ne k r.toNat b hn]
    · obtain ⟨mem, rings, tasks, hrest⟩ := s.submit_rest k r.toNat b
      rw [hrest]
      rfl
  · rw [State.exec_cmdSubmit hc hk, (groupRing_of_standard hk _).mpr ⟨hlo, hhi⟩, hslot]
    rfl
  · have hforeign : groupRing k r.toNat = false := by
      rw [← Bool.not_eq_true, groupRing_of_standard hk]; omega
    rw [State.exec_cmdSubmit hc hk, hforeign]
    rfl

end Sys2Proof.Machine
end

section
/-! REGISTER_WRITE (R58, R431, R434), and the obligation of 20_register_map.md about it. -/

namespace Sys2Proof.Machine

/-! ## The bytes of a write to ring memory -/

/-- The bytes that the byte enables select, each at its address. -/
theorem mem_enabledBytes {o : Nat} {be : Byte} {data : Bytes} {x : Nat × Byte} : x ∈ enabledBytes o be data ↔
    ∃ k, k < data.length ∧ be.getLsbD k = true ∧ x = (o + k, byteAt data k) := by
  simp only [enabledBytes, List.mem_filterMap, Prod.exists, List.mem_zipIdx_iff_getElem?]
  constructor
  · rintro ⟨b, k, hb, hx⟩
    obtain ⟨hk, -⟩ := List.getElem?_eq_some_iff.mp hb
    split at hx
    · next hen =>
      refine ⟨k, hk, hen, ?_⟩
      rw [← Option.some.inj hx, byteAt, List.getD_eq_getElem?_getD, hb, Option.getD_some]
    · simp at hx
  · rintro ⟨k, hk, hen, rfl⟩
    exact ⟨byteAt data k, k, by simp [byteAt, hk], by rw [if_pos hen]⟩

end Sys2Proof.Machine

namespace Sys2Proof

/-- An address that no write of a list names keeps its byte. -/
theorem Tbl.get_sets_of_forall_ne {l : List (Nat × Byte)} {a : Nat} (h : ∀ x ∈ l, x.1 ≠ a) (t : Tbl Byte) :
    Tbl.get byte0 (l.foldl (fun t x => Tbl.set byte0 t x.1 x.2) t) a = Tbl.get byte0 t a := by
  induction l generalizing t with
  | nil => rfl
  | cons x l ih =>
    obtain ⟨hx, hl⟩ := List.forall_mem_cons.mp h
    rw [List.foldl_cons, ih hl, Tbl.get_set_ne _ _ _ _ _ hx.symm]

/-- An address that the writes of a list name with one byte only holds that byte. -/
theorem Tbl.get_sets_of_mem {l : List (Nat × Byte)} {a : Nat} {b : Byte} (hb : ∀ x ∈ l, x.1 = a → x.2 = b)
    (ha : ∃ x ∈ l, x.1 = a) (t : Tbl Byte) :
    Tbl.get byte0 (l.foldl (fun t x => Tbl.set byte0 t x.1 x.2) t) a = b := by
  induction l generalizing t with
  | nil => simp at ha
  | cons x l ih =>
    obtain ⟨hx, hl⟩ := List.forall_mem_cons.mp hb
    rw [List.foldl_cons]
    by_cases hrest : ∃ y ∈ l, y.1 = a
    · exact ih hl hrest _
    · have hxa : x.1 = a := by
        obtain ⟨y, hy, hya⟩ := ha
        rcases List.mem_cons.mp hy with rfl | hy
        · exact hya
        · exact absurd ⟨y, hy, hya⟩ hrest
      rw [Tbl.get_sets_of_forall_ne (fun y hy hya => hrest ⟨y, hy, hya⟩), hx hxa, hxa, Tbl.get_set_eq]

end Sys2Proof

namespace Sys2Proof.Machine

/-- Ring memory with the enabled bytes of a write stored from offset `o` on. -/
def storeEnabled (m : Tbl Byte) (o : Nat) (be : Byte) (data : Bytes) : Tbl Byte :=
  (enabledBytes o be data).foldl (fun t x => Tbl.set byte0 t x.1 x.2) m

theorem get_storeEnabled_of_enabled (m : Tbl Byte) (o : Nat) {be : Byte} {data : Bytes} {k : Nat} (hk : k < data.length)
    (hen : be.getLsbD k = true) : Tbl.get byte0 (storeEnabled m o be data) (o + k) = byteAt data k := by
  refine Tbl.get_sets_of_mem (fun x hx ha => ?_) ⟨_, mem_enabledBytes.mpr ⟨k, hk, hen, rfl⟩, rfl⟩ m
  obtain ⟨j, -, -, rfl⟩ := mem_enabledBytes.mp hx
  rw [Nat.add_left_cancel ha]

theorem get_storeEnabled_of_other (m : Tbl Byte) {o : Nat} {be : Byte} {data : Bytes} {a : Nat}
    (h : ∀ k, k < data.length → be.getLsbD k = true → a ≠ o + k) :
    Tbl.get byte0 (storeEnabled m o be data) a = Tbl.get byte0 m a := by
  refine Tbl.get_sets_of_forall_ne (fun x hx ha => ?_) m
  obtain ⟨k, hk, hen, rfl⟩ := mem_enabledBytes.mp hx
  exact h k hk hen ha.symm

/-- A write whose bytes lie in the command ring of one ring pair of the writer is stored (R58). -/
theorem State.writeRingMem_of_owner {s : State} {p : Party} {n : Nat} (hn : n < 32) (hup : s.mailboxUp = true)
    (hown : ownsRing p n = true) {o : Nat} {be : Byte} {data : Bytes}
    (hin : ∀ k, k < data.length → (s.ring n).inCommands (o + k) = true) :
    s.writeRingMem p o be data = s.modMem fun m => { m with ring := storeEnabled m.ring o be data } := by
  have hall : ∀ x ∈ enabledBytes o be data,
      ((List.range 32).any fun n => ownsRing p n && (s.ring n).inCommands x.1) = true := by
    intro x hx
    obtain ⟨k, hk, -, rfl⟩ := mem_enabledBytes.mp hx
    exact List.any_eq_true.mpr ⟨n, List.mem_range.mpr hn, by rw [hown, hin k hk]; rfl⟩
  simp only [State.writeRingMem, hup, Bool.not_true, Bool.false_eq_true, if_false, List.all_eq_true.mpr hall, if_true]
  rfl

/-! ## The gates before a register -/

/-- Outside the Lifeline's states every register answers, and in them the SYS block still does (R55). -/
theorem State.not_lifelineOnly {s : State} {o : Nat} (ho : s.lifeline = false ∨ o < 0x4C) :
    ¬ (s.lifeline = true ∧ 0x4C ≤ o) := by
  rintro ⟨hl, hle⟩
  rcases ho with ho | ho
  · simp [ho] at hl
  · omega

/-- A PCI Express access passes the gates while PD5 is ON and more than the Lifeline answers there (R55, R431). -/
theorem State.gate_of_pcie {s : State} {o : Nat} (hd : s.domOn 5 = true) (ho : s.lifeline = false ∨ o < 0x4C) (v : Word)
    (f : State → State) : s.gate .pcie o v f = f s := by
  simp [State.gate, State.partyUp, hd, State.not_lifelineOnly ho]

/-- A PCI Express write to a register: a whole aligned word is written, anything else recorded with reason 2 (R431). -/
theorem State.registerWrite_of_pcie {s : State} {o : Nat} (hd : s.domOn 5 = true) (ho : s.lifeline = false ∨ o < 0x4C)
    (hreg : o < 0x100000) (be : Byte) (data : Bytes) : exec (.registerWrite .pcie o be data) s =
      .next (if data.length = 4 ∧ o % 4 = 0 ∧ be &&& 0x0F = 0x0F then s.writeReg .pcie o (BitVec.ofNat 32 (leNat data))
        else s.refuseWrite .pcie 2 o (BitVec.ofNat 32 (leNat data))) := by
  have hspot : barSpot o = .reg o := by rw [barSpot, if_pos hreg]
  have hexec : exec (.registerWrite .pcie o be data) s = .next (effRegisterWrite .pcie o be data s) := rfl
  rw [hexec, effRegisterWrite, hspot]
  dsimp only
  rw [State.gate_of_pcie hd ho, if_neg (State.not_lifelineOnly ho)]

/-- A location of a control block belongs to its ring pair (R188). -/
theorem State.writeReg_of_controlBlock {s : State} (n : Fin 32) {k : Nat} (hk : k < 0x800) (hl : s.lifeline = false)
    (p : Party) (v : Word) : s.writeReg p (0x10000 + n.val * 0x800 + k) v = s.writeRing p n k v := by
  have hn := n.isLt
  have hpair : (0x10000 + n.val * 0x800 + k - 0x10000) / 0x800 = n.val := by omega
  have hloc : (0x10000 + n.val * 0x800 + k) % 0x800 = k := by omega
  unfold State.writeReg
  dsimp only
  rw [hl, hpair, hloc]
  generalize ho : 0x10000 + n.val * 0x800 + k = o
  rw [if_neg (by omega), if_neg (by omega), if_neg (by omega), if_neg (by omega), if_neg (by omega), if_neg (by simp),
    if_neg (by omega), if_neg (by omega), if_neg (by omega), if_neg (by omega), if_neg (by omega), if_neg (by omega),
    if_neg (by omega), if_neg (by omega), if_pos (by omega)]

/-! ## The ways of REGISTER_WRITE -/

/-- A whole word at SYS_EVENT_MASK is SYS_EVENT_MASK_WRITE. -/
theorem State.registerWrite_sysEventMask {s : State} (hd : s.domOn 5 = true) {data : Bytes} (hlen : data.length = 4) :
    exec (.registerWrite .pcie 0x1C 0x0F data) s = exec (.sysEventMaskWrite .pcie (BitVec.ofNat 32 (leNat data))) s := by
  have hexec (v : Word) : exec (.sysEventMaskWrite .pcie v) s = .next (s.gate .pcie 0x1C v fun s => s.writeReg .pcie 0x1C v) :=
    rfl
  have ho : s.lifeline = false ∨ 0x1C < 0x4C := .inr (by decide)
  rw [State.registerWrite_of_pcie hd ho (by decide), if_pos ⟨hlen, rfl, rfl⟩, hexec, State.gate_of_pcie hd ho]

/-- A whole word at RING_DOORBELL_n is DOORBELL_WRITE. -/
theorem State.registerWrite_doorbell {s : State} (hd : s.domOn 5 = true) (hl : s.lifeline = false) (n : Fin 32)
    {data : Bytes} (hlen : data.length = 4) : exec (.registerWrite .pcie (0x10008 + n.val * 0x800) 0x0F data) s =
      exec (.doorbellWrite .pcie n (BitVec.ofNat 32 (leNat data))) s := by
  have hn := n.isLt
  have hoff : 0x10008 + n.val * 0x800 = 0x10000 + n.val * 0x800 + 8 := by omega
  rw [hoff, State.registerWrite_of_pcie hd (.inl hl) (by omega), if_pos ⟨hlen, by omega, rfl⟩,
    State.writeReg_of_controlBlock n (by decide) hl]
  rfl

/-- A write that leaves out bytes of the word is recorded and changes nothing else (R431, R390). -/
theorem State.registerWrite_narrow {s : State} (hd : s.domOn 5 = true) {be : Byte} (hbe : be &&& 0x0F ≠ 0x0F)
    (data : Bytes) : exec (.registerWrite .pcie 0x1C be data) s =
      .next (s.raise srcHost 0x2001 3 ([0, 2, 0, 0] ++ leBytes 4 0x1C ++ le 4 (BitVec.ofNat 32 (leNat data) : Word))) := by
  rw [State.registerWrite_of_pcie hd (.inr (by decide)) (by decide), if_neg fun ⟨_, _, hwhole⟩ => hbe hwhole]
  rfl

/-- Behind ring memory stands the MSI-X table, and a write of no bytes there does nothing (R429, R436). -/
theorem State.registerWrite_ringMemEnd (s : State) (be : Byte) :
    exec (.registerWrite .pcie 0x200000 be []) s = .next s := by
  have hexec : exec (.registerWrite .pcie 0x200000 be []) s = .next (effRegisterWrite .pcie 0x200000 be [] s) := rfl
  have hspot : barSpot 0x200000 = .msix 0 := by decide
  rw [hexec, effRegisterWrite, hspot]
  simp

/-- A write within the command ring of a ring pair of the PCI Express path stores its enabled bytes and nothing else. -/
theorem State.registerWrite_ringMem {s : State} {n : Fin 8} {o : Nat} {be : Byte} {data : Bytes} (hd : s.domOn 5 = true)
    (hup : s.mailboxUp = true) (hl : s.lifeline = false) (hen : (s.ring n).enabled = true)
    (hlo : (s.ring n).base.toNat * 64 ≤ o)
    (hhi : o + data.length ≤ (s.ring n).base.toNat * 64 + (s.ring n).depth * 64) (hend : o + data.length ≤ 0x100000) :
    exec (.registerWrite .pcie (0x100000 + o) be data) s =
      .next { s with mem := { s.mem with ring := storeEnabled s.mem.ring o be data } } := by
  rcases Nat.lt_or_ge o 0x100000 with ho | ho
  · have hspot : barSpot (0x100000 + o) = .ringMem o := by
      rw [barSpot, if_neg (by omega), if_pos (by omega), Nat.add_sub_cancel_left]
    have hin : ∀ k, k < data.length → (s.ring n).inCommands (o + k) = true := fun k hk => by
      simp only [Ring.inCommands, hen, Bool.true_and, decide_eq_true_eq]; omega
    have hown : ownsRing .pcie n = true := decide_eq_true n.isLt
    have hexec : exec (.registerWrite .pcie (0x100000 + o) be data) s =
      .next (effRegisterWrite .pcie (0x100000 + o) be data s) := rfl
    rw [hexec, effRegisterWrite, hspot]
    dsimp only
    rw [State.gate_of_pcie hd (.inl hl), State.writeRingMem_of_owner (by omega) hup hown hin]
    rfl
  · obtain rfl : o = 0x100000 := by omega
    obtain rfl : data = [] := List.length_eq_zero_iff.mp (by omega)
    exact s.registerWrite_ringMemEnd be

/-- Settles O59: the ways of REGISTER_WRITE stated above, and the link reset by its definition (R439). -/
theorem registerWritesReachTheirFields : Obligations.RegisterWritesReachTheirFields := by
  refine ⟨fun s data hd hlen => State.registerWrite_sysEventMask hd hlen,
    fun s n data hd hl hlen => State.registerWrite_doorbell hd hl n hlen, fun s be data hd hbe => ?_,
    fun s n o be data hd hup hl hen hlo hhi hend _ => ?_, fun s hd => ?_⟩
  · exact ⟨_, State.registerWrite_narrow hd hbe data, State.raise_eq .., State.raise_logged ..⟩
  · exact ⟨_, State.registerWrite_ringMem hd hup hl hen hlo hhi hend,
      fun k hk hbit => get_storeEnabled_of_enabled s.mem.ring o hk hbit, fun a ha => get_storeEnabled_of_other s.mem.ring ha, rfl⟩
  · have hexec : exec .pcieLinkReset s = .next (effPcieLinkReset s) := rfl
    rw [hexec, effPcieLinkReset, if_pos hd]
    rfl

end Sys2Proof.Machine
end

section
/-! Tests, overloads, supply trips, silence and announced pulses of the field outputs (R217, R226, R232, R235, R236, R238),
and the obligation of 09_field_outputs.md about them. -/

namespace Sys2Proof.Machine

/-! ## Channels, cells and groups under a change of one -/

@[simp] theorem State.chan_modChan_self (s : State) (n : Nat) (f : Channel → Channel) :
    (s.modChan n f).chan n = f (s.chan n) := Tbl.get_upd_eq ..

theorem State.chan_modChan_ne (s : State) {n k : Nat} (f : Channel → Channel) (h : k ≠ n) :
    (s.modChan n f).chan k = s.chan k := Tbl.get_upd_ne _ _ _ _ _ h

@[simp] theorem State.cell_modCell_self (s : State) (n : Nat) (f : Cell → Cell) :
    (s.modCell n f).cell n = f (s.cell n) := Tbl.get_upd_eq ..

theorem State.cell_modCell_ne (s : State) {n k : Nat} (f : Cell → Cell) (h : k ≠ n) :
    (s.modCell n f).cell k = s.cell k := Tbl.get_upd_ne _ _ _ _ _ h

@[simp] theorem State.group_modGroup_self (s : State) (n : Nat) (f : Group → Group) :
    (s.modGroup n f).group n = f (s.group n) := Tbl.get_upd_eq ..

theorem State.chan_modGroup (s : State) (n : Nat) (f : Group → Group) (k : Nat) : (s.modGroup n f).chan k = s.chan k := rfl

/-! ## The channels of a group -/

/-- The channels of a list change, each once; nothing else does. -/
def State.modChansIn (s : State) (cs : List Nat) (f : Channel → Channel) : State :=
  s.modFld fun x => { x with chans := Tbl.updAll (fun _ => Channel.reset) (fun _ => f) cs x.chans }

/-- Changing channels one after the other, by the time of the state, which no such change moves. -/
theorem State.foldl_modChan (s : State) (cs : List Nat) (f : Nat → Channel → Channel) :
    cs.foldl (fun s c => s.modChan c (f s.now)) s = s.modChansIn cs (f s.now) := by
  induction cs generalizing s with
  | nil => rfl
  | cons c cs ih => rw [List.foldl_cons, ih]; rfl

theorem State.chan_modChansIn (s : State) {cs : List Nat} (hcs : cs.Nodup) (f : Channel → Channel) (k : Nat) :
    (s.modChansIn cs f).chan k = if k ∈ cs then f (s.chan k) else s.chan k := Tbl.get_updAll _ _ _ _ _ hcs

theorem State.group_modChansIn (s : State) (cs : List Nat) (f : Channel → Channel) (g : Nat) :
    (s.modChansIn cs f).group g = s.group g := rfl

theorem State.modChansIn_cells (s : State) (cs : List Nat) (f : Channel → Channel) :
    (s.modChansIn cs f).fld.cells = s.fld.cells := rfl

@[simp] theorem mem_groupChans {c g : Nat} : c ∈ groupChans g ↔ groupOf c = g := by
  simp only [groupChans, groupOf, List.mem_map, List.mem_range]
  constructor
  · rintro ⟨i, hi, rfl⟩; omega
  · intro h; exact ⟨c % 16, by omega, by omega⟩

theorem groupChans_nodup (g : Nat) : (groupChans g).Nodup := by
  rw [groupChans, List.nodup_iff_pairwise_ne, List.pairwise_map]
  exact List.nodup_range.imp fun hne h => hne (Nat.add_left_cancel h)

/-- A channel of the group changes, a channel of another group stays. -/
theorem State.chan_modGroupChans (s : State) (g : Nat) (f : Channel → Channel) (c : Nat) :
    (s.modChansIn (groupChans g) f).chan c = if groupOf c = g then f (s.chan c) else s.chan c := by
  simp only [State.chan_modChansIn _ (groupChans_nodup g), mem_groupChans]

/-! ## Tests (R226, R220) -/

theorem exec_testDue_of_untroubled {s : State} {ch : Fin 96} {d : Nat} (hup : s.fieldUp = true)
    (hm : isSafetyOut (s.chan ch).m = true) (ht : (s.chan ch).test = .idle) (hl : (s.chan ch).latches = 0)
    (hg : (s.group (groupOf ch)).uvLatch = false) (hf : (s.chan ch).m = 8 → s.sys.mode ≠ .follow)
    (hdue : (s.chan ch).due = some d) (hd : d ≤ s.now) :
    exec (.testDue ch) s = .next (s.modChan ch fun x => { x with await := true }) := by
  have hexec : exec (.testDue ch) s = .next (effTestDue ch s) := rfl
  rw [hexec, effTestDue]
  simp [-State.now_eq, hup, hm, ht, hl, hg, hdue, hd, Decidable.not_or_of_imp hf]

theorem exec_testDue_of_troubled {s : State} {ch : Fin 96}
    (h : (s.chan ch).latches ≠ 0 ∨ (s.group (groupOf ch)).uvLatch = true) : exec (.testDue ch) s = .next s := by
  have hexec : exec (.testDue ch) s = .next (effTestDue ch s) := rfl
  rw [hexec, effTestDue, if_neg]
  intro hc
  simp only [Bool.and_eq_true, beq_iff_eq, Bool.not_eq_true'] at hc
  obtain ⟨⟨⟨⟨-, hl⟩, hg⟩, -⟩, -⟩ := hc
  rcases h with h | h
  · exact h hl
  · exact absurd (h.symm.trans hg) (by decide)

/-- A phase that shows a fault trips the cell (R232). -/
theorem Cell.endPhase_of_fault {c : Cell} {x : Terminals} {now k : Nat} {p m : Bool} {e : BitVec 3}
    (hp : p = level false x.lowCurrent x.p (freeBit k)) (hm : m = level false x.lowCurrentM x.m (freeBit (k + 1)))
    (he : e = phaseResult c.test p m x) (h : e = 2 ∨ e = 3 ∨ e = 4) : c.endPhase x now k = c.trip e := by
  have hrange : 2 ≤ e.toNat ∧ e.toNat ≤ 4 := by rcases h with rfl | rfl | rfl <;> decide
  subst hp hm he
  exact if_pos hrange

/-- A phase that shows none restores the commanded state (R226, R229). -/
theorem Cell.endPhase_of_good {c : Cell} {x : Terminals} {now k : Nat} {p m : Bool} {e : BitVec 3}
    (hp : p = level false x.lowCurrent x.p (freeBit k)) (hm : m = level false x.lowCurrentM x.m (freeBit (k + 1)))
    (he : e = phaseResult c.test p m x) (h : e = 1 ∨ e = 5) :
    c.endPhase x now k = { c with test := .idle, deferred := false, phaseEvent := e, hi := c.out, lo := c.out,
                                  onSince := if c.out && c.test.isOff then now else c.onSince } := by
  have hrange : ¬ (2 ≤ e.toNat ∧ e.toNat ≤ 4) := by rcases h with rfl | rfl <;> decide
  subst hp hm he
  exact if_neg hrange

/-- Either way the phase is over. -/
@[simp] theorem Cell.endPhase_test (c : Cell) (x : Terminals) (now k : Nat) : (c.endPhase x now k).test = .idle := by
  unfold Cell.endPhase
  dsimp only
  split <;> rfl

/-- P at 1 in a phase that drives it to 0 is a short to supply (R220). -/
theorem phaseResult_of_short {t : TestPhase} (h : t = .offL ∨ t = .darkH) (m : Bool) (x : Terminals) :
    phaseResult t true m x = 2 := by
  rcases h with rfl | rfl <;> rfl

theorem exec_testPhaseEnd {s : State} {ch : Fin 96} (x : Terminals) (hp : (s.cell ch).powered = true)
    (ht : (s.cell ch).test ≠ .idle) (hat : (s.cell ch).testAt + (s.cell ch).testUnits * 25 * countsUs ≤ s.now) :
    exec (.testPhaseEnd ch x) s =
      .next { s.modCell ch fun c => c.endPhase x s.now s.free with free := s.free + 2 } := by
  have hexec : exec (.testPhaseEnd ch x) s = .next (effTestPhaseEnd ch x s) := rfl
  rw [hexec, effTestPhaseEnd]
  simp [-State.now_eq, hp, ht, hat]

/-! ## Overload (R217, R232) -/

theorem Cell.overload_of_safety {c : Cell} (hm : isSafetyOut c.mode.toNat = true) (hl : c.ownLatch = 0) (now : Nat) :
    c.overload now = c.trip 3 := by
  rw [Cell.overload, if_pos hm, if_pos hl]

theorem Cell.overload_of_standard {c : Cell} (hm : c.mode = 6) (now : Nat) :
    c.overload now = { c with hi := false, reclose := some now } := by
  have hs : ¬ isSafetyOut c.mode.toNat = true := by rw [hm]; decide
  rw [Cell.overload, if_neg hs, if_pos hm]

/-- Both switches of a safety output open, with event 3; of a standard output the high side only, until it recloses. -/
theorem Cell.overload_opens (c : Cell) (now : Nat) :
    (isSafetyOut c.mode.toNat = true → c.ownLatch = 0 →
      (c.overload now).hi = false ∧ (c.overload now).lo = false ∧ (c.overload now).ownLatch = 3) ∧
    (c.mode = 6 → (c.overload now).hi = false ∧ (c.overload now).lo = c.lo ∧ (c.overload now).reclose = some now) := by
  refine ⟨fun hm hl => ?_, fun hm => ?_⟩
  · rw [Cell.overload_of_safety hm hl]; exact ⟨rfl, rfl, rfl⟩
  · rw [Cell.overload_of_standard hm]; exact ⟨rfl, rfl, rfl⟩

theorem exec_overload {s : State} {ch : Fin 96} (hp : (s.cell ch).powered = true) (hr : 4 ≤ (s.cell ch).limitRun) :
    exec (.overload ch) s = .next (s.modCell ch fun c => { c.overload s.now with limitRun := 0 }) := by
  have hexec : exec (.overload ch) s = .next (effOverload ch s) := rfl
  rw [hexec, effOverload]
  simp [hp, hr]

theorem exec_thermalLimit {s : State} {ch : Fin 96} (hp : (s.cell ch).powered = true) :
    exec (.thermalLimit ch) s = .next (s.modCell ch fun c => c.overload s.now) := by
  have hexec : exec (.thermalLimit ch) s = .next (effThermalLimit ch s) := rfl
  rw [hexec, effThermalLimit, if_pos hp]

theorem exec_overloadReclose {s : State} {ch : Fin 96} {r : Nat} (hp : (s.cell ch).powered = true)
    (hm : (s.cell ch).mode = 6) (hr : (s.cell ch).reclose = some r) (hat : r + 1000 * countsMs ≤ s.now) :
    exec (.overloadReclose ch) s = .next (s.modCell ch fun c =>
      { c with reclose := none, hi := c.out && c.ownLatch == 0
               onSince := if c.out && c.ownLatch == 0 then s.now else c.onSince }) := by
  have hexec : exec (.overloadReclose ch) s = .next (effOverloadReclose ch s) := rfl
  rw [hexec, effOverloadReclose]
  simp [-State.now_eq, hp, hm, hr, hat]

theorem exec_overloadReclose_early {s : State} {ch : Fin 96} {r : Nat} (hr : (s.cell ch).reclose = some r)
    (hat : s.now < r + 1000 * countsMs) : exec (.overloadReclose ch) s = .next s := by
  have hexec : exec (.overloadReclose ch) s = .next (effOverloadReclose ch s) := rfl
  rw [hexec, effOverloadReclose]
  simp [-State.now_eq, hr, Nat.not_le.mpr hat]

/-! ## Supply (R235) -/

theorem exec_supplyLow {s : State} {g : Fin 6} (hd : s.domOn 7 = true) (hl : 16 ≤ (s.group g).lowTicks) :
    exec (.supplyLow g) s = .next (s.modGroup g fun x => { x with supplyLow := true }) := by
  have hexec : exec (.supplyLow g) s = .next (effSupplyLow g s) := rfl
  rw [hexec, effSupplyLow]
  simp [hd, hl]

theorem exec_cellUndervoltageTrip {s : State} {ch : Fin 96} (hp : (s.cell ch).powered = true)
    (hu : 8 ≤ (s.cell ch).uvRun) : exec (.cellUndervoltageTrip ch) s = .next (s.modCell ch fun c => c.trip 6) := by
  have hexec : exec (.cellUndervoltageTrip ch) s = .next (effCellUndervoltageTrip ch s) := rfl
  rw [hexec, effCellUndervoltageTrip]
  simp [hp, hu]

/-- What the undervoltage trip of its group does to a channel. -/
def Channel.underTripped (now : Nat) (x : Channel) : Channel :=
  if isOutputMode x.m then (x.cutShort now).latch latUnder else x

/-- What the recovery of its group's supply does to a channel. -/
def Channel.supplyRecovered (wait : Bool) (x : Channel) : Channel :=
  if x.m = 6 ∧ x.latches.getLsbD latUnder then { x with latches := x.latches &&& 0xBF, uvWait := wait, latchClr := true }
  else if isSafetyOut x.m then x else { x with latchClr := true }

@[simp] theorem Channel.cutShort_latches (x : Channel) (now : Nat) : (x.cutShort now).latches = x.latches := by
  unfold Channel.cutShort; split <;> rfl

@[simp] theorem Channel.cutShort_test (x : Channel) (now : Nat) : (x.cutShort now).test = .idle := by
  unfold Channel.cutShort
  split
  · assumption
  · rfl

theorem Channel.underTripped_of_output {x : Channel} (h : isOutputMode x.m = true) (now : Nat) :
    (x.underTripped now).latches = x.latches ||| 0x40 ∧ (x.underTripped now).test = .idle := by
  rw [Channel.underTripped, if_pos h]
  exact ⟨congrArg (· ||| 0x40) (x.cutShort_latches now), x.cutShort_test now⟩

theorem Channel.underTripped_of_other {x : Channel} (h : isOutputMode x.m = false) (now : Nat) :
    x.underTripped now = x := by
  simp [Channel.underTripped, h]

theorem Channel.supplyRecovered_of_latched {x : Channel} (hm : x.m = 6) (hl : x.latches.getLsbD 6 = true) (wait : Bool) :
    x.supplyRecovered wait = { x with latches := x.latches &&& 0xBF, uvWait := wait, latchClr := true } :=
  if_pos ⟨hm, hl⟩

theorem Channel.supplyRecovered_of_safety {x : Channel} (h : isSafetyOut x.m = true) (wait : Bool) :
    x.supplyRecovered wait = x := by
  have hm : x.m ≠ 6 := by rintro hm; rw [hm] at h; exact absurd h (by decide)
  simp [Channel.supplyRecovered, hm, h]

theorem Channel.supplyRecovered_latches_of_unlatched {x : Channel} (h : x.latches.getLsbD 6 = false) (wait : Bool) :
    (x.supplyRecovered wait).latches = x.latches := by
  have hl : ¬ (x.m = 6 ∧ x.latches.getLsbD latUnder = true) := by
    rintro ⟨-, hl⟩; exact absurd (h.symm.trans hl) (by decide)
  rw [Channel.supplyRecovered, if_neg hl]
  split <;> rfl

theorem exec_groupUndervoltageTrip {s : State} {g : Fin 6} (hd : s.domOn 7 = true) (hu : (s.group g).uvLatch = false)
    (ht : 8 ≤ (s.group g).tripTicks ∨ (s.group g).event6 = true) :
    exec (.groupUndervoltageTrip g) s = .next ((s.modGroup g fun x =>
        { x with uvLatch := true, uvTrips := satInc x.uvTrips, event6 := false, okTicks := 0 }).modChansIn
      (groupChans g) (Channel.underTripped s.now)) := by
  have hexec : exec (.groupUndervoltageTrip g) s = .next (effGroupUndervoltageTrip g s) := rfl
  have hcond : (s.domOn 7 && !(s.group g).uvLatch && (decide (8 ≤ (s.group g).tripTicks) || (s.group g).event6)) = true := by
    simp [hd, hu, ht]
  rw [hexec, effGroupUndervoltageTrip, if_pos hcond]
  exact congrArg Host.Outcome.next (State.foldl_modChan _ _ Channel.underTripped)

theorem exec_supplyRecovery {s : State} {g : Fin 6} (hd : s.domOn 7 = true) (hk : 800 ≤ (s.group g).okTicks)
    (hl : (s.group g).supplyLow = true ∨ (s.group g).uvLatch = true) :
    exec (.supplyRecovery g) s = .next ((s.modGroup g fun x =>
        { x with supplyLow := false, uvLatch := false, event6 := false }).modChansIn
      (groupChans g) (Channel.supplyRecovered (s.param 0x0110 g == 0))) := by
  have hexec : exec (.supplyRecovery g) s = .next (effSupplyRecovery g s) := rfl
  have hcond : (s.domOn 7 && decide (800 ≤ (s.group g).okTicks) && ((s.group g).supplyLow || (s.group g).uvLatch)) = true := by
    simp [hd, hk, hl]
  rw [hexec, effSupplyRecovery, if_pos hcond]
  exact congrArg Host.Outcome.next (State.foldl_modChan _ _ fun _ => Channel.supplyRecovered (s.param 0x0110 g == 0))

/-! ## Silence (R236) -/

/-- What a silent cell does when its hold time is over. -/
def Cell.holdExpired (c : Cell) : Cell :=
  if isSafetyOut c.mode.toNat then (if c.ownLatch = 0 then c.trip 7 else c)
  else if c.mode = 6 ∧ c.keepOff then { c with hi := false } else c

theorem Cell.holdExpired_of_safety {c : Cell} (hm : isSafetyOut c.mode.toNat = true) (hl : c.ownLatch = 0) :
    c.holdExpired = c.trip 7 := by
  rw [Cell.holdExpired, if_pos hm, if_pos hl]

theorem Cell.holdExpired_of_standard {c : Cell} (hm : c.mode = 6) :
    c.holdExpired = { c with hi := c.hi && !c.keepOff } := by
  have hs : ¬ isSafetyOut c.mode.toNat = true := by rw [hm]; decide
  rw [Cell.holdExpired, if_neg hs]
  by_cases hk : c.keepOff = true
  · have hopen : (c.hi && !c.keepOff) = false := by simp [hk]
    rw [if_pos ⟨hm, hk⟩, hopen]
  · have hstay : (c.hi && !c.keepOff) = c.hi := by simp [hk]
    rw [if_neg fun h => hk h.2, hstay]

theorem exec_holdTimeExpired {s : State} {ch : Fin 96} (hp : (s.cell ch).powered = true)
    (hc : (s.cell ch).configured = true) (hat : (s.cell ch).lastValid + (s.cell ch).holdMs.toNat * countsMs ≤ s.now) :
    exec (.holdTimeExpired ch) s = .next (s.modCell ch Cell.holdExpired) := by
  have hexec : exec (.holdTimeExpired ch) s = .next (effHoldTimeExpired ch s) := rfl
  have hcond : ((s.cell ch).powered && (s.cell ch).configured &&
      decide ((s.cell ch).lastValid + (s.cell ch).holdMs.toNat * countsMs ≤ s.now)) = true := by
    simp [-State.now_eq, hp, hc, hat]
  rw [hexec, effHoldTimeExpired, if_pos hcond]
  rfl

/-! ## Announced pulses at the standby (R238) -/

/-- The pulse, its time and the misses counted for it; a second miss is reported. -/
theorem Channel.announced_eq {x : Channel} {now n : Nat} {second : Bool} (ok : Bool)
    (hs : second = (x.annAt != 0 && !x.annSecond && decide (now < x.annAt + 24 * countsMs)))
    (hn : n = if second then x.missSecond else x.missFirst) :
    x.announced ok now =
      ({ x with annAt := now, annSecond := second
                missFirst := if second then x.missFirst else if ok then 0 else n + 1
                missSecond := if second then (if ok then 0 else n + 1) else x.missSecond },
       decide (ok = false ∧ 1 ≤ n)) := by
  subst hn
  unfold Channel.announced
  rw [← hs]
  cases second <;> cases ok <;> simp

theorem exec_testAnnouncement {s : State} {ch : Fin 96} {ok : Bool} {x : Channel} {report : Bool}
    (hd : s.domOn 7 = true) (hf : s.sys.mode = .follow) (hm : (s.chan ch).m = 8)
    (hx : (s.chan ch).announced ok s.now = (x, report)) :
    exec (.testAnnouncement ch ok) s =
      .next (if report then (s.modChan ch fun _ => x).emit (.dpxReport ch) else s.modChan ch fun _ => x) := by
  have hexec : exec (.testAnnouncement ch ok) s = .next (effTestAnnouncement ch ok s) := rfl
  rw [hexec, effTestAnnouncement]
  simp [-State.now_eq, hd, hf, hm, hx]

/-! ## The obligation -/

/-- The end of a phase, by what it shows. -/
theorem testPhaseEnd_shows {s : State} {ch : Fin 96} {x : Terminals} {p m : Bool} {e : BitVec 3}
    (hpow : (s.cell ch).powered = true) (ht : (s.cell ch).test ≠ .idle)
    (hat : (s.cell ch).testAt + (s.cell ch).testUnits * 25 * countsUs ≤ s.now)
    (hp : p = level false x.lowCurrent x.p (freeBit s.free))
    (hm : m = level false x.lowCurrentM x.m (freeBit (s.free + 1))) (he : e = phaseResult (s.cell ch).test p m x) :
    ∃ t, exec (.testPhaseEnd ch x) s = .next t ∧ (t.cell ch).test = .idle ∧ t.fld.chans = s.fld.chans ∧
      (e = 2 ∨ e = 3 ∨ e = 4 → (t.cell ch).hi = false ∧ (t.cell ch).lo = false ∧ (t.cell ch).ownLatch = e) ∧
      (e = 1 ∨ e = 5 → (t.cell ch).hi = (s.cell ch).out ∧ (t.cell ch).lo = (s.cell ch).out ∧ (t.cell ch).phaseEvent = e) ∧
      (p = true → (s.cell ch).test = .offL ∨ (s.cell ch).test = .darkH → e = 2) ∧
      ∀ n, n ≠ ch.val → t.cell n = s.cell n := by
  have hcell : ({ s.modCell ch fun c => c.endPhase x s.now s.free with free := s.free + 2 } : State).cell ch =
      (s.cell ch).endPhase x s.now s.free := s.cell_modCell_self ..
  refine ⟨_, exec_testPhaseEnd x hpow ht hat, ?_, rfl, fun hfault => ?_, fun hgood => ?_, fun hshort hphase => ?_,
    fun n hn => s.cell_modCell_ne _ hn⟩
  · rw [hcell, Cell.endPhase_test]
  · rw [hcell, Cell.endPhase_of_fault hp hm he hfault]
    exact ⟨rfl, rfl, rfl⟩
  · rw [hcell, Cell.endPhase_of_good hp hm he hgood]
    exact ⟨rfl, rfl, rfl⟩
  · rw [he, hshort, phaseResult_of_short hphase]

/-- The trip of a group, channel by channel. -/
theorem groupUndervoltageTrip_latches {s : State} {g : Fin 6} (hd : s.domOn 7 = true) (hu : (s.group g).uvLatch = false)
    (ht : 8 ≤ (s.group g).tripTicks ∨ (s.group g).event6 = true) :
    ∃ t, exec (.groupUndervoltageTrip g) s = .next t ∧ (t.group g).uvLatch = true ∧
      (t.group g).uvTrips = satInc (s.group g).uvTrips ∧ t.fld.cells = s.fld.cells ∧
      ∀ c : Fin 96, (groupOf c = g.val → isOutputMode (s.chan c).m = true →
          (t.chan c).latches = (s.chan c).latches ||| 0x40 ∧ (t.chan c).test = .idle) ∧
        (groupOf c ≠ g.val ∨ isOutputMode (s.chan c).m = false → t.chan c = s.chan c) := by
  refine ⟨_, exec_groupUndervoltageTrip hd hu ht, ?_, ?_, State.modChansIn_cells .., fun c => ?_⟩
  · rw [State.group_modChansIn, State.group_modGroup_self]
  · rw [State.group_modChansIn, State.group_modGroup_self]
  rw [State.chan_modGroupChans, State.chan_modGroup]
  refine ⟨fun hc ho => ?_, fun h => ?_⟩
  · rw [if_pos hc]
    exact Channel.underTripped_of_output ho _
  · rcases h with hc | ho
    · rw [if_neg hc]
    · rw [Channel.underTripped_of_other ho, ite_self]

/-- The recovery of a group's supply, channel by channel. -/
theorem supplyRecovery_clears {s : State} {g : Fin 6} (hd : s.domOn 7 = true) (hk : 800 ≤ (s.group g).okTicks)
    (hl : (s.group g).supplyLow = true ∨ (s.group g).uvLatch = true) :
    ∃ t, exec (.supplyRecovery g) s = .next t ∧ (t.group g).uvLatch = false ∧ (t.group g).supplyLow = false ∧
      t.fld.cells = s.fld.cells ∧
      ∀ c : Fin 96, (groupOf c = g.val → (s.chan c).m = 6 → (s.chan c).latches.getLsbD 6 = true →
          (t.chan c).latches = (s.chan c).latches &&& 0xBF ∧ (t.chan c).uvWait = (s.param 0x0110 g == 0)) ∧
        (isSafetyOut (s.chan c).m = true ∨ (s.chan c).latches.getLsbD 6 = false → (t.chan c).latches = (s.chan c).latches) ∧
        (groupOf c ≠ g.val ∨ isSafetyOut (s.chan c).m = true → t.chan c = s.chan c) := by
  refine ⟨_, exec_supplyRecovery hd hk hl, ?_, ?_, State.modChansIn_cells .., fun c => ?_⟩
  · rw [State.group_modChansIn, State.group_modGroup_self]
  · rw [State.group_modChansIn, State.group_modGroup_self]
  rw [State.chan_modGroupChans, State.chan_modGroup]
  refine ⟨fun hc hm hlat => ?_, fun h => ?_, fun h => ?_⟩
  · rw [if_pos hc, Channel.supplyRecovered_of_latched hm hlat]
    exact ⟨rfl, rfl⟩
  · rcases h with hs | hlat
    · rw [Channel.supplyRecovered_of_safety hs, ite_self]
    · rw [apply_ite Channel.latches, Channel.supplyRecovered_latches_of_unlatched hlat, ite_self]
  · rcases h with hc | hs
    · rw [if_neg hc]
    · rw [Channel.supplyRecovered_of_safety hs, ite_self]

/-- An announced pulse, its misses and the report of the second. -/
theorem testAnnouncement_counts {s : State} {ch : Fin 96} {second : Bool} {n : Nat} (ok : Bool) (hd : s.domOn 7 = true)
    (hf : s.sys.mode = .follow) (hm : (s.chan ch).m = 8)
    (hs : second = ((s.chan ch).annAt != 0 && !(s.chan ch).annSecond && decide (s.now < (s.chan ch).annAt + 24 * countsMs)))
    (hn : n = (if second then (s.chan ch).missSecond else (s.chan ch).missFirst)) :
    ∃ t, exec (.testAnnouncement ch ok) s = .next t ∧ (t.chan ch).annAt = s.now ∧ (t.chan ch).annSecond = second ∧
      (if second then (t.chan ch).missSecond else (t.chan ch).missFirst) = (if ok then 0 else n + 1) ∧
      (if second then (t.chan ch).missFirst = (s.chan ch).missFirst else (t.chan ch).missSecond = (s.chan ch).missSecond) ∧
      t.sent = (if ok = false ∧ 1 ≤ n then .dpxReport ch :: s.sent else s.sent) ∧ t.fld.cells = s.fld.cells ∧
      ∀ k, k ≠ ch.val → t.chan k = s.chan k := by
  refine ⟨_, exec_testAnnouncement hd hf hm (Channel.announced_eq ok hs hn), ?_⟩
  have hframe (y : Channel) (r : Bool) :
      (if r then (s.modChan ch fun _ => y).emit (.dpxReport ch) else s.modChan ch fun _ => y) =
        { s.modChan ch fun _ => y with sent := if r then .dpxReport ch :: s.sent else s.sent } := by
    cases r <;> rfl
  have hself (y : Channel) (o : List Output) : ({ s.modChan ch fun _ => y with sent := o } : State).chan ch = y :=
    s.chan_modChan_self ..
  rw [hframe, hself]
  refine ⟨rfl, rfl, ?_, ?_, ?_, rfl, fun k hk => s.chan_modChan_ne _ hk⟩
  · cases second <;> rfl
  · cases second <;> rfl
  · simp only [decide_eq_true_eq]

/-- Settles O40, command by command: which cell, group or channel changes is read off each command's equation, and what it
becomes off the lemma on that change. -/
theorem fieldOutputsTestAndTrip : Obligations.FieldOutputsTestAndTrip := by
  refine ⟨fun _ _ _ => exec_testDue_of_untroubled, fun _ _ => exec_testDue_of_troubled,
    fun _ _ _ _ _ _ => testPhaseEnd_shows, fun s ch hp hr => ?_, fun s ch hp => ?_, fun s ch r hp hm hr hat => ?_,
    fun _ _ _ => exec_overloadReclose_early, fun _ _ => exec_supplyLow, fun s ch hp hu => ?_,
    fun _ _ => groupUndervoltageTrip_latches, fun _ _ => supplyRecovery_clears, fun s ch hp hc hat => ?_,
    fun _ _ ok _ _ => testAnnouncement_counts ok⟩
  · refine ⟨_, exec_overload hp hr, rfl, fun n hn => s.cell_modCell_ne _ hn, ?_⟩
    rw [State.cell_modCell_self]
    exact ⟨rfl, Cell.overload_opens ..⟩
  · refine ⟨_, exec_thermalLimit hp, rfl, fun n hn => s.cell_modCell_ne _ hn, ?_⟩
    rw [State.cell_modCell_self]
    exact Cell.overload_opens ..
  · refine ⟨_, exec_overloadReclose hp hm hr hat, rfl, fun n hn => s.cell_modCell_ne _ hn, ?_⟩
    rw [State.cell_modCell_self]
    exact ⟨rfl, rfl, rfl⟩
  · refine ⟨_, exec_cellUndervoltageTrip hp hu, ?_⟩
    rw [State.cell_modCell_self]
    exact ⟨rfl, rfl, rfl, rfl, fun n hn => s.cell_modCell_ne _ hn⟩
  · refine ⟨_, exec_holdTimeExpired hp hc hat, fun n hn => s.cell_modCell_ne _ hn, rfl, ?_⟩
    rw [State.cell_modCell_self]
    refine ⟨fun hm hl => ?_, fun hm => ?_⟩
    · rw [Cell.holdExpired_of_safety hm hl]; exact ⟨rfl, rfl, rfl⟩
    · rw [Cell.holdExpired_of_standard hm]; exact ⟨rfl, rfl⟩

end Sys2Proof.Machine
end

section
/-! The safety parameter set under its password (R244 to R249), and the obligation of 10_safety_functions.md about a change
of it. -/

namespace Sys2Proof.Machine

/-! ## The change log -/

/-- Between `s` and `t` the recorder is written, and nothing else but the count of free values. -/
def State.logsTo (s t : State) : Prop := ∃ k n, t = { s with hyk := k, free := n }

theorem State.logsTo.refl (s : State) : s.logsTo s := ⟨_, _, rfl⟩

theorem State.logsTo.trans {s t u : State} : s.logsTo t → t.logsTo u → s.logsTo u := by
  rintro ⟨_, _, rfl⟩ ⟨k, n, rfl⟩
  exact ⟨k, n, rfl⟩

theorem State.logsTo.foldl {α : Type} {f : State → α → State} (hf : ∀ (s : State) a, s.logsTo (f s a)) (l : List α)
    (s : State) : s.logsTo (l.foldl f s) := by
  induction l generalizing s with
  | nil => exact .refl s
  | cons a l ih => exact (hf s a).trans (ih _)

theorem State.logPart_logsTo (s : State) (code : BitVec 16) (part : Nat) (payload : Bytes) :
    s.logsTo (s.logPart code part payload) := by
  unfold State.logPart
  rw [State.raise_eq]
  exact ⟨_, _, rfl⟩

theorem State.logUser_logsTo (s : State) (user : Bytes) : s.logsTo (s.logUser user) :=
  (s.logPart_logsTo ..).trans (State.logPart_logsTo ..)

theorem State.logFailed_logsTo (s : State) (n : Nat) (locks : Bool) (user : Bytes) :
    s.nextChange.logsTo (s.logFailed n locks user) :=
  (State.logPart_logsTo ..).trans (State.logUser_logsTo ..)

theorem State.logChange_logsTo (s : State) (items : Nat) (kind : Byte) (user : Bytes) (old new : BitVec 256) :
    s.nextChange.logsTo (s.logChange items kind user old new).1 :=
  ((State.logPart_logsTo ..).trans (State.logUser_logsTo ..)).trans
    (State.logsTo.foldl (fun s _ => s.logPart_logsTo ..) _ _)

/-- An event of the safety partition without a rate limit takes that partition's next sequence (R386). -/
theorem State.raise_safSeq (s : State) {src : Byte} {code : BitVec 16} (hs : safetyEntry src code = true)
    (hl : limitedCode code = false) (sev : BitVec 4) (data : Bytes) :
    (s.raise src code sev data).hyk.safSeq = nextSeq s.hyk.safSeq := by
  have hwritten : (s.atBucket code sev).2 ≠ .drop := fun h => by simp [State.limitedCode_of_drop h] at hl
  have hseq := (s.atBucket_raisedFrom code sev).safSeq
  rw [State.raise, State.offer_of_write hwritten]
  simp [State.hykWritten, Hyk.put, hs, hseq]

/-- A change is known by the sequence of its head entry (R249). -/
theorem State.logChange_head (s : State) (items : Nat) (kind : Byte) (user : Bytes) (old new : BitVec 256) :
    (s.logChange items kind user old new).2 = nextSeq s.hyk.safSeq := by
  unfold State.logChange State.logPart
  dsimp only
  rw [State.bump_hyk]
  exact State.raise_safSeq s.nextChange rfl rfl ..

/-! ## The password -/

/-- The fifth failed check in a row locks, unless a lockout runs (R245). -/
theorem fifth_failure_iff (fails : Nat) (lockout : Option Nat) :
    (Nat.min 5 (fails + 1) == 5 && lockout.isNone) = true ↔ lockout = none ∧ 4 ≤ fails := by
  have hfifth : Nat.min 5 (fails + 1) = 5 ↔ 4 ≤ fails := by change min 5 (fails + 1) = 5 ↔ 4 ≤ fails; omega
  rw [Bool.and_eq_true, beq_iff_eq, hfifth, Option.isNone_iff_eq_none, and_comm]

/-- A failed check is counted and recorded, and answers AUTH_FAILED (R245, R249). -/
theorem State.passFailed_eq (s : State) (h : Quad) (user : Bytes) : ∃ k n, s.passFailed h user =
    ({ s with hyk := k, free := n, saf := { s.saf with
      fails := Nat.min 5 (s.saf.fails + 1), changeNo := s.saf.changeNo + 1
      lockout := if s.saf.lockout = none ∧ 4 ≤ s.saf.fails then some s.opMs else s.saf.lockout } } : State).fail h
        stAuthFailed := by
  unfold State.passFailed
  dsimp only
  simp only [fifth_failure_iff]
  obtain ⟨k, n, hlog⟩ := State.logFailed_logsTo (s.modSaf fun x => { x with
    fails := Nat.min 5 (s.saf.fails + 1)
    lockout := if s.saf.lockout = none ∧ 4 ≤ s.saf.fails then some s.opMs else x.lockout })
    (Nat.min 5 (s.saf.fails + 1)) (Nat.min 5 (s.saf.fails + 1) == 5 && s.saf.lockout.isNone) user
  exact ⟨k, n, congrArg (State.fail · h stAuthFailed) hlog⟩

/-! ## What an answer sends -/

section
variable {l : List Output} {s : State}

theorem State.suffix_signal_sent (hl : l <:+ s.sent) (n : Nat) : l <:+ (s.signal n).sent := by
  by_cases hn : n < 8
  · by_cases hd : s.domOn 5 = true
    · rw [State.signal_of_host hn hd]
      split
      · exact hl
      · exact hl.trans (List.suffix_cons ..)
    · rwa [State.signal, if_pos hn, State.msix, if_neg hd]
  · rw [State.signal_of_other (by omega)]
    split
    · exact hl.trans (List.suffix_cons ..)
    · exact hl

theorem State.suffix_putRecord_sent (hl : l <:+ s.sent) (n : Nat) (rec : Bytes) (counts : Bool) :
    l <:+ (s.putRecord n rec counts).sent := by
  unfold State.putRecord State.placeRecord State.irqEdge
  dsimp only
  split
  · split
    · exact State.suffix_signal_sent (by exact hl) n
    · exact hl
  · exact hl

theorem State.suffix_putDone_sent (hl : l <:+ s.sent) (e : JEntry) (replayed : Bool) : l <:+ (s.putDone e replayed).sent :=
  State.suffix_putRecord_sent hl ..

theorem State.suffix_flush_sent (hl : l <:+ s.sent) (n : Nat) : l <:+ (s.flush n).sent := by
  unfold State.flush
  generalize s.ready n = es
  induction es generalizing s with
  | nil => exact hl
  | cons e es ih => exact ih (State.suffix_putDone_sent hl e e.replay)

/-- An answer sends at most interrupts, after what was sent before. -/
theorem State.suffix_complete_sent (hl : l <:+ s.sent) (h : Quad) (st : BitVec 16) (r : Bytes) :
    l <:+ (s.complete h st r).sent := by
  unfold State.complete
  split
  · exact hl
  · split
    · exact hl
    · dsimp only
      split
      · exact State.suffix_putDone_sent (by exact hl) ..
      · exact State.suffix_flush_sent (by exact hl) _

end

/-! ## The constants of the lanes -/

theorem State.writeConsts_eq (s : State) : s.writeConsts = { s with tri := s.writeConsts.tri, free := s.free + 1 } := by
  unfold State.writeConsts State.modLanes State.modTri State.bump
  rfl

theorem State.constsWritten_writeConsts (s : State) : s.writeConsts.constsWritten = true := by
  simp [State.constsWritten, State.writeConsts, State.modLanes]

theorem State.constsWritten_congr {s t : State} (hp : t.prog = s.prog) (htri : t.tri = s.tri)
    (hitems : t.saf.items = s.saf.items) : t.constsWritten = s.constsWritten := by
  simp only [State.constsWritten, hp, htri, hitems]

theorem State.cellsSettled_congr {s t : State} (h : t.fld = s.fld) : t.cellsSettled = s.cellsSettled := by
  simp only [State.cellsSettled, State.cell, State.chan, State.dual, h]

/-- The constants of a change committed on this count: written at once, and the change is done where the cells hold their
blocks (R247; log entry 75). -/
theorem State.constantsDone_of_now {s : State} {h : Quad} {r : Bytes} (ha : s.saf.applying = some (h, r, s.now)) :
    ∃ t n, ({ s with tri := t, free := n } : State).constsWritten = true ∧
      s.constantsDone = if s.cellsSettled then
        ({ s with tri := t, free := n, saf := { s.saf with applying := none } } : State).complete h stOk r
      else { s with tri := t, free := n } := by
  have hwritten := s.constsWritten_writeConsts
  rw [State.constantsDone, ha, Option.isSome_some, if_pos rfl]
  rw [State.writeConsts_eq] at hwritten ⊢
  generalize s.writeConsts.tri = t at hwritten ⊢
  refine ⟨t, _, hwritten, ?_⟩
  have hsettled : ({ s with tri := t, free := s.free + 1 } : State).cellsSettled = s.cellsSettled :=
    State.cellsSettled_congr rfl
  have hpos : 0 < countsMs := by decide
  have hearly : ¬ s.now + 50 * countsMs ≤ ({ s with tri := t, free := s.free + 1 } : State).now := by
    change ¬ s.now + 50 * countsMs ≤ s.now
    omega
  rw [State.changeDone, ha]
  simp only [hwritten, hsettled, hearly, or_false, true_and]
  rfl

theorem State.constantsDone_fld {s : State} {h : Quad} {r : Bytes} (ha : s.saf.applying = some (h, r, s.now)) :
    s.constantsDone.fld = s.fld := by
  obtain ⟨t, n, -, hdone⟩ := State.constantsDone_of_now ha
  rw [hdone]
  split
  · exact State.complete_fld ..
  · rfl

/-- A change committed on this count: its constants are written, and it is answered where the cells hold their blocks
(R246, R247). -/
theorem State.constantsDone_shows {s : State} {h : Quad} {e : JEntry} {r : Bytes} (he : s.entry h = some e)
    (hc : e.committed = false) (ha : s.saf.applying = some (h, padTo 48 r, s.now)) :
    s.constantsDone.constsWritten = true ∧
      if s.constantsDone.cellsSettled then s.constantsDone.answered h stOk r ∧ s.constantsDone.saf.applying = none
      else s.constantsDone.saf.applying = some (h, padTo 48 r, s.now) := by
  obtain ⟨t, n, hwritten, hdone⟩ := State.constantsDone_of_now ha
  rw [State.cellsSettled_congr (State.constantsDone_fld ha), hdone]
  split
  · refine ⟨?_, ?_, by rw [State.complete_saf]⟩
    · rw [← hwritten]
      exact State.constsWritten_congr (State.complete_prog ..) (State.complete_tri ..) (by rw [State.complete_saf])
    · obtain ⟨y, hy, hcommitted, hstatus, hresult⟩ := State.answered_complete
        (s := { s with tri := t, free := n, saf := { s.saf with applying := none } }) he hc stOk (padTo 48 r) false
      exact ⟨y, hy, hcommitted, hstatus, hresult.trans (padTo_padTo 48 r)⟩
  · exact ⟨hwritten, ha⟩

theorem State.constantsDone_saf {s : State} {h : Quad} {r : Bytes} (ha : s.saf.applying = some (h, r, s.now)) :
    s.constantsDone.saf = { s.saf with applying := s.constantsDone.saf.applying } := by
  obtain ⟨t, n, -, hdone⟩ := State.constantsDone_of_now ha
  rw [hdone]
  split
  · rw [State.complete_saf]
  · rfl

theorem State.suffix_constantsDone_sent {l : List Output} {s : State} {h : Quad} {r : Bytes}
    (ha : s.saf.applying = some (h, r, s.now)) (hl : l <:+ s.sent) : l <:+ s.constantsDone.sent := by
  obtain ⟨t, n, -, hdone⟩ := State.constantsDone_of_now ha
  rw [hdone]
  split
  · exact State.suffix_complete_sent (by exact hl) ..
  · exact hl

/-! ## The commit -/

/-- What the RESULT of a change that replaces the items of `s` carries: the new set digest, and the sequence that the head
entry takes (R246). -/
def State.changeResult (s : State) (x : Bytes) : Bytes :=
  le 32 (setDigest (changedSet s.saf.items (byteAt x 32 == 1) (changeItems x))) ++ le 4 (nextSeq s.hyk.safSeq)

/-- A commit up to the point where task 0 decides when the constants are written (R246 step 6, R247). -/
def State.changeStored (s : State) (h : Quad) (x : Bytes) (k : Hyk) (n : Nat) (p : Option (BitVec 128 × BitVec 256))
    (f : Fld) : State :=
  { s with
    hyk := k, free := n, fld := f, journal := (s.executing h).journal
    saf := { s.saf with
      items := changedSet s.saf.items (byteAt x 32 == 1) (changeItems x), password := p
      changeNo := s.saf.changeNo + 1, applying := some (h, padTo 48 (s.changeResult x), s.now) } }

theorem State.changeCommit_eq (s : State) (h : Quad) (x : Bytes) : ∃ k n p f, s.changeCommit h x =
    if s.sys.mode = .run ∧ (s.task 0).present then s.changeStored h x k n p f
    else (s.changeStored h x k n p f).constantsDone := by
  unfold State.changeCommit
  dsimp only
  generalize hu : (State.modSaf s _).bump = u
  obtain ⟨k, n, hlog⟩ := u.logChange_logsTo (leAt x 34 2) (byteAt x 32) (sub x 36 12) (setDigest s.saf.items)
    (setDigest u.saf.items)
  rw [hlog, State.logChange_head]
  subst hu
  exact ⟨k, n, _, _, rfl⟩

/-- A committed change, after whatever the constants bring with them: the set, its number, what was sent (R246, R249). -/
theorem State.changeCommit_takesOver (s : State) (h : Quad) (x : Bytes) :
    (∃ p a, (s.changeCommit h x).saf = { s.saf with
      items := changedSet s.saf.items (byteAt x 32 == 1) (changeItems x), password := p
      changeNo := s.saf.changeNo + 1, applying := a }) ∧
    s.sent <:+ (s.changeCommit h x).sent := by
  obtain ⟨k, n, p, f, hcommit⟩ := s.changeCommit_eq h x
  rw [hcommit]
  split
  · exact ⟨⟨_, _, rfl⟩, List.suffix_refl _⟩
  · exact ⟨⟨_, _, State.constantsDone_saf (s := s.changeStored h x k n p f) rfl⟩,
      State.suffix_constantsDone_sent (s := s.changeStored h x k n p f) rfl (List.suffix_refl _)⟩

/-- With task 0 in RUN the constants wait for its publish point, and the answer for them (R247). -/
theorem State.changeCommit_waits {s : State} (hrun : s.sys.mode = .run ∧ (s.task 0).present = true) (h : Quad) (x : Bytes) :
    (s.changeCommit h x).tri = s.tri ∧
      (s.changeCommit h x).saf.applying = some (h, padTo 48 (s.changeResult x), s.now) := by
  obtain ⟨k, n, p, f, hcommit⟩ := s.changeCommit_eq h x
  rw [hcommit, if_pos hrun]
  exact ⟨rfl, rfl⟩

/-- Without it they are written at once (R247). -/
theorem State.changeCommit_atOnce {s : State} {h : Quad} {e : JEntry} (he : s.entry h = some e)
    (hrun : ¬ (s.sys.mode = .run ∧ (s.task 0).present = true)) (x : Bytes) :
    (s.changeCommit h x).constsWritten = true ∧
      if (s.changeCommit h x).cellsSettled then
        (s.changeCommit h x).answered h stOk (s.changeResult x) ∧ (s.changeCommit h x).saf.applying = none
      else (s.changeCommit h x).saf.applying = some (h, padTo 48 (s.changeResult x), s.now) := by
  obtain ⟨k, n, p, f, hcommit⟩ := s.changeCommit_eq h x
  rw [hcommit, if_neg hrun]
  have hentry : (s.changeStored h x k n p f).entry h = some { e with phase := .executing } :=
    (State.entry_congr (s := s.executing h) rfl h).trans (State.entry_executing he)
  exact State.constantsDone_shows hentry rfl rfl

/-! ## The ways of SAFETY_PARAM_CHANGE -/

/-- The state after a password that passed: no failure counts (R245), and the set is on its way to a standby IN_SYNC
(R320). -/
def State.changeSent (s : State) (x : Bytes) : State :=
  { s with
    sent := if s.inSync then .mirrorItem 2 x :: s.sent else s.sent
    saf := { s.saf with fails := 0 } }

theorem State.changeSent_eq (s : State) (x : Bytes) :
    (s.modSaf fun y => { y with fails := 0 }).sendItem 2 x = s.changeSent x := by
  have hsync : (s.modSaf fun y => { y with fails := 0 }).inSync = s.inSync := rfl
  unfold State.sendItem State.changeSent
  rw [hsync]
  cases s.inSync <;> rfl

/-- A failure answered after the recorder and the parameter store were written. -/
theorem State.fail_after {s : State} {h : Quad} {e : JEntry} (he : s.entry h = some e) (hc : e.committed = false)
    (k : Hyk) (n : Nat) (y : Saf) (st : BitVec 16) (d : Nat) :
    let t := ({ s with hyk := k, free := n, saf := y } : State).fail h st d
    s.answers t h e.ring st (leBytes 4 d) ∧ t = { s.withAnswer t with hyk := k, free := n, saf := y } := by
  obtain ⟨hanswered, hrecords, hhandles⟩ := State.answers_complete (s := { s with hyk := k, free := n, saf := y }) he hc st
    (leBytes 4 d) false
  exact ⟨⟨hanswered, State.recordsOnly_congr hrecords rfl rfl rfl rfl, hhandles⟩, State.complete_eq ..⟩

section
variable {s : State} {h : Quad} {e : JEntry} {b : SentBuf} {x : Bytes} (hb : s.begins h 0x2030 false e)
  (hx : s.input e.ring (sub e.args 0 16) b.buf = some x)
include hb hx

theorem exec_safetyParamChange_of_input : exec (.safetyParamChange h b) s =
    .next (if s.saf.lockout.isSome ∨ ¬ s.saf.passOk (byteAt x 33).toNat (sub x 48 32) then s.passFailed h (sub x 36 12)
      else (s.changeRefusal x).elim
        (if s.inSync ∧ !b.standbyOk then s.changeSent x else (s.changeSent x).changeCommit h x)
        fun r => (s.modSaf fun y => { y with fails := 0 }).fail h r.1 r.2) := by
  have hexec : exec (.safetyParamChange h b) s = .next (effSafetyParamChange h b s) := rfl
  have hrefusal : (s.modSaf fun y => { y with fails := 0 }).changeRefusal x = s.changeRefusal x := rfl
  rw [hexec, effSafetyParamChange, State.begin_of hb, hx]
  dsimp only
  rw [hrefusal, State.changeSent_eq]
  cases s.changeRefusal x <;> rfl

/-- A wrong password, or a lockout: AUTH_FAILED, one failure and one change number more (R245, R249). -/
theorem safetyParamChange_denied
    (hdenied : s.saf.lockout.isSome = true ∨ s.saf.passOk (byteAt x 33).toNat (sub x 48 32) = false) :
    ∃ t, exec (.safetyParamChange h b) s = .next t ∧ s.answers t h e.ring stAuthFailed (leBytes 4 0) ∧
      t = { s.withAnswer t with free := t.free, hyk := t.hyk, saf := { s.saf with
        fails := Nat.min 5 (s.saf.fails + 1), changeNo := s.saf.changeNo + 1
        lockout := if s.saf.lockout = none ∧ 4 ≤ s.saf.fails then some s.opMs else s.saf.lockout } } := by
  have hexec := exec_safetyParamChange_of_input hb hx
  obtain ⟨k, n, hfailed⟩ := s.passFailed_eq h (sub x 36 12)
  rw [if_pos (by simpa using hdenied), hfailed] at hexec
  obtain ⟨hanswers, hframe⟩ := State.fail_after (State.begins_entry hb) (State.begins_uncommitted hb) k n _ stAuthFailed 0
  exact ⟨_, hexec, hanswers, hframe.trans (by rw [State.fail_free, State.fail_hyk])⟩

section
variable (hl : s.saf.lockout = none) (hpass : s.saf.passOk (byteAt x 33).toNat (sub x 48 32) = true)
include hl hpass

/-- A check of R246 that fails: its status, and no failure of the password counts. -/
theorem safetyParamChange_refused {st : BitVec 16} {d : Nat} (hr : s.changeRefusal x = some (st, d)) :
    ∃ t, exec (.safetyParamChange h b) s = .next t ∧ s.answers t h e.ring st (leBytes 4 d) ∧
      t = { s.withAnswer t with saf := { s.saf with fails := 0 } } := by
  have hexec := exec_safetyParamChange_of_input hb hx
  rw [if_neg (by simp [hl, hpass]), hr] at hexec
  obtain ⟨hanswers, hframe⟩ := State.fail_after (State.begins_entry hb) (State.begins_uncommitted hb) s.hyk s.free
    { s.saf with fails := 0 } st d
  exact ⟨_, hexec, hanswers, hframe⟩

/-- A set that the standby IN_SYNC does not acknowledge is sent, and no more (R246, R320). -/
theorem exec_safetyParamChange_of_unacknowledged (hr : s.changeRefusal x = none) (hsync : s.inSync = true)
    (hack : b.standbyOk = false) : exec (.safetyParamChange h b) s =
      .next { s with sent := .mirrorItem 2 x :: s.sent, saf := { s.saf with fails := 0 } } := by
  rw [exec_safetyParamChange_of_input hb hx, if_neg (by simp [hl, hpass]), hr, Option.elim_none,
    if_pos (by simp [hsync, hack]), State.changeSent, if_pos hsync]

theorem exec_safetyParamChange_of_acknowledged (hr : s.changeRefusal x = none)
    (hack : s.inSync = true → b.standbyOk = true) :
    exec (.safetyParamChange h b) s = .next ((s.changeSent x).changeCommit h x) := by
  rw [exec_safetyParamChange_of_input hb hx, if_neg (by simp [hl, hpass]), hr, Option.elim_none, if_neg (by simpa using hack)]

/-- An acknowledged set is committed: it stands, it was sent, and its answer comes with the constants (R246, R247). -/
theorem safetyParamChange_committed (hr : s.changeRefusal x = none) (hack : s.inSync = true → b.standbyOk = true) :
    ∃ t r, exec (.safetyParamChange h b) s = .next t ∧
      t.saf.items = changedSet s.saf.items (byteAt x 32 == 1) (changeItems x) ∧ t.saf.changeNo = s.saf.changeNo + 1 ∧
      t.saf.fails = 0 ∧ t.saf.lockout = none ∧ r = le 32 (setDigest t.saf.items) ++ le 4 (nextSeq s.hyk.safSeq) ∧
      (s.inSync = true → .mirrorItem 2 x ∈ t.sent) ∧
      (¬ (s.sys.mode = .run ∧ (s.task 0).present = true) → t.constsWritten = true ∧
        (if t.cellsSettled then t.answered h stOk r ∧ t.saf.applying = none
          else t.saf.applying = some (h, padTo 48 r, s.now))) ∧
      (s.sys.mode = .run ∧ (s.task 0).present = true → t.tri = s.tri ∧ t.saf.applying = some (h, padTo 48 r, s.now)) := by
  obtain ⟨⟨p, a, hsaf⟩, hsent⟩ := (s.changeSent x).changeCommit_takesOver h x
  have hentry : (s.changeSent x).entry h = some e := State.begins_entry hb
  refine ⟨_, (s.changeSent x).changeResult x, exec_safetyParamChange_of_acknowledged hb hx hl hpass hr hack,
    ?_, ?_, ?_, ?_, ?_, fun hsync => ?_, fun hrun => State.changeCommit_atOnce hentry hrun x,
    fun hrun => State.changeCommit_waits (s := s.changeSent x) hrun h x⟩
  · rw [hsaf]; rfl
  · rw [hsaf]; rfl
  · rw [hsaf]; rfl
  · rw [hsaf]; exact hl
  · rw [hsaf]; rfl
  · refine hsent.subset ?_
    rw [State.changeSent, if_pos hsync]
    exact List.mem_cons_self

end

end

/-- Settles O27, way by way: a password denied, a check failed, a set not acknowledged, a set committed; the last clause is
the definition of PASSWORD_LOCKOUT_END after 15 min. -/
theorem safetyParametersChangeWithThePassword : Obligations.SafetyParametersChangeWithThePassword := by
  refine ⟨fun _ _ _ _ _ hb hx hl hpass hr hack => safetyParamChange_committed hb hx hl hpass hr hack,
    fun _ _ _ _ _ hb hx hl hpass hr hsync hack => exec_safetyParamChange_of_unacknowledged hb hx hl hpass hr hsync hack,
    fun _ _ _ _ _ hb hx hdenied => safetyParamChange_denied hb hx hdenied,
    fun _ _ _ _ _ _ _ hb hx hl hpass hr => safetyParamChange_refused hb hx hl hpass hr,
    fun s t0 hon ht hdue => ?_⟩
  have hexec : exec .passwordLockoutEnd s = .next (effPasswordLockoutEnd s) := rfl
  rw [hexec, effPasswordLockoutEnd, ht]
  dsimp only
  rw [if_pos ⟨hon, hdue⟩]
  rfl

end Sys2Proof.Machine
end

section
/-! Joining and losing a network: the time limits of a node (R257, R263, R278, R279, R287, R292 to R295), and the
obligation of 11_heathline_frames_and_schedule.md about them. -/

namespace Sys2Proof.Machine

/-! ## A network's controller under changes of the state -/

@[simp] theorem State.net_modNet_self (s : State) (n : Net) (f : HlNet → HlNet) : (s.modNet n f).net n = f (s.net n) := by
  cases n <;> rfl

theorem State.net_congr {s t : State} (h1 : t.hl1 = s.hl1) (h2 : t.hl2 = s.hl2) (n : Net) : t.net n = s.net n := by
  cases n <;> assumption

theorem State.modNet_congr {s : State} {n : Net} {f g : HlNet → HlNet} (h : f (s.net n) = g (s.net n)) :
    s.modNet n f = s.modNet n g := by
  cases n
  · exact congrArg (fun x => { s with hl1 := x }) h
  · exact congrArg (fun x => { s with hl2 := x }) h

@[simp] theorem State.net_setEvent (s : State) (k : Nat) (n : Net) : (s.setEvent k).net n = s.net n :=
  State.net_congr (State.setEvent_hl1 ..) (State.setEvent_hl2 ..) n

@[simp] theorem State.net_netStep (s : State) (d : Int) (n : Net) : (s.netStep d).net n = s.net n :=
  State.net_congr rfl rfl n

/-- Following plant time at its rate moves the time base alone (R353). -/
theorem State.referenceRate_eq (s : State) (n : Net) : s.referenceRate n = { s with tbu := (s.referenceRate n).tbu } := by
  unfold State.referenceRate
  split <;> rfl

@[simp] theorem State.net_referenceRate (s : State) (n m : Net) : (s.referenceRate n).net m = s.net m := by
  rw [State.referenceRate_eq]
  exact State.net_congr rfl rfl m

@[simp] theorem State.referenceRate_sys (s : State) (n : Net) : (s.referenceRate n).sys = s.sys := by
  rw [State.referenceRate_eq]

/-! ## SYS_EVENT.NETWORK -/

/-- An event that is raised stands in SYS_EVENT. -/
theorem State.setEvent_event (s : State) {k : Nat} (hk : k < 8) : (s.setEvent k).sys.event.getLsbD k = true := by
  have hbit : (1 <<< k : Byte).getLsbD k = true := by revert k; decide
  rw [State.setEvent_sys, BitVec.getLsbD_or, hbit, Bool.or_true]

@[simp] theorem State.net_netEvent (s : State) (n : Net) (before : HlNet) (m : Net) :
    (s.netEvent n before).net m = s.net m := by
  unfold State.netEvent
  split
  · rfl
  · exact s.net_setEvent 6 m

theorem State.netEvent_event {s : State} {n : Net} {before : HlNet}
    (h : before.isIntegrated ≠ (s.net n).isIntegrated) : (s.netEvent n before).sys.event.getLsbD 6 = true := by
  rw [State.netEvent, if_neg h]
  exact s.setEvent_event (by decide)

/-! ## COLDSTART frames (R280) -/

theorem hType_frameOf {ty gen : Nat} (hty : ty < 16) (hgen : gen < 16) (netId : Byte) (slot : Nat) (cycle : Word)
    (src epoch : Byte) (trailer chanB out ready : Bool) (len : Nat) (body : Bytes) :
    hType (frameOf ty gen netId slot cycle src epoch trailer chanB out ready len body) = ty := by
  change (BitVec.ofNat 8 (ty * 16 + gen)).toNat / 16 = ty
  rw [BitVec.toNat_ofNat]
  omega

theorem foldl_emit (g : Nat → Output) (ports : List Nat) (s : State) :
    ports.foldl (fun s p => s.emit (g p)) s = { s with sent := (ports.map g).reverse ++ s.sent } := by
  induction ports generalizing s with
  | nil => rfl
  | cons p ps ih =>
    rw [List.foldl_cons, ih, List.map_cons, List.reverse_cons, List.append_assoc]
    rfl

section
variable (s : State) (n : Net) (chanB : Bool) (ports : List Nat) (ty slot : Nat) (cycle : Word) (out trailer ready : Bool)
  (len : Nat) (body : Bytes)

/-- Sending frames adds one of the type for each port to what was sent, and changes nothing else. -/
theorem State.sendOn_eq (hty : ty < 16) : ∃ l, s.sendOn n chanB ports ty slot cycle out trailer ready len body =
    { s with sent := l ++ s.sent } ∧ ∀ p ∈ ports, ∃ f, .frame n p f ∈ l ∧ hType f = ty :=
  ⟨_, foldl_emit _ ports s, fun _ hp => ⟨_, List.mem_reverse.2 (List.mem_map_of_mem hp),
    hType_frameOf hty (s.net n).gen.isLt ..⟩⟩

end

theorem HlNet.occupy_eq (x : HlNet) (ports : List Nat) (start len : Nat) :
    x.occupy ports start len = { x with busy := (x.occupy ports start len).busy } := by
  unfold HlNet.occupy
  split <;> rfl

/-- The COLDSTART frames leave on all four ports, and the node notes how long they take. -/
theorem State.sendColdstart_eq (s : State) (n : Net) : ∃ l, s.sendColdstart n =
    ({ s with sent := l } : State).modNet n (·.occupy [0, 1, 2, 3] s.now 44) ∧
    ∀ p : Fin 4, ∃ f, .frame n p f ∈ l ∧ hType f = 3 := by
  obtain ⟨la, hsa, hla⟩ := s.sendOn_eq n false [portOf false false, portOf false true] 3 0 0 false false false 24
    (s.coldstartBody n) (by decide)
  obtain ⟨lb, hsb, hlb⟩ := ({ s with sent := la ++ s.sent } : State).sendOn_eq n true [portOf true false, portOf true true]
    3 0 0 false false false 24 (({ s with sent := la ++ s.sent } : State).coldstartBody n) (by decide)
  refine ⟨lb ++ (la ++ s.sent), ?_, fun p => ?_⟩
  · rw [State.sendColdstart, List.foldl_cons, List.foldl_cons, List.foldl_nil, hsa, hsb]
  · have hport : p.val ∈ [portOf false false, portOf false true] ∨ p.val ∈ [portOf true false, portOf true true] := by
      revert p; decide
    rcases hport with hp | hp
    · obtain ⟨f, hf, hty⟩ := hla p hp
      exact ⟨f, List.mem_append_right _ (List.mem_append_left _ hf), hty⟩
    · obtain ⟨f, hf, hty⟩ := hlb p hp
      exact ⟨f, List.mem_append_left _ hf, hty⟩

theorem State.sendColdstart_net (s : State) (n : Net) :
    (s.sendColdstart n).net n = { s.net n with busy := ((s.sendColdstart n).net n).busy } := by
  obtain ⟨l, h, -⟩ := s.sendColdstart_eq n
  have hnet : (s.sendColdstart n).net n = (s.net n).occupy [0, 1, 2, 3] s.now 44 := by
    rw [h, State.net_modNet_self]
    exact congrArg (HlNet.occupy · [0, 1, 2, 3] s.now 44) (State.net_congr rfl rfl n)
  rw [hnet]
  exact HlNet.occupy_eq ..

theorem State.sendColdstart_sent (s : State) (n : Net) (p : Fin 4) :
    ∃ f, .frame n p f ∈ (s.sendColdstart n).sent ∧ hType f = 3 := by
  obtain ⟨l, h, hl⟩ := s.sendColdstart_eq n
  rw [h, State.modNet_sent]
  exact hl p

/-! ## What Stile loses with a network (R335) -/

/-- The networks' controllers and the system registers. -/
def State.netPart (s : State) : HlNet × HlNet × Sys := (s.hl1, s.hl2, s.sys)

theorem State.net_of_netPart {s t : State} (h : t.netPart = s.netPart) (n : Net) : t.net n = s.net n :=
  State.net_congr (congrArg (·.1) h) (congrArg (·.2.1) h) n

theorem State.sys_of_netPart {s t : State} (h : t.netPart = s.netPart) : t.sys = s.sys := congrArg (·.2.2) h

@[simp] theorem State.modReqs_netPart (s : State) (f : List Req → List Req) : (s.modReqs f).netPart = s.netPart := rfl

@[simp] theorem State.refuse_netPart (s : State) (h : Quad) (d : Nat) : (s.refuse h d).netPart = s.netPart := by
  simp [State.netPart]

@[simp] theorem State.ctxError_netPart (s : State) (x : Nat) : (s.ctxError x).netPart = s.netPart := by
  unfold State.ctxError
  dsimp only
  (repeat' split) <;> simp [State.netPart]

@[simp] theorem State.raise_netPart (s : State) (src : Byte) (code : BitVec 16) (sev : BitVec 4) (data : Bytes) :
    (s.raise src code sev data).netPart = s.netPart := by
  simp [State.netPart]

@[simp] theorem State.dropReqs_netPart (s : State) (p : Req → Bool) : (s.dropReqs p).netPart = s.netPart := by
  unfold State.dropReqs
  refine foldl_keeps State.netPart _ (fun s r => ?_) _ _
  split
  · simp [State.netPart]
  · rfl

@[simp] theorem State.postedFail_netPart (s : State) (r : Req) (cause : BitVec 4) (far : Byte) :
    (s.postedFail r cause far).netPart = s.netPart := by
  have hmodCtx (u : State) (f : Ctx → Ctx) : (u.modCtx r.ctx f).netPart = u.netPart := rfl
  unfold State.postedFail
  dsimp only
  rw [State.raise_netPart, State.ctxError_netPart, hmodCtx]
  split <;> exact State.dropReqs_netPart ..

@[simp] theorem State.loadFailed_netPart (s : State) (r : Req) (task win kind : Nat) :
    (s.loadFailed r task win kind).netPart = s.netPart := by
  unfold State.loadFailed
  rw [State.raise_netPart, State.ctxError_netPart]
  rfl

@[simp] theorem State.transferDone_netPart (s : State) (h : Quad) (st : BitVec 16) (len : Nat) (tag : Word) (far : Nat) :
    (s.transferDone h st len tag far).netPart = s.netPart := by
  unfold State.transferDone
  split <;> simp [State.netPart]

@[simp] theorem State.reqError_netPart (s : State) (r : Req) (st : BitVec 16) (far : Nat) :
    (s.reqError r st far).netPart = s.netPart := by
  unfold State.reqError
  dsimp only
  (repeat' split) <;> simp

@[simp] theorem State.targetLost_netPart (s : State) (hl2 : Bool) (a : Nat) (cause : BitVec 4) (far : Byte) (others : Bool) :
    (s.targetLost hl2 a cause far others).netPart = s.netPart := by
  unfold State.targetLost
  refine foldl_keeps State.netPart _ (fun s x => ?_) _ _
  have hposted : (match s.stl.reqs.find? fun (r : Req) => r.posted && r.at x hl2 a with
      | some r => s.postedFail r cause far
      | none => s).netPart = s.netPart := by
    split
    · exact State.postedFail_netPart ..
    · rfl
  dsimp only
  split
  · exact (foldl_keeps State.netPart _ (fun s r => s.reqError_netPart ..) _ _).trans hposted
  · exact hposted

@[simp] theorem State.unsentLost_netPart (s : State) (n : Net) : (s.unsentLost n).netPart = s.netPart := by
  unfold State.unsentLost
  refine foldl_keeps State.netPart _ (fun s r => ?_) _ _
  dsimp only
  (repeat' split) <;> simp

/-! ## Entering and leaving (R293) -/

/-- A node after it has left: back in LISTEN, D and the upstream ports kept. -/
def HlNet.left (x : HlNet) (cause : BitVec 2) (now : Nat) : HlNet :=
  { x with
    state := .listen, search := false, lossCause := cause, losses := satInc x.losses, since := now, noBeacon := 0
    bigTheta := 0, claim := none, own := none, listed := [], barred := []
    join := { HlJoin.reset with upA := x.join.upA, upB := x.join.upB, seq := x.join.seq } }

/-- Of the networks and the system registers, leaving changes what the node's own return to LISTEN does: neither the record
nor Stile's losses reach them. -/
theorem State.leave_netPart (s : State) (n : Net) (cause : BitVec 2) : ∃ k, (s.leave n cause).netPart =
    ((({ s with hyk := k } : State).modNet n (·.left cause s.now)).netEvent n (s.net n)).netPart := by
  unfold State.leave
  dsimp only
  rw [State.raise_eq]
  split
  · exact ⟨_, (State.unsentLost_netPart ..).trans
      (foldl_keeps State.netPart _ (fun s a => s.targetLost_netPart ..) _ _)⟩
  · exact ⟨_, rfl⟩

theorem State.leave_net (s : State) (n : Net) (cause : BitVec 2) :
    (s.leave n cause).net n = (s.net n).left cause s.now := by
  obtain ⟨k, h⟩ := s.leave_netPart n cause
  rw [State.net_of_netPart h, State.net_netEvent, State.net_modNet_self]
  exact congrArg (HlNet.left · cause s.now) (State.net_congr rfl rfl n)

/-- Leaving integration raises SYS_EVENT.NETWORK. -/
theorem State.leave_event {s : State} {n : Net} (hi : (s.net n).isIntegrated = true) (cause : BitVec 2) :
    (s.leave n cause).sys.event.getLsbD 6 = true := by
  obtain ⟨k, h⟩ := s.leave_netPart n cause
  rw [State.sys_of_netPart h]
  refine State.netEvent_event ?_
  rw [hi, State.net_modNet_self]
  exact (by decide : true ≠ false)

/-- A node after it has been integrated, or has become the reference. -/
def HlNet.entered (x : HlNet) (st : NodeState) : HlNet :=
  { x with
    state := st, search := false, noBeacon := 0, bigTheta := 0, rx := [], join := { x.join with observe := none } }

theorem State.integrate_eq (s : State) (n : Net) (st : NodeState) : ∃ y, s.integrate n st =
    (({ s with sys := y } : State).modNet n (·.entered st)).netEvent n (s.net n) := by
  unfold State.integrate
  dsimp only
  split
  · exact ⟨{ s.sys with stretch := true }, by cases n <;> rfl⟩
  · exact ⟨s.sys, rfl⟩

theorem State.integrate_net (s : State) (n : Net) (st : NodeState) : (s.integrate n st).net n = (s.net n).entered st := by
  obtain ⟨y, h⟩ := s.integrate_eq n st
  rw [h, State.net_netEvent, State.net_modNet_self]
  exact congrArg (HlNet.entered · st) (State.net_congr rfl rfl n)

/-- Becoming the reference from outside integration raises SYS_EVENT.NETWORK. -/
theorem State.integrate_event {s : State} {n : Net} (hb : (s.net n).isIntegrated = false) :
    (s.integrate n .reference).sys.event.getLsbD 6 = true := by
  obtain ⟨y, h⟩ := s.integrate_eq n .reference
  rw [h]
  refine State.netEvent_event ?_
  rw [hb, State.net_modNet_self]
  exact (by decide : false ≠ true)

/-! ## A command with a limit -/

/-- A command that acts once a count has reached its limit changes nothing before. -/
theorem exec_of_limit {c : Instr} {s u : State} {C : Prop} [Decidable C] {a b : Nat} {P : State → Prop}
    (hexec : exec c s = .next (if C then u else s)) (hC : C ↔ b ≤ a) (hP : b ≤ a → P u) :
    ∃ t, exec c s = .next t ∧ (a < b → t = s) ∧ (b ≤ a → P t) := by
  refine ⟨_, hexec, fun hlt => if_neg fun h => ?_, fun hle => ?_⟩
  · exact absurd (hC.1 h) (Nat.not_le.2 hlt)
  · rw [if_pos (hC.2 hle)]
    exact hP hle

/-- Cycles without the own BEACON at port 2 of a channel. -/
def HlNet.ringMiss (x : HlNet) : Chan → Nat
  | .a => x.ringMissA
  | .b => x.ringMissB

/-- The channel of the ring is split. -/
def HlNet.split (x : HlNet) : Chan → HlNet
  | .a => { x with splitA := true }
  | .b => { x with splitB := true }

section
variable {s : State} {n : Net} (hup : s.netUp n = true)
include hup

theorem listenTimeout_atLimit (hst : (s.net n).state = .listen) : ∃ t, exec (.listenTimeout n) s = .next t ∧
    (s.now < (s.net n).since + (s.net n).cyclesCounts 8 + countsMs → t = s) ∧
    ((s.net n).since + (s.net n).cyclesCounts 8 + countsMs ≤ s.now →
      (t.net n).state = .coldstart ∧ (t.net n).attempt = satInc (s.net n).attempt ∧ (t.net n).cycle = 0 ∧
      (t.net n).since = s.now ∧ ∀ p : Fin 4, ∃ f, .frame n p f ∈ t.sent ∧ hType f = 3) := by
  refine exec_of_limit rfl (by simp only [hup, hst, true_and]) fun _ => ?_
  refine ⟨?_, ?_, ?_, ?_, State.sendColdstart_sent _ n⟩ <;> rw [State.sendColdstart_net, State.net_modNet_self]

theorem coldstartWindowEnd_atLimit (hst : (s.net n).state = .coldstart) :
    ∃ t, exec (.coldstartWindowEnd n) s = .next t ∧ (s.now < (s.net n).since + (s.net n).cyclesCounts 8 → t = s) ∧
    ((s.net n).since + (s.net n).cyclesCounts 8 ≤ s.now →
      (t.net n).state = .reference ∧ (t.net n).refAddr = (s.net n).addr ∧ (t.net n).cycle + 1 = 0 ∧ (t.net n).grants = [] ∧
      (t.net n).splitA = false ∧ (t.net n).splitB = false ∧ t.sys.event.getLsbD 6 = true) := by
  refine exec_of_limit rfl (by simp only [hup, hst, true_and]) fun _ => ?_
  have hset : (if s.tbu.plantSet then s.netStep (s.plantNow - s.netNow) else s).net n = s.net n := by
    split
    · exact s.net_netStep ..
    · rfl
  rw [State.net_referenceRate, State.integrate_net, State.net_modNet_self, hset, State.referenceRate_sys]
  refine ⟨rfl, rfl, (by decide : (0xFFFFFFFF : Word) + 1 = 0), rfl, rfl, rfl, State.integrate_event ?_⟩
  rw [State.net_modNet_self, hset, HlNet.isIntegrated, hst]
  rfl

theorem waitTimeout_atLimit (hst : (s.net n).state = .wait) :
    ∃ t, exec (.waitTimeout n) s = .next t ∧ (s.now < (s.net n).since + (s.net n).cyclesCounts 16 → t = s) ∧
    ((s.net n).since + (s.net n).cyclesCounts 16 ≤ s.now → (t.net n).state = .listen ∧ (t.net n).since = s.now) := by
  refine exec_of_limit rfl (by simp only [hup, hst, true_and]) fun _ => ?_
  rw [State.net_modNet_self]
  exact ⟨rfl, rfl⟩

theorem observeTimeout_atLimit (hst : (s.net n).state = .observe) :
    ∃ t, exec (.observeTimeout n) s = .next t ∧ (s.now < (s.net n).since + (s.net n).cyclesCounts 16 → t = s) ∧
    ((s.net n).since + (s.net n).cyclesCounts 16 ≤ s.now →
      (t.net n).state = .sync ∧ (t.net n).dA = none ∧ (t.net n).dB = none) := by
  refine exec_of_limit rfl (by simp only [hup, hst, true_and]) fun _ => ?_
  rw [State.net_modNet_self]
  exact ⟨rfl, rfl, rfl⟩

theorem beaconLoss_atLimit
    (hst : (s.net n).state = .sync ∨ (s.net n).state = .observe ∨ (s.net n).state = .integrated) :
    ∃ t, exec (.beaconLoss n) s = .next t ∧ ((s.net n).noBeacon < 4 → t = s) ∧
    (4 ≤ (s.net n).noBeacon → (t.net n).state = .listen ∧ (t.net n).lossCause = 1 ∧
      (t.net n).losses = satInc (s.net n).losses ∧ (t.net n).dA = (s.net n).dA ∧ (t.net n).dB = (s.net n).dB ∧
      (t.net n).since = s.now ∧ ((s.net n).state = .integrated → t.sys.event.getLsbD 6 = true)) := by
  refine exec_of_limit rfl (by simp only [hup, hst, true_and]) fun _ => ?_
  rw [State.leave_net]
  refine ⟨rfl, rfl, rfl, rfl, rfl, rfl, fun hint => State.leave_event ?_ 1⟩
  rw [HlNet.isIntegrated, hint]
  rfl

theorem hubAssumesReference_atLimit (hhub : (s.net n).hub = true) (hst : (s.net n).state = .integrated) :
    ∃ t, exec (.hubAssumesReference n) s = .next t ∧ ((s.net n).noBeacon < 2 → t = s) ∧
    (2 ≤ (s.net n).noBeacon → (t.net n).state = .reference ∧ (t.net n).refAddr = (s.net n).addr) := by
  refine exec_of_limit rfl (by simp only [hup, hhub, hst, true_and]) fun _ => ?_
  rw [State.net_referenceRate, State.net_modNet_self]
  exact ⟨rfl, rfl⟩

theorem guardianLimit_atLimit (hint : (s.net n).isIntegrated = true) :
    ∃ t, exec (.guardianLimit n) s = .next t ∧ ((s.net n).refusals.length < 8 → t = s) ∧
    (8 ≤ (s.net n).refusals.length → (t.net n).state = .listen ∧ (t.net n).lossCause = 2 ∧
      (t.net n).leaves = satInc (s.net n).leaves ∧ (t.net n).refusals = []) := by
  refine exec_of_limit rfl (by simp only [hup, HlNet.judges, hint, Bool.true_or, true_and]) fun _ => ?_
  rw [State.net_modNet_self, State.leave_net]
  exact ⟨rfl, rfl, rfl, rfl⟩

/-! ## Splits, claims and grants (R263, R279, R295) -/

/-- A hub on a ring splits a channel once its own BEACON has been missing for 2 cycles, and does nothing else (R263). -/
theorem exec_ringSplit (hhub : (s.net n).hub = true) (hint : (s.net n).isIntegrated = true) (hring : (s.net n).port2 = 2)
    (c : Chan) : exec (.ringSplit n c) s = .next (if 2 ≤ (s.net n).ringMiss c then s.modNet n (·.split c) else s) := by
  cases c <;>
    exact congrArg Host.Outcome.next
      (ite_congr (by simp only [hup, hhub, hint, hring, true_and]; rfl) (fun _ => rfl) fun _ => rfl)

theorem exec_claimAbandoned {j k : Nat} (hc : (s.net n).claim = some (j, k)) : exec (.claimAbandoned n) s = .next
    (if 8 ≤ k then s.modNet n fun x => { x with claim := (s.net n).pick.map fun i => (i, 0) } else s) := by
  have hexec : exec (.claimAbandoned n) s = .next (effClaimAbandoned n s) := rfl
  rw [hexec, effClaimAbandoned, hup, hc]
  exact congrArg Host.Outcome.next (ite_congr rfl (fun _ => State.modNet_congr rfl) fun _ => rfl)

theorem grantReleased_grants (hhub : (s.net n).hub = true) (slot : Fin 4096) :
    ∃ t, exec (.grantReleased n slot) s = .next t ∧
      ∀ g, g ∈ (t.net n).grants ↔ g ∈ (s.net n).grants ∧ ¬ (g.1 = slot.val ∧ 256 ≤ g.2.2.2) := by
  refine ⟨_, rfl, fun g => ?_⟩
  rw [effGrantReleased, if_pos ⟨hup, hhub⟩, State.net_modNet_self, List.mem_filter, Bool.not_eq_true',
    Bool.and_eq_false_iff, beq_eq_false_iff_ne, decide_eq_false_iff_not, Decidable.not_and_iff_not_or_not]

end

/-! ## Links (R257) -/

/-- A port mask with one bit set to a value. -/
def putBit (v : BitVec 4) (p : Fin 4) (b : Bool) : BitVec 4 :=
  if b then v ||| (1 <<< p.val : BitVec 4) else v &&& ~~~ (1 <<< p.val : BitVec 4)

theorem getLsbD_putBit (v : BitVec 4) (p q : Fin 4) (b : Bool) :
    (putBit v p b).getLsbD q = if q = p then b else v.getLsbD q := by
  have hbit : (1 <<< p.val : BitVec 4).getLsbD q = decide (q = p) := by revert p q; decide
  cases b
  · have hclear : (putBit v p false).getLsbD q = (v.getLsbD q && !decide (q = p)) := by
      rw [← hbit, putBit, if_neg Bool.false_ne_true, BitVec.getLsbD_and, BitVec.getLsbD_not, decide_eq_true q.isLt,
        Bool.true_and]
    rw [hclear]
    by_cases hq : q = p <;> simp [hq]
  · have hset : (putBit v p true).getLsbD q = (v.getLsbD q || decide (q = p)) := by
      rw [← hbit, putBit, if_pos rfl, BitVec.getLsbD_or]
    rw [hset]
    by_cases hq : q = p <;> simp [hq]

/-- LINK_CHANGE puts the link's state and the master bit of its port, and counts a link that is lost. -/
theorem State.linkChange_net {s : State} (hd : s.domOn 4 = true) (n : Net) (p : Fin 4) (up m : Bool) :
    (effLinkChange n p up m s).net n = { s.net n with
      linkUp := putBit (s.net n).linkUp p up
      master := putBit (s.net n).master p (up && m && (s.net n).gen == 2)
      drops := ((effLinkChange n p up m s).net n).drops } := by
  rw [effLinkChange, if_pos hd, State.net_modNet_self]
  rfl

theorem linkChange_links {s : State} (hd : s.domOn 4 = true) (n : Net) (p : Fin 4) (up m : Bool) :
    ∃ t, exec (.linkChange n p up m) s = .next t ∧ (∀ q : Fin 4, (t.net n).linkUp.getLsbD q =
        if q = p then up else (s.net n).linkUp.getLsbD q) ∧
      (t.net n).master.getLsbD p = (up && m && (s.net n).gen == 2) ∧ (t.net n).state = (s.net n).state := by
  refine ⟨_, rfl, ?_⟩
  rw [State.linkChange_net hd]
  exact ⟨fun q => getLsbD_putBit .., (getLsbD_putBit ..).trans (if_pos rfl), rfl⟩

/-- Settles O53, a lemma for each command; what leaving a network does besides, to Stile's requests, leaves the network alone
(`State.leave_net`). -/
theorem heathlineLimitsChangeTheState : Obligations.HeathlineLimitsChangeTheState := by
  refine ⟨fun _ _ hup hst => listenTimeout_atLimit hup hst,
    fun _ _ hup hst => coldstartWindowEnd_atLimit hup hst,
    fun _ _ hup hst => waitTimeout_atLimit hup hst,
    fun _ _ hup hst => observeTimeout_atLimit hup hst,
    fun _ _ hup hst => beaconLoss_atLimit hup hst,
    fun _ _ hup hhub hst => hubAssumesReference_atLimit hup hhub hst,
    fun _ _ hup hint => guardianLimit_atLimit hup hint,
    fun s n hup hhub hint hring => ⟨fun hmiss => ?_, fun hmiss => ?_, fun hmiss => ?_⟩,
    fun _ _ _ _ hup hc => exec_claimAbandoned hup hc,
    fun _ _ slot hup hhub => grantReleased_grants hup hhub slot,
    fun _ n p up m hd => linkChange_links hd n p up m⟩
  · exact (exec_ringSplit hup hhub hint hring .a).trans (congrArg _ (if_pos hmiss))
  · exact (exec_ringSplit hup hhub hint hring .b).trans (congrArg _ (if_pos hmiss))
  · exact (exec_ringSplit hup hhub hint hring .a).trans (congrArg _ (if_neg (Nat.not_le.2 hmiss)))

end Sys2Proof.Machine
end
